-- ==== Sys2Proof/Word.lean ====
section
/-!
DEFINITION. The plain word types of the AU-960: bytes, sectors, lines and line images
(01 Logical units, 02 R53), and the 38-bit physical line address (01 Physical hierarchy).
-/

namespace Sys2Proof

/-- One byte. -/
abbrev Byte := BitVec 8

/-- A 64-bit register or parameter word. -/
abbrev Word := BitVec 64

/-- The 64 B host access unit; byte k is bits [8k+7:8k] (00 R7). -/
abbrev Sector := BitVec 512

/-- The 256 B payload of a line, byte k in bits [8k+7:8k]. -/
abbrev LineData := BitVec 2048

/-- A coded line as 648 cells of 4 bits; bit b is bit (b mod 4) of the symbol of cell b / 4 (08 R321). -/
abbrev Image := BitVec 2592

/-- A physical line address: LANE [37:34], DIE [33:31], TILE [30:13], OFFSET [12:0]. -/
abbrev Pla := BitVec 38

end Sys2Proof
end

