-- ==== Sys2Proof/Syntax.lean ====
section
/-!
DEFINITION. The commands of the AU-960: one constructor of Instr per row of spec/opcode_table.json,
and the operands they carry. Every command's first operand t is the time stamp, in nanoseconds of
the counter of R24, at which it comes about (log entry 1). The other operands say who sends it, what
it names, and what the world outside the device answers in it: the dies' cells, the hosts' memory,
the sensors' readings, the board's levels.
-/

namespace Sys2Proof

/-- The two CXL heads. -/
inductive Head where
  | a | b
  deriving DecidableEq, Repr

/-- Who reaches the register map: a head or the sideband (21 R734). -/
inductive Port where
  | head (h : Head)
  | sideband
  deriving DecidableEq, Repr

/-- What one sense of a physical line returns, as the bits that differ from the bits stored there.
Passes are numbered 1 to 5 (03 R98). -/
structure Noise where
  pla  : Pla
  pass : Nat
  bits : Image
  deriving DecidableEq, Repr

/-- A cell of a line and its resistance code at the last verify sense of a program (02 R43). -/
structure CellCode where
  cell : Nat
  code : BitVec 8
  deriving DecidableEq, Repr

/-- What the verify senses of each attempt to program a line find, first attempt and first sense first (04 R146, R148):
a sense after a reset step lists cells below code 179, one after a set step those that are not at their level's nominal
code. A sense not listed finds no such cell. -/
structure Attempt where
  pla   : Pla
  tries : List (List (List CellCode))
  deriving DecidableEq, Repr

/-- What the medium answers during one step: a sense not listed returns the stored bits, a program
not listed verifies with every cell at its nominal code, a die not listed as silent answers, a reset
not listed reaches code 179. -/
structure Answers where
  noise   : List Noise
  outside : List Attempt
  silent  : List (Fin 16 × Fin 8)
  residue : List Pla
  deriving DecidableEq, Repr

/-- What one occurrence of a zone's move does (06 R239): how many stripes it copies before it ends, and the medians of
each lane's waymark sense of the source. -/
structure MoveInputs where
  stripes : Nat
  medians : List (List (BitVec 8))
  deriving DecidableEq, Repr

/-- Consecutive bytes of one host's memory, as a read over the CXL.io link returned them; poisoned: the link marked them
so (08 R312). -/
structure HostBytes where
  addr     : Nat
  bytes    : List Byte
  poisoned : Bool
  deriving DecidableEq, Repr

/-- How the fetch of a submission entry ends (08 R312, 11 R396). -/
inductive FetchEnd where
  | data (entry : Sector)
  | poison
  | linkError
  deriving DecidableEq, Repr

/-- A unit that BIST finds failing (19 R691-R693): UNIT of R693, and the row or column when an SRAM
macro has one; `none` when the failure is not a single row or column. -/
structure BistFail where
  unit   : BitVec 16
  column : Bool
  addr   : Option (BitVec 16)
  deriving DecidableEq, Repr

/-- What a start meets outside the controller (19 R679): the time its steps take up to the end of
CHECKS, the failures a BIST would find, the lanes that train, the dies that answer, and the
medium's answers during ZT, RESYNC and CHECKS. -/
structure StartInputs where
  took    : Nat
  bist    : List BistFail
  trained : BitVec 16
  dies    : List (BitVec 8)
  media   : Answers
  deriving DecidableEq, Repr

/-- The TAP instructions of R719. -/
inductive TapInstr where
  | bypass | idcode | samplePreload | extest | extestPulse | extestTrain | clamp | highz
  deriving DecidableEq, Repr

/-- The kinds of memory event log of a head (09 R347). -/
inductive CxlLog where
  | informational | warning | failure | fatal
  deriving DecidableEq, Repr

/-- The two head resets that come over a head's own link or pin (09 R332). -/
inductive ResetKind where
  | perst | hot
  deriving DecidableEq, Repr

/-- One command: one constructor per row of spec/opcode_table.json, in the table's order. -/
inductive Instr where
  -- CXL.mem and the heads
  | memrd (t : Nat) (h : Head) (tag : Nat) (hpa : Word)
  | memwr (t : Nat) (h : Head) (tag : Nat) (hpa : Word) (data : Sector) (poison : Bool)
  | creditReturn (t : Nat) (h : Head)
  | headReset (t : Nat) (h : Head) (kind : ResetKind)
  | cxlReset (t : Nat) (h : Head)
  | flr (t : Nat) (h : Head)
  | perstDeassert (t : Nat) (h : Head)
  | gpfPhase1 (t : Nat) (h : Head)
  | gpfPhase2 (t : Nat) (h : Head)
  -- the mailbox
  | getEventRecords (t : Nat) (h : Head) (log : CxlLog)
  | clearEventRecords (t : Nat) (h : Head) (log : CxlLog) (handles : List (BitVec 16))
  | getEventInterruptPolicy (t : Nat) (h : Head)
  | setEventInterruptPolicy (t : Nat) (h : Head) (policy : BitVec 32)
  | getFwInfo (t : Nat) (h : Head)
  | transferFw (t : Nat) (h : Head) (offset : BitVec 32) (bytes : List Byte)
  | activateFw (t : Nat) (h : Head) (slot : Bool) (mask : BitVec 4) (activate : Bool)
  | getTimestamp (t : Nat) (h : Head)
  | setTimestamp (t : Nat) (h : Head) (ns : Word)
  | getSupportedLogs (t : Nat) (h : Head)
  | getLog (t : Nat) (h : Head)
  | identifyMemoryDevice (t : Nat) (h : Head)
  | getPartitionInfo (t : Nat) (h : Head)
  | setPartitionInfo (t : Nat) (h : Head)
  | getHealthInfo (t : Nat) (h : Head)
  | getAlertConfiguration (t : Nat) (h : Head)
  | setAlertConfiguration (t : Nat) (h : Head) (cfg : Word)
  | getLsa (t : Nat) (h : Head) (offset length : Nat)
  | setLsa (t : Nat) (h : Head) (offset : Nat) (bytes : List Byte)
  | getPoisonList (t : Nat) (h : Head)
  | mailboxUnsupported (t : Nat) (h : Head) (opcode : BitVec 16)
  -- queues
  | sqTailDb (t : Nat) (h : Head) (q : Fin 64) (value : BitVec 32)
  | cqHeadDb (t : Nat) (h : Head) (q : Fin 64) (value : BitVec 32)
  | sqFetch (t : Nat) (h : Head)
  | sqEntryArrive (t : Nat) (qid : BitVec 7) (ending : FetchEnd)
  | orderedStart (t : Nat) (qid : BitVec 7) (cid : BitVec 16)
  | msixItimeExpire (t : Nat) (qid : BitVec 7)
  | admqEn (t : Nat) (h : Head) (value : BitVec 32)
  | admqRdy (t : Nat) (h : Head)
  -- commands of the native interface, named by queue and command ID
  | identify (t : Nat) (qid : BitVec 7) (cid : BitVec 16)
  | createQpair (t : Nat) (qid : BitVec 7) (cid : BitVec 16)
  | deleteQpair (t : Nat) (qid : BitVec 7) (cid : BitVec 16)
  | setTime (t : Nat) (qid : BitVec 7) (cid : BitVec 16)
  | watch (t : Nat) (qid : BitVec 7) (cid : BitVec 16)
  | watchTimeout (t : Nat) (qid : BitVec 7) (cid : BitVec 16)
  | barrier (t : Nat) (qid : BitVec 7) (cid : BitVec 16)
  | eventRead (t : Nat) (qid : BitVec 7) (cid : BitVec 16)
  | selfTest (t : Nat) (qid : BitVec 7) (cid : BitVec 16) (bist : List BistFail)
  | fwDownload (t : Nat) (qid : BitVec 7) (cid : BitVec 16) (host : List HostBytes)
  | fwCommit (t : Nat) (qid : BitVec 7) (cid : BitVec 16)
  | regionCreate (t : Nat) (qid : BitVec 7) (cid : BitVec 16)
  | regionGrow (t : Nat) (qid : BitVec 7) (cid : BitVec 16)
  | regionDelete (t : Nat) (qid : BitVec 7) (cid : BitVec 16)
  | regionQuery (t : Nat) (qid : BitVec 7) (cid : BitVec 16)
  | regionSetAttr (t : Nat) (qid : BitVec 7) (cid : BitVec 16)
  | takeover (t : Nat) (qid : BitVec 7) (cid : BitVec 16)
  | regionUnlock (t : Nat) (qid : BitVec 7) (cid : BitVec 16)
  | discard (t : Nat) (qid : BitVec 7) (cid : BitVec 16)
  | secureDiscard (t : Nat) (qid : BitVec 7) (cid : BitVec 16) (media : Answers)
  | keyLoad (t : Nat) (qid : BitVec 7) (cid : BitVec 16) (host : List HostBytes)
  | keyRetire (t : Nat) (qid : BitVec 7) (cid : BitVec 16)
  | rangeRekey (t : Nat) (qid : BitVec 7) (cid : BitVec 16)
  | cabinetAuth (t : Nat) (qid : BitVec 7) (cid : BitVec 16) (host : List HostBytes)
  | objPut (t : Nat) (qid : BitVec 7) (cid : BitVec 16) (host : List HostBytes) (media : Answers)
  | objGet (t : Nat) (qid : BitVec 7) (cid : BitVec 16) (media : Answers)
  | objDelete (t : Nat) (qid : BitVec 7) (cid : BitVec 16) (media : Answers)
  | objSecureDelete (t : Nat) (qid : BitVec 7) (cid : BitVec 16) (media : Answers)
  | objStat (t : Nat) (qid : BitVec 7) (cid : BitVec 16) (media : Answers)
  | ecEncode (t : Nat) (qid : BitVec 7) (cid : BitVec 16) (host : List HostBytes) (media : Answers)
  | ecReconstruct (t : Nat) (qid : BitVec 7) (cid : BitVec 16) (host : List HostBytes) (media : Answers)
  | verify (t : Nat) (qid : BitVec 7) (cid : BitVec 16) (host : List HostBytes) (media : Answers)
  | checksum (t : Nat) (qid : BitVec 7) (cid : BitVec 16) (host : List HostBytes) (media : Answers)
  -- the lanes and the read path
  | laneSenseStart (t : Nat) (lane : Fin 16)
  | senseTransferDone (t : Nat) (lane : Fin 16) (sense : Nat) (noise : Image)
  | decodeDone (t : Nat) (lane : Fin 16) (sense : Nat)
  | waymarkSenseDone (t : Nat) (lane : Fin 16) (sense : Nat) (medians : List (BitVec 8))
  | senseTimeout (t : Nat) (lane : Fin 16) (sense : Nat)
  | linkCheckReject (t : Nat) (lane : Fin 16) (sense : Nat)
  | recoveryIntervalEnd (t : Nat)
  | readDeadline (t : Nat) (h : Head) (tag : Nat)
  | vergeConfirmTimeout (t : Nat) (lane : Fin 16) (sense : Nat)
  | prefetchIssue (t : Nat) (h : Head) (detector : Fin 16)
  | ztRebuild (t : Nat) (lzone : BitVec 21)
  -- write-back and the media engine
  | writebackAge (t : Nat) (region : BitVec 10) (line : BitVec 37)
  | stagingMove (t : Nat)
  | stagedIssue (t : Nat) (entry : Nat) (media : Answers)
  | programVerifyDone (t : Nat) (prog : Nat) (senses : List (List CellCode)) (residue : Bool)
  | verifySenseTimeout (t : Nat) (prog : Nat)
  | mergeRefuse (t : Nat) (prog : Nat) (media : Answers)
  | suspLong (t : Nat) (prog : Nat)
  | intentClear (t : Nat) (pzone : BitVec 21)
  | stripeSeal (t : Nat) (region : BitVec 10) (target : Bool)
  | gapMove (t : Nat) (lzone : BitVec 21) (media : Answers)
  | move (t : Nat) (lzone : BitVec 21) (work : MoveInputs) (media : Answers)
  | preclear (t : Nat) (pzone : BitVec 21) (media : Answers)
  | checkpointTimer (t : Nat) (media : Answers)
  | bind (t : Nat) (lzone : BitVec 21)
  | bindReserveRefill (t : Nat)
  | laneTakeOut (t : Nat) (p : Port) (value : BitVec 32)
  | laneTest (t : Nat) (p : Port) (value : BitVec 32)
  | laneReturn (t : Nat) (p : Port) (value : BitVec 32)
  | selfTestDone (t : Nat) (lane : Fin 16) (linkOk : Bool) (dieOk : BitVec 8)
      (badTiles : List (Fin 8 × BitVec 18))
  | restoreZone (t : Nat) (lane : Fin 16) (media : Answers)
  -- cache maintenance and scratch
  | maintClean (t : Nat) (p : Port) (value : BitVec 32)
  | maintInvalidate (t : Nat) (p : Port) (value : BitVec 32)
  | maintFlush (t : Nat) (p : Port) (value : BitVec 32)
  | maintDone (t : Nat)
  | scratchCfgWrite (t : Nat) (p : Port) (value : BitVec 32)
  | scratchConversionDone (t : Nat)
  -- control cores
  | coreFetchPoison (t : Nat) (core : Fin 16) (addr : Word)
  | coreDataAbort (t : Nat) (core : Fin 16)
  -- streams and DMA
  | streamFlush (t : Nat) (p : Port) (stream : Fin 64)
  | streamFlushEffect (t : Nat) (stream : Fin 64)
  | streamMark (t : Nat) (p : Port) (stream : Fin 64)
  | streamRewind (t : Nat) (p : Port) (stream : Fin 64)
  | streamRelease (t : Nat) (p : Port) (stream : Fin 64)
  | streamCfgWrite (t : Nat) (p : Port) (stream : Fin 64) (value : BitVec 32)
  | dmaEn (t : Nat) (p : Port) (chan : Fin 32) (value : BitVec 32)
  | dmaResume (t : Nat) (p : Port) (chan : Fin 32)
  | dmaSkip (t : Nat) (p : Port) (chan : Fin 32)
  | dmaStop (t : Nat) (p : Port) (chan : Fin 32)
  | dmaTail (t : Nat) (p : Port) (chan : Fin 32) (value : BitVec 32)
  | dmaReq (t : Nat) (p : Port) (value : BitVec 32)
  | dmaCfgWrite (t : Nat) (p : Port) (chan : Fin 32) (value : BitVec 32)
  | dmaDescriptor (t : Nat) (chan : Fin 32) (host : List HostBytes) (linkError : Option Nat)
      (media : Answers)
  -- heap collection, rekey, security
  | collect (t : Nat) (region : BitVec 10) (media : Answers)
  | rekeyStripe (t : Nat) (region : BitVec 10) (media : Answers)
  | zeroise (t : Nat) (p : Port)
  | testUnlock (t : Nat) (p : Port) (media : Answers)
  | secCfgWrite (t : Nat) (p : Port) (value : BitVec 32)
  -- events and counters
  | coalWindowEnd (t : Nat) (source : Fin 1024)
  | lostRecord (t : Nat)
  | attnAck (t : Nat) (p : Port) (value : BitVec 32)
  | dumpPeriod (t : Nat) (ok : Bool)
  | dumpNow (t : Nat) (p : Port) (value : BitVec 32) (ok : Bool)
  | bwWindowEnd (t : Nat)
  | bwCfgWrite (t : Nat) (p : Port) (value : BitVec 32)
  | traceTimeout (t : Nat) (tag : Fin 64) (ok : Bool)
  | cpageCfgWrite (t : Nat) (h : Head) (page : Fin 16) (value : BitVec 32)
  | barUnmapped (t : Nat) (p : Port) (bar : BitVec 8) (offset : BitVec 32) (isWrite : Bool)
  -- power
  | vauxPowerOn (t : Nat)
  | powerUpStart (t : Nat)
  | railPgChange (t : Nat) (rail : Fin 12) (good : Bool)
  | pgStable (t : Nat) (start : StartInputs)
  | pgTimeout (t : Nat)
  | railFail (t : Nat) (rail : Fin 12) (media : Answers)
  | vphyReenable (t : Nat) (h : Head)
  | pwrFltIn (t : Nat) (media : Answers)
  | fltPulseEnd (t : Nat)
  | vinGoodLoss (t : Nat) (media : Answers)
  | bankFloor (t : Nat)
  | railFallDone (t : Nat)
  | fallTimeout (t : Nat) (rail : Fin 12)
  | restart (t : Nat) (p : Port)
  | marginGo (t : Nat) (p : Port) (value : BitVec 32)
  | testNow (t : Nat) (p : Port)
  | bankTestDue (t : Nat)
  | bankTestHoldTimeout (t : Nat)
  | bankTestRetry (t : Nat)
  | bankTestLoadEnd (t : Nat) (v0 v1 v2 v3 : Nat) (i : Nat) (t3 : Nat)
  | bankCharged (t : Nat) (mv : BitVec 16)
  | chargerFault (t : Nat) (mv : BitVec 16)
  | energyLimitRecompute (t : Nat) (mv : BitVec 16)
  | energyWaitTimeout (t : Nat)
  | aonClkStop (t : Nat)
  -- thermal
  | thermalSample (t : Nat) (temps : List (Option Int)) (media : Answers)
  | aonSample (t : Nat) (temps : List (Option Int))
  | thermtripComparator (t : Nat) (sensor : Fin 16) (media : Answers)
  | thermtripRelease (t : Nat) (temps : List (Option Int))
  | driftCheckpoint (t : Nat)
  | timeWaitExpire (t : Nat)
  -- life cycle
  | shutdown (t : Nat) (p : Port) (bist : List BistFail) (media : Answers)
  | warm (t : Nat) (p : Port) (start : StartInputs)
  | shutdownCmdTimeout (t : Nat)
  | cabinetWriteDone (t : Nat) (ok : Bool)
  | tapInstruction (t : Nat) (i : TapInstr)
  | registerWrite (t : Nat) (p : Port) (offset : BitVec 20) (wide : Bool) (value : Word)
  | vauxLoss (t : Nat)
  | vinGoodFall (t : Nat)
  | headLinkDown (t : Nat) (h : Head)
  | headLinkUp (t : Nat) (h : Head) (width : BitVec 4)
  | clusterReloadDone (t : Nat) (cluster : Fin 4)
  | clusterUpdateCmdTimeout (t : Nat) (cluster : Fin 4)
  | bankTestChargeSettled (t : Nat)
  | strobeTracking (t : Nat) (lane : Fin 16)
  | afTableRebuilt (t : Nat)
  | testEnChange (t : Nat) (level : Bool)
  deriving DecidableEq, Repr

end Sys2Proof
end

