-- ==== Sys2Proof/WellFormed.lean ====
section
/-!
DEFINITION. Which operands the device's links, pins and dies can carry. A command outside this set names
a thing that does not exist: a 64 B access off its boundary, a sensor list of another length, a pass 0.
-/

namespace Sys2Proof

/-- A sense or waymark answer names passes 1 to 5 (03 R98). -/
def Noise.wf (n : Noise) : Bool := decide (1 ≤ n.pass) && decide (n.pass ≤ 5)

/-- A line has 648 cells (02 R53), each with one code. -/
def cellsWf (l : List CellCode) : Bool :=
  l.all (fun x => decide (x.cell < 648)) && decide (l.map CellCode.cell).Nodup

def Attempt.wf (a : Attempt) : Bool := a.tries.all (fun l => l.all cellsWf)

def Answers.wf (a : Answers) : Bool := a.noise.all Noise.wf && a.outside.all Attempt.wf

/-- Host memory is addressed with 62 bits (11 R398). -/
def HostBytes.wf (b : HostBytes) : Bool := decide (b.addr + b.bytes.length ≤ 2 ^ 62)

def hostWf (l : List HostBytes) : Bool := l.all HostBytes.wf

def StartInputs.wf (s : StartInputs) : Bool :=
  decide (s.dies.length = 16) && s.media.wf

/-- Sixteen controller-die sensors and 128 dies (17 R638). -/
def tempsWf (l : List (Option Int)) : Bool := decide (l.length = 144)

def controllerTempsWf (l : List (Option Int)) : Bool := decide (l.length = 16)

/-- The sixteen medians of a waymark sense (02 R48). -/
def mediansWf (l : List (BitVec 8)) : Bool := decide (l.length = 16)

/-- A register access is 4 B or 8 B and naturally aligned (21 R732). -/
def accessWf (offset : BitVec 20) (wide : Bool) : Bool :=
  if wide then decide (offset.toNat % 8 = 0) else decide (offset.toNat % 4 = 0)

/-- Whether a command's operands can occur. -/
def Instr.wf : Instr → Bool
  | .memrd _ _ _ hpa => decide (hpa.toNat % 64 = 0)
  | .memwr _ _ _ hpa _ _ => decide (hpa.toNat % 64 = 0)
  | .getLsa _ _ o n => decide (o + n ≤ 131072)
  | .setLsa _ _ o bs => decide (o + bs.length ≤ 131072)
  | .headLinkUp _ _ w => w == 1 || w == 2 || w == 3
  | .fwDownload _ _ _ h | .keyLoad _ _ _ h | .cabinetAuth _ _ _ h => hostWf h
  | .objPut _ _ _ h a | .ecEncode _ _ _ h a | .ecReconstruct _ _ _ h a | .verify _ _ _ h a
  | .checksum _ _ _ h a => hostWf h && a.wf
  | .dmaDescriptor _ _ h _ a => hostWf h && a.wf
  | .secureDiscard _ _ _ a | .objGet _ _ _ a | .objDelete _ _ _ a
  | .objSecureDelete _ _ _ a | .objStat _ _ _ a | .stagedIssue _ _ a | .mergeRefuse _ _ a | .gapMove _ _ a
  | .preclear _ _ a | .checkpointTimer _ a | .restoreZone _ _ a | .collect _ _ a
  | .rekeyStripe _ _ a | .testUnlock _ _ a | .railFail _ _ a | .pwrFltIn _ a
  | .vinGoodLoss _ a | .thermtripComparator _ _ a | .shutdown _ _ _ a => a.wf
  | .waymarkSenseDone _ _ _ m => mediansWf m
  | .move _ _ w a => decide (w.medians.length = 16) && w.medians.all mediansWf && a.wf
  | .programVerifyDone _ _ l _ => l.all cellsWf
  | .pgStable _ s | .warm _ _ s => s.wf
  | .thermalSample _ l a => tempsWf l && a.wf
  | .aonSample _ l | .thermtripRelease _ l => controllerTempsWf l
  | .registerWrite _ _ o w _ => accessWf o w
  | _ => true

end Sys2Proof
end

