-- ==== Sys2Proof/Decode.lean ====
section
/-!
DEFINITION. The commands that a word spells. spec/opcode_table.json gives no row any bits, so no word
spells a command: the commands come over links and pins, not as instruction words.
-/

namespace Sys2Proof

/-- The command that a word of nbits bits spells: none, for no row of the table has bits. -/
def decodeTableWord (_nbits _w : Nat) : Option Instr := none

end Sys2Proof
end

