-- ==== Sys2Proof/Config.lean ====
section
/-!
DEFINITION. What one AU-960 fixes (fuses, serial number, factory secrets) and the free values: points
the manual leaves open. A free value is an opaque constant: nothing can be proved of it.
-/

namespace Sys2Proof.Config

/-! ### Fused and factory values (no value in the manual) -/

/-- Silicon stepping (11 R408, 21 R735): fused. -/
opaque stepping : BitVec 8

/-- Serial number, 16 ASCII bytes (11 R408). -/
opaque serial : BitVec 128

/-- Device root key that wraps the KWK, held in fuses (15, Loading and wrapping). -/
opaque rootKey : BitVec 256

/-- Fused SHA-256 of the firmware signing keys 0-3 (15 R581). -/
opaque fusedKeyHash : Fin 4 → BitVec 256

/-- Fused revoke bits of the firmware signing keys (15 R581). -/
opaque fusedRevoke : BitVec 4

/-- SALT of the factory vendor PASSWORD record (18 R670). -/
opaque vendorSalt : BitVec 128

/-- Verifier of the factory vendor PASSWORD record (18 R670). -/
opaque vendorVerifier : BitVec 256

/-- FW_VERSION and SVN of the image the factory leaves in slot 0 (18 R664, "If absent": slot 0). -/
opaque factoryFwVersion : BitVec 64

/-- SVN of the factory image (18 R664: MIN_SVN is taken from the running cluster-0 image). -/
opaque factorySvn : BitVec 32

/-- What an SRAM macro holds (19 R688, R692): the manual gives no map of the macro numbers. -/
inductive MacroUse where
  | cacheWay (w : Fin 16)
  | cluster (c : Fin 4)
  | other
  deriving DecidableEq, Repr, Inhabited

opaque macroUse : BitVec 16 → MacroUse

/-- Row and column repairs of a macro that the fuses hold (19 R691). -/
opaque fusedRows : BitVec 16 → Fin 5
opaque fusedColumns : BitVec 16 → Fin 3

/-- Group of an SRAM macro: the bit of the group 0 signature that stands for it (19 R688). -/
opaque macroGroup : BitVec 16 → Fin 256

/-! ### Free values -/

/-- The 32 B signatures of the BIST groups (19 R688): a group's golden one at 0, that of a run with failing
units at the instant of the run plus 1. -/
opaque bistSignature : Nat → Nat → BitVec 256


/-- The SALT that the n-th CHANGE draws (18 R672: fresh random). -/
opaque freeSalt : Nat → BitVec 128

/-- Whether the n-th request offered to the tracer at RATE r is drawn, with probability 2^-r
(14 R535). -/
opaque traceDraw : Nat → Nat → Bool

/-- Nanoseconds that the n-th dump takes to be written: at most tDUMP, 50 us (14 R531). -/
opaque dumpTime : Nat → Fin 50001

/-- A byte of host memory that a command's operand does not supply (10 R356: host memory lies outside
the device). -/
opaque hostByte : Nat → Byte

/-- Extra drift measured for tile t at level i when no medians are supplied (02 R48: analogue). -/
opaque waymarkMedian : Nat → Nat → BitVec 8

/-- Bits of a line whose program the power loss cut short, by physical line address and instant
(04 R164: undefined). -/
opaque tornImage : Nat → Nat → Image

/-- The cells and the line MAC that the device builds for a line whose key is not loaded, by key ID, region
and line index (15 R563 and 04 R172: the manual lets start-up rewrite a torn line as zeros, and does not say
under what key material). -/
opaque noKeyCells : Nat → Nat → Nat → LineData
opaque noKeyMac : Nat → Nat → Nat → BitVec 56

/-- The attribute word, zones and extents that REGION_QUERY reports of a SYSTEM region, by its ID; the manual states its ID
and TYPE alone (09 R342, 11 R410, log entry 82). -/
opaque systemAttr : Nat → BitVec 64
opaque systemZones : Nat → BitVec 32
opaque systemExtents : Nat → BitVec 16

end Sys2Proof.Config
end

