-- ==== Sys2Proof/Machine/State.lean ====
section
/-!
DEFINITION. The state of the AU-960, block by block, as plain data, and its value right after reset.
State = the queue of waiting commands, the clocks, and the device (Dev). Reset is VAUX power-on of a
device that has never been formatted, supplies off (19 R677, 21 R730); every value the manual does
not give is named in notes/assumptions.
-/

namespace Sys2Proof.Machine

/-- A table over natural keys: strictly rising keys, no entry equal to the table's default
(Sparse.wf in Ops). -/
abbrev Sparse (α : Type) := List (Nat × α)

/-- Why the machine stops. No command of the manual stops the block, so no constructor is raised. -/
inductive Fault where
  /-- Raised by nothing: the manual describes no stop of the block. Safe. -/
  | none
  deriving DecidableEq, Repr

/-- Why a command has no meaning. -/
inductive Refusal where
  /-- Raised by the dispatch for a row not modelled yet. Safe. -/
  | notModelled (mnemonic : String)
  deriving DecidableEq, Repr

/-! ### Names of lines -/

/-- Tables that the device keeps in SYSTEM regions or metadata zones (04 R749). -/
inductive SysTable where
  | wear | region | seq | heapZone | intent | lineIntent | outage | poison | badTile | saved | label
  | journal
  deriving DecidableEq, Repr

/-- A line as the Bench and the cache name it: a line index within a region, or a line of a SYSTEM
table (04 R130, R749). -/
inductive LineKey where
  | user (region line : Nat)
  | sys (table : SysTable) (index : Nat)
  deriving DecidableEq, Repr

/-! ### Regions (09) -/

inductive RegionType where
  | direct | index | heap | system
  deriving DecidableEq, Repr

inductive Prot where
  | parity | mirror | none
  deriving DecidableEq, Repr

inductive Profile where
  | strong | light
  deriving DecidableEq, Repr

/-- Owning head of a region (11 R409). -/
inductive Owner where
  | a | b | both
  deriving DecidableEq, Repr

/-- A range rekey in progress (15 R571-R573); resumed: the crossing range is [persist, limit) (R569). -/
structure Rekey where
  oldKey   : Nat
  newKey   : Nat
  persist  : Nat
  limit    : Nat
  boundary : Nat
  resumed  : Bool
  deriving DecidableEq, Repr

/-- A region's descriptor (09 R341, R343; 15 R571). Sizes in zones and bytes. -/
structure Region where
  typ       : RegionType
  prot      : Prot
  profile   : Profile
  mac       : Bool
  keyId     : Nat
  lockOnMac : Bool
  owner     : Owner
  rclass    : Nat
  xovr      : Bool
  locked    : Bool
  extents   : List (Nat × Nat)
  dpaBase   : Nat
  dpaSize   : Nat
  rekey     : Option Rekey
  deriving DecidableEq, Repr

/-! ### SYSTEM tables, journal, heap zones (04, 06, 07, 12, 21) -/

/-- State of a heap zone (12 R425). -/
inductive HState where
  | empty | open | target | full | collecting
  deriving DecidableEq, Repr

/-- A heap zone record (12 R425). -/
structure HeapZone where
  hstate     : HState
  noScan     : Bool
  validUnits : Nat
  append     : Nat
  filter     : BitVec 3840
  deriving DecidableEq, Repr

/-- A journal record's TYPE (06 R225). -/
inductive JType where
  | bind | unbind | gap | moveStart | switch | moveAbort | pclrDone | retire | stamp | link
  deriving DecidableEq, Repr

/-- A journal record (06 R225); CRC is a function of the rest. -/
structure JRec where
  jseq   : BitVec 32
  typ    : JType
  reason : BitVec 8
  zone   : BitVec 21
  arg    : BitVec 21
  image  : BitVec 64
  deriving DecidableEq, Repr

/-- A record of the poisoned-line list (04 R173). -/
structure PoisonRec where
  region : Nat
  line   : Nat
  cause  : Nat
  mask   : BitVec 4
  deriving DecidableEq, Repr

/-- A line in the pinned-line save area (04 R751). -/
structure SavedLine where
  region : Nat
  line   : Nat
  data   : LineData
  valid  : BitVec 4
  poison : BitVec 4
  deriving DecidableEq, Repr

/-- The tables the device keeps in SYSTEM regions and metadata zones. Dev holds them twice: live
(as the device uses them) and nv (as programmed on the medium). -/
structure SysData where
  /-- Wear-table records by physical zone (06 R220). -/
  wear       : Sparse (BitVec 64)
  /-- Region table by region ID (09 R343). -/
  regions    : Sparse (Option Region)
  /-- Sequence table by logical zone: CEILING [39:0], EPOCH [63:40] (21 R737). -/
  seq        : Sparse (BitVec 64)
  /-- Heap zone records by region * 2^21 + zone index (12 R425). -/
  heap       : Sparse HeapZone
  /-- Write-intent map by physical zone: bit 0 INTENT, bit 1 FULL (04 R155). -/
  intent     : Sparse (BitVec 2)
  /-- Line-intent log (04 R158): region and line index. -/
  lineIntent : List (Nat × Nat)
  /-- Outage map: physical zones marked (07 R283). -/
  outage     : List Nat
  /-- Poisoned-line list (04 R173). -/
  poison     : List PoisonRec
  /-- Bad-tile list (07 R745): physical zone and the lane and die scope position that found it. -/
  badTiles   : List Nat
  /-- Pinned-line save area (04 R751). -/
  saved      : List SavedLine
  /-- Label storage of heads A and B (09 R330). -/
  labelA     : List Host.Cell
  labelB     : List Host.Cell
  deriving DecidableEq, Repr

/-- One change of a SYSTEM table, as an absolute value; it rides in a Bench entry until programmed. -/
inductive SysRec where
  | wear (pz : Nat) (rec : BitVec 64)
  | region (id : Nat) (r : Option Region)
  | seq (lz : Nat) (rec : BitVec 64)
  /-- One 256 B half of a heap zone record; upper: bytes 256 to 511 (12 R425). -/
  | heap (key : Nat) (upper : Bool) (h : HeapZone)
  | intent (pz : Nat) (bits : BitVec 2)
  | lineIntent (region line : Nat) (present : Bool)
  | outage (pz : Nat) (marked : Bool)
  | poison (region line : Nat) (recs : List PoisonRec)
  | badTile (pz : Nat) (present : Bool)
  | saved (region line : Nat) (l : Option SavedLine)
  | label (b : Bool) (offset : Nat) (bytes : List Byte)
  /-- A journal record at its place, counted through the metadata zones (06 R225). -/
  | journal (place : Nat) (r : JRec)
  deriving DecidableEq, Repr

/-- A metadata zone of the journal chain (06 R224, R746, R747): its stamp, the JSEQ of its first record, the record places
used, and the WSEQ of its next line program. -/
structure JZone where
  pzone  : Nat
  mstamp : Nat
  first  : BitVec 32
  used   : Nat
  wseq   : Nat
  deriving DecidableEq, Repr

/-- A checkpoint: what its pointer record names (06 R228). -/
structure Ckpt where
  zone0     : Nat
  zone1     : Nat
  mstamp0   : Nat
  mstamp1   : Nat
  jzone     : Nat
  joffset   : Nat
  jmstamp   : Nat
  jseqStart : BitVec 32
  deriving DecidableEq, Repr

/-- Reason of a move (06 R237), in service order. -/
inductive MoveReason where
  | retire | early | refreshOverdue | refresh | profile | wearHot | wearCold
  deriving DecidableEq, Repr

/-- A queued move (06 R237); fresh: it also re-sequences the zone (21 R738). -/
structure MoveReq where
  lzone  : Nat
  reason : MoveReason
  reseq  : Bool
  deriving DecidableEq, Repr

/-- A move in progress (06 R239, R240): source and target, the target's ZSTAMP and profile, the first stripe not copied
yet, the stripes marked for copying again, the copies made, whether the last copy pass holds the zone's entries at
issue, and whether SWITCH is durable and only the source is left to release. -/
structure MoveRun where
  lzone    : Nat
  reason   : MoveReason
  reseq    : Bool
  source   : Nat
  target   : Nat
  stamp    : Nat
  profile  : Profile
  next     : Nat
  marks    : List Nat
  copies   : Nat
  last     : Bool
  switched : Bool
  deriving DecidableEq, Repr

/-- The Zone Table block: bindings, Roundabout, journal, moves, the bind reserve (06). -/
structure ZtBlock where
  /-- ZT entries by logical zone (06 R215). -/
  entries    : Sparse (BitVec 64)
  /-- Flipped codeword bits of a ZT entry, from a flip mask (06 R216, 08 R324). -/
  flips      : Sparse (List Nat)
  /-- Logical zones marked LOST (08 R306). -/
  lost       : List Nat
  /-- Update counter of each logical zone (06 R233). -/
  updates    : Sparse Nat
  /-- Next WSEQ of each logical zone (21 R737). -/
  wseq       : Sparse Nat
  /-- The journal chain, newest zone first, and the JSEQ of the next record (06 R224, R225). -/
  jzones     : List JZone
  jseqNext   : BitVec 32
  /-- Journal records that the last start read, oldest first (06 R230). -/
  readBack   : List JRec
  /-- Checkpoints kept, newest first, and their pointer instants (06 R228, R229). -/
  ckpts      : List Ckpt
  lastCkptAt : Nat
  recsSince  : Nat
  /-- Queued moves, oldest first within a reason (06 R237); one that runs stays in the queue until its SWITCH. -/
  moves      : List MoveReq
  /-- Moves in progress (06 R239). -/
  runs       : List MoveRun
  /-- RETIRED zones on which step 3 of R242 is to run again (06 R245). -/
  resetDue   : List Nat
  /-- EARLY triggers dropped: instant of the last EARLY_DROP event (06 R256). -/
  earlyDropAt : Option Nat
  /-- Bind reserve (06 R261), and logical zones whose Bench entries wait for a bind. -/
  reserve    : List Nat
  binds      : List Nat
  /-- Overdue logical zones (06 R254). -/
  overdue    : List Nat
  /-- Integrals in steps of 16 eq-h by position, before a charge whose zone step has not run (02 R82). -/
  chargeFrom : Option (List Nat)
  /-- The clamp of ZSTAMPs is due (02 R68). -/
  clampDue   : Bool
  /-- Logical zones at 32,768 eq-h or more at the last clamp (02 R68, R71). -/
  clamped    : List Nat
  /-- Die positions whose FREE zones are still to be journalled RETIRE (07 R294). -/
  deadDue    : List Nat
  /-- Refresh-deadline checks are deferred (02 R79). -/
  deferred   : Bool
  /-- Last update instant of each marked zone (04 R156), by physical zone. -/
  lastUpdate : Sparse Nat
  deriving DecidableEq, Repr

/-! ### The medium (02) -/

/-- The dies' cells and what is stored beside them. -/
structure Medium where
  /-- Line images by physical line address; unlisted: every cell at L15 (log entry 5). -/
  lines    : Sparse Image
  /-- Remap list of each tile (02 R38): original offset and spare offset, by address bits [37:13]. -/
  remaps   : Sparse (List (Nat × Nat))
  /-- Tiles whose waymark block is programmed (02 R46, R47), by address bits [37:13]. -/
  waymarks : Sparse Bool
  /-- Lines whose program failed where their tile has no spare line left: never sensed again until the zone is
  pre-cleared (02 R41), by physical line address. -/
  failed   : List Nat
  /-- Lines of cells that the last reset steps left below code 179 (06 R264), by physical line address. -/
  residue  : List Nat
  deriving DecidableEq, Repr

/-! ### Cache, side buffer, scratch, maintenance (05) -/

/-- One way's tag and data (05 R177, R178); flips: flipped codeword bits (byte, position). -/
structure Way where
  region  : Nat
  line    : Nat
  valid   : BitVec 4
  dirty   : BitVec 4
  poison  : BitVec 4
  /-- POISON_CAUSE of each sector (03 R124, 14 R521). -/
  cause   : List Nat
  data    : LineData
  /-- Instant at which the line first held a dirty sector (05 R184 AGE). -/
  dirtyAt : Nat
  /-- Selected for write-back (05 R184, R750), with the order of selection. -/
  selected : Option Nat
  flips   : List (Nat × Nat)
  /-- Flipped tag bits, and whether the shadow copy holds a double-bit error (08 R325). -/
  tagFlips : List Nat
  shadowBad : Bool
  deriving DecidableEq, Repr

/-- State of a side-buffer entry (05 R192). -/
inductive SideState where
  | verge | confirmed
  deriving DecidableEq, Repr

/-- A side-buffer entry, oldest first in the buffer (05 R190-R194). -/
structure SideEntry where
  region : Nat
  line   : Nat
  state  : SideState
  data   : LineData
  /-- The read that fetched it. -/
  read   : Nat
  deriving DecidableEq, Repr

/-- A stream detector of a head (05 R190). -/
structure Detector where
  region  : Nat
  last    : Nat
  hits    : Nat
  /-- Next line to prefetch, when trained. -/
  next    : Nat
  deriving DecidableEq, Repr

/-- A maintenance operation (05 R202). -/
structure MaintOp where
  /-- 1 CLEAN, 2 INVALIDATE, 3 FLUSH. -/
  op     : Nat
  region : Nat
  first  : Nat
  count  : Nat
  deriving DecidableEq, Repr

/-- A scratch conversion in progress (05 R197, R198). -/
structure Conversion where
  target : Nat
  deriving DecidableEq, Repr

/-- Work of the maintenance engine (05 R206): the register operation, the conversion, the FLUSH of a key slot that
closes, to retire it or for ZEROISE (15 R578), the FLUSH of a way's lines in a block under test (19 R695). -/
inductive MaintWork where
  | register
  | conversion
  | keyFlush (k : Nat) (retire : Bool)
  | wayFlush (way block : Nat)
  deriving DecidableEq, Repr

/-- A CACHE_WAYS test in progress: its command, the ways and blocks of 1,024 sets still to do, the first under test, and
the result so far (19 R695). -/
structure WayTest where
  qid  : Nat
  cid  : Nat
  todo : List (Nat × Nat)
  res  : Nat
  deriving DecidableEq, Repr

/-- The cache block. -/
structure CacheBlock where
  /-- Ways by set * 16 + way; unlisted: invalid. -/
  ways      : Sparse (Option Way)
  /-- LRU tree of each set, node n in bit n - 1 (05 R181). -/
  lru       : Sparse (BitVec 15)
  /-- Ways retired by self-test (05 R179). -/
  retired   : BitVec 16
  /-- Ways excluded until the next start (05 R189), by set * 16 + way. -/
  excluded  : List Nat
  /-- Last uncorrectable or tag error of a way (05 R189), and last correction event (R187). -/
  lastError : Sparse Nat
  lastCorr  : Sparse Nat
  side      : List SideEntry
  detectA   : Vector (Option Detector) 16
  detectB   : Vector (Option Detector) 16
  /-- Next selection order (05 R750). -/
  selNext   : Nat
  maint     : Option MaintOp
  refused   : Bool
  abandoned : Bool
  steps     : BitVec 2
  conv      : Option Conversion
  /-- The engine's work, the one in progress first (05 R206). -/
  work      : List MaintWork
  testing   : Option WayTest
  skipped   : Nat
  /-- Scratch bytes (05 R196) and poisoned scratch sectors. -/
  scratch   : List Host.Cell
  scratchPoison : List Nat
  /-- Bit errors that scratch bytes carry: byte offset and bit (05 R187, Scratch). -/
  scratchFlips : List (Nat × Nat)
  -- registers
  highWm    : BitVec 8
  pfDepth   : BitVec 8
  gather    : Bool
  ageLimit  : BitVec 8
  cfgSteps  : BitVec 2
  mRegion   : BitVec 10
  mFirst    : BitVec 37
  mCount    : BitVec 37
  mOp       : BitVec 2
  deriving DecidableEq, Repr

/-! ### The Bench and the media engine (04) -/

/-- State of a staging entry (04 R130); pinned under R41 or R175. -/
inductive EntryState where
  | staged | issued | pinned
  deriving DecidableEq, Repr

/-- What a staging entry holds (04 R129). -/
inductive EntryKind where
  | victim | delta | recovered
  | system (recs : List SysRec)
  deriving DecidableEq, Repr

/-- A staging entry (04 R130). -/
structure Entry where
  id     : Nat
  key    : LineKey
  kind   : EntryKind
  state  : EntryState
  data   : LineData
  valid  : BitVec 4
  poison : BitVec 4
  /-- Cause of each poisoned sector (03 R124). -/
  cause  : List Nat
  image  : Option Image
  /-- Key ID in force at issue (15 R561). -/
  keyId  : Nat
  /-- Flipped payload codeword bits (08 R324). -/
  flips  : List (Nat × Nat)
  /-- Payload, image and place of the entry of the same line that this one superseded and whose program has verified
  (R144). -/
  old    : Option (LineData × Image × Pla)
  deriving DecidableEq, Repr

/-- A program's place in its update. -/
inductive ProgRole where
  | data | parity | copy | merge | system
  deriving DecidableEq, Repr

/-- A line program to make: its address and the image to program. For a merge, image is the difference Δ, and
noise what the die's pass-1 sense of the parity line adds. -/
structure ProgSpec where
  pla   : Pla
  role  : ProgRole
  image : Image
  noise : Image
  deriving DecidableEq, Repr

/-- A line program in flight (04 R146-R150). -/
structure Prog where
  id      : Nat
  update  : Nat
  spec    : ProgSpec
  attempt : Nat
  /-- Already remapped once in this program (02 R39). -/
  remapped : Bool
  /-- Instant of its start, of its repeat, or of its last repeated verify sense (04 R148, 07 R744). -/
  startAt : Nat
  /-- Cumulative suspension in ns, the instant the present one began, and whether reported. -/
  susp    : Nat
  suspAt  : Option Nat
  longDone : Bool
  deriving DecidableEq, Repr

/-- An update of a stripe in flight (04 R151-R153). -/
structure Update where
  id      : Nat
  lzone   : Nat
  lstripe : Nat
  full    : Bool
  entries : List Nat
  /-- Programs of the present stage that wait for a token or a tile. -/
  wait    : List ProgSpec
  /-- Stages that start once the programs before them have verified. -/
  next    : List (List ProgSpec)
  /-- A BLANK stripe written line by line (06 R219): entries that are built once the zeros have verified, each as its
  program starts, and the images of the lines built so far. -/
  late    : List Nat
  zeros   : List Image
  deriving DecidableEq, Repr

/-- A write whose completion waits for its verify (04 R166). -/
structure HeldWrite where
  head    : Head
  tag     : Nat
  region  : Nat
  line    : Nat
  since   : Nat
  /-- The entry that holds its data has issued. -/
  issued  : Bool
  deriving DecidableEq, Repr

/-- Whose store it is: that of a command, by its order of fetch, or one of the device's own into a ring or slot. -/
inductive StoreFor where
  | cmd (order : Nat)
  | ring
  deriving DecidableEq, Repr

/-- What an agent inside the device has still to do because a line write waits for a Bench line and a staging entry
(04 R133): bytes of one line of a region, units of one heap line, a completion entry, a command's end. -/
inductive Later where
  | store (who : StoreFor) (h : Head) (region off : Nat) (bytes : List Byte)
  | units (order region unit : Nat) (data : List Sector)
  | post (qid cid status result : Nat) (sqIdx : Option Nat) (urgent : Bool)
  | ends (order status result : Nat)
  deriving DecidableEq, Repr

/-- The Bench: staging store, programs, EXPOSED (04). -/
structure BenchBlock where
  entries   : List Entry
  nextId    : Nat
  updates   : List Update
  progs     : List Prog
  /-- Reservations made by commands and channels (04 R133). -/
  reserved  : Nat
  cap       : Nat
  /-- BENCH_CAP has been set since start: ENERGY_LIMIT given or EXPOSED entered (04 R176). -/
  capGiven  : Bool
  exposed   : Bool
  draining  : Bool
  held      : List HeldWrite
  /-- Line writes of agents inside the device that wait, and what follows them, oldest first (04 R133). -/
  later     : List Later
  /-- Recovered lines that wait for a staging entry to return to their lanes through, oldest first (03 R105; log entry
  170). -/
  backs     : List Entry
  /-- Last REFUSED_WRITE, LOCKED_WRITE and DEAD_STORE events, by region and head (04 R167, 09 R340). -/
  refusedAt : Sparse Nat
  lockedAt  : Sparse Nat
  deadAt    : Sparse Nat
  deriving DecidableEq, Repr

/-! ### Lanes and reads (03, 07) -/

/-- State of a lane or die scope (07 R300). -/
inductive ScopeState where
  | inService | detour | testing | restoring | dead | absent
  deriving DecidableEq, Repr

/-- What a sense is for. -/
inductive SenseKind where
  | pass (n : Nat)
  | waymark
  | sibling (n : Nat)
  deriving DecidableEq, Repr

/-- Progress of a sense. -/
inductive SenseState where
  | queued
  | started (since : Nat)
  | sensed (data : Image) (since : Nat)
  deriving DecidableEq, Repr

/-- A line sense held by a lane sequencer (03 R87-R92). -/
structure Sense where
  id       : Nat
  read     : Nat
  kind     : SenseKind
  recovery : Bool
  pla      : Pla
  state    : SenseState
  repeated : Bool
  verge    : Bool
  /-- It has waited for the recovery allowance, and was counted (03 R91). -/
  waited   : Bool
  /-- References of passes 2 to 5, computed when the medians arrive (03 R100); DSTAMP that a waymark
  sense's ages take (02 R71). -/
  refs     : List Nat
  dstamp   : Nat
  deriving DecidableEq, Repr

/-- One lane: state (07 R300), queue and recent history (03 R91, 07 R279). -/
structure Lane where
  lstate     : ScopeState
  cause      : Nat
  dies       : Vector ScopeState 8
  cursor     : Nat
  /-- First stripe of the zone at CURSOR that restore has not handled yet (07 R289, R292). -/
  stripe     : Nat
  testResult : Nat
  queue      : List Sense
  /-- Start instants of recent RECOVERY senses with their die (03 R91). -/
  recStarts  : List (Nat × Nat)
  /-- The allowance was reached in the present aligned interval; run of such intervals; RECOVERY
  senses started per die during the run (07 R279). -/
  allowHit   : Bool
  allowRun   : Nat
  runByDie   : List Nat
  /-- Recent timeouts and rejected transfers: instant and die (07 R279). -/
  timeouts   : List (Nat × Nat)
  rejects    : List (Nat × Nat)
  /-- End of the last transfer on the lane link (07 R278). -/
  linkAt     : Nat
  /-- Dies recorded present and a link that trained at the last start (01 R15). -/
  present    : BitVec 8
  trained    : Bool
  /-- Instant of the last strobe tracking (20 R715). -/
  strobeAt   : Nat
  deriving DecidableEq, Repr

/-- Who waits for a line read (03). -/
inductive Waiter where
  | host (h : Head) (tag sector arrived : Nat)
  | prefetch (h : Head)
  | stream (s slot : Nat)
  deriving DecidableEq, Repr

/-- A read of one line in progress (03 R98-R104). -/
structure ReadTx where
  id       : Nat
  region   : Nat
  line     : Nat
  lzone    : Nat
  lstripe  : Nat
  pla      : Pla
  waiters  : List Waiter
  /-- Served in Detour: its own lane is out (07 R280). -/
  detour   : Bool
  /-- Passes whose decode has failed; last pass made. -/
  lastPass : Nat
  burst    : Bool
  /-- Reconstruction: confirmed sibling images by lane; failed. -/
  recon    : Bool
  siblings : List (Nat × Image)
  blanks   : List Nat
  reconBad : Bool
  /-- Pass 1 read BLANK (02 R62). -/
  blank    : Bool
  passesBad : Bool
  deriving DecidableEq, Repr

/-- The lanes and the reads in progress. -/
structure LaneBlock where
  lanes    : Vector Lane 16
  reads    : List ReadTx
  nextRead : Nat
  nextSense : Nat
  /-- Die positions in use (01 R15). -/
  posMask  : BitVec 8
  /-- Lane and die of each sense and verify sense that a step's own work has found no answer to, until the step's end counts
  them as timeouts (07 R278, R744). -/
  missed   : List (Nat × Nat)
  -- LANE_CTRL and LANE_CFG
  ctrlLane : BitVec 4
  ctrlDie  : BitVec 3
  ctrlScope : Bool
  ctrlOp   : BitVec 2
  lastStatus : BitVec 12
  mergeGuard : BitVec 3
  autoRepair : Bool
  restoreDepth : BitVec 4
  /-- Drift tables ν[d][0..15] in units of 2^-16 (02 R74), by die. -/
  nu       : Sparse (List Nat)
  deriving DecidableEq, Repr

/-! ### Heads, mailbox (09) -/

/-- A CXL memory event record (09 R347, R348). -/
structure CxlRec where
  log     : CxlLog
  handle  : Nat
  /-- DPA, HOST_ERR_CAUSE, POISON_CAUSE, region, line: General Media Event; kind 1: Memory Module. -/
  isModule : Bool
  dpa     : Nat
  hostErr : Nat
  poison  : Nat
  region  : Nat
  line    : Nat
  /-- Channel and Rank: lane and die position of the line. -/
  lane    : Nat
  rank    : Nat
  /-- A threshold event (09 R347). -/
  threshold : Bool
  stamp   : Nat
  deriving DecidableEq, Repr

/-- Memory Event Type of a General Media Event (09 R348). -/
inductive MemEvent where
  | ecc | invalidAddress | dataPath
  deriving DecidableEq, Repr

/-- Memory Event Type of a record, from its HOST_ERR_CAUSE; none: a record of no error. -/
def CxlRec.memEvent (r : CxlRec) : Option MemEvent :=
  match r.hostErr with
  | 1 => some .ecc
  | 6 => some .invalidAddress
  | 2 | 3 | 4 | 5 => some .dataPath
  | _ => none

/-- Uncorrectable flag of a record. -/
def CxlRec.uncorrectable (r : CxlRec) : Bool := [1, 2, 4, 6].contains r.hostErr

/-- An HDM decoder of a head (09 R335, R336), programmed as CXL 3.1 specifies: base and size in HPA, DPA skip, the codes of
interleave granularity and ways, lock on commit, committed, error not committed, and the DPA at which it starts. -/
structure Hdm where
  base : Nat
  size : Nat
  skip : Nat
  ig   : Nat
  iw   : Nat
  lock : Bool
  on   : Bool
  err  : Bool
  dpa  : Nat
  deriving DecidableEq, Repr

/-- Interleave ways: 1, 2, 4, 8 or 16. -/
def Hdm.ways (x : Hdm) : Nat := 2 ^ x.iw

/-- Interleave granularity: 256 B to 16 KiB. -/
def Hdm.gran (x : Hdm) : Nat := 256 * 2 ^ x.ig

/-- One head. -/
structure HeadSt where
  inReset   : Bool
  resetAt   : Nat
  linkUp    : Bool
  linkDownAt : Nat
  width     : BitVec 4
  /-- Instant PERST# was deasserted, and configuration space answering (09 R331). -/
  perstOffAt : Nat
  cfgReady  : Bool
  memActive : Bool
  /-- Memory_Info_Valid, and Memory_Active_Timeout as the head reports it (19 R681). -/
  memInfo   : Bool
  memTimeout : BitVec 3
  /-- Held in reset by self-test (19 R692). -/
  retired   : Bool
  gpf1      : Bool
  credits   : Nat
  /-- Reads awaiting an answer, by tag, with arrival instant. -/
  readsOut  : Nat
  /-- The eight HDM decoders, and their global enable (09 R335). -/
  hdm       : List Hdm
  hdmEn     : Bool
  /-- tGPF_P2 as the GPF DVSEC reports it, in ns (09 R345). -/
  gpfP2     : Nat
  lost      : Nat
  refused   : Nat
  logs      : List CxlRec
  logNext   : Nat
  /-- Overflow counts of the four logs (09 R347). -/
  overflow  : List Nat
  policy    : BitVec 32
  alerts    : BitVec 64
  capacity  : Nat
  /-- BAR offsets kept for BAR_UNMAPPED (14 R516), as BAR * 2^32 + offset. -/
  barSeen   : List Nat
  deriving DecidableEq, Repr

/-! ### Command queues (11) -/

/-- QSTATE (11 R421). -/
inductive QState where
  | absent | active | error | deleting
  deriving DecidableEq, Repr

/-- A submission entry being fetched: its index, the instant, the log sequence and TOGGLE at the request
(11 R391, R411), and its trace tag if drawn (14 R535). -/
structure Fetch where
  index  : Nat
  start  : Nat
  seq    : BitVec 32
  toggle : Bool
  tag    : Option Nat
  deriving DecidableEq, Repr

/-- A queue pair (11 R386-R396, R414-R421). -/
structure QPair where
  state    : QState
  errCause : Nat
  sqBase   : BitVec 64
  cqBase   : BitVec 64
  sqDepth  : Nat
  cqDepth  : Nat
  vector   : Nat
  ien      : Bool
  icount   : Nat
  itime    : Nat
  sqTail   : Nat
  sqHead   : Nat
  cqTail   : Nat
  cqHead   : Nat
  phase    : Bool
  /-- Slots reserved by fetched and uncompleted commands (11 R390). -/
  slots    : Nat
  /-- Fetches under way, oldest first. -/
  fetching : List Fetch
  /-- Entries posted since the last message, and the oldest one's instant (11 R414). -/
  posted   : Nat
  oldestAt : Nat
  /-- The command that deletes the pair: issuing queue and CID (11 R416). -/
  deleter  : Option (Nat × Nat)
  deriving DecidableEq, Repr

/-- A command that has been fetched and not completed (11 R403-R406). -/
structure Exec where
  qid     : Nat
  cid     : Nat
  opcode  : Nat
  ordered : Bool
  params  : List Word
  /-- Started: an ORDERED command waits until earlier ones are visible (11 R405). -/
  started : Bool
  /-- SQ index and order of fetch. -/
  order   : Nat
  fetchAt : Nat
  /-- Its queue pair was deleted: the completion is discarded (09 R333). -/
  orphan  : Bool
  /-- Trace tag, if drawn (14 R535). -/
  tag     : Option Nat
  /-- The log sequence and TOGGLE at its fetch (11 R411). parked: a WATCH is parked; the first part of
  another command is done and the rest waits (a SECURE_DISCARD for its zero writes). -/
  seqAt    : BitVec 32
  toggleAt : Bool
  parked   : Bool
  /-- Its buffers were found usable when it started, and it waits (11 R399). -/
  checked  : Bool
  /-- The cluster that runs it (08 R308, 11 R406). -/
  cluster  : Nat
  deriving DecidableEq, Repr

/-- ADMQ registers of a head (11 R417-R419). -/
structure AdmQ where
  sqBase : BitVec 64
  cqBase : BitVec 64
  cfg    : BitVec 32
  en     : Bool
  rdy    : Bool
  enAt   : Nat
  deriving DecidableEq, Repr

/-- The command interface. -/
structure QueueBlock where
  pairs   : Vector QPair 128
  exec    : List Exec
  order   : Nat
  admA    : AdmQ
  admB    : AdmQ
  /-- Round-robin position of each head (11 R391). -/
  rrA     : Nat
  rrB     : Nat
  /-- SET_TIME value held until memory ready (11 R413). -/
  heldTime : Option Word
  deriving DecidableEq, Repr

/-! ### Streams and DMA (13) -/

/-- A flag on one 256 B stream slot (13 R483). -/
inductive SlotFlag where
  | unconfirmed | denied
  deriving DecidableEq, Repr

/-- A stream FIFO (13 R478-R486). Positions count every byte since reset; a pointer is its position modulo
32,768. -/
structure Stream where
  en      : Bool
  mode    : Bool
  write   : Nat
  read    : Nat
  mark    : Nat
  free    : Nat
  /-- End of the bytes handed over to the reader (13 R480). -/
  handed  : Nat
  pending : Bool
  err     : Bool
  bytes   : List Host.Cell
  /-- Poisoned 64 B sectors, by byte offset / 64. -/
  poison  : List Nat
  /-- Unconfirmed or denied 256 B slots, by byte offset / 256, with their read. -/
  slots   : List (Nat × SlotFlag × Nat)
  /-- Packet boundaries at or after FREE, the last one passed among them (13 R480, R485). -/
  ends    : List Nat
  writer  : Option Nat
  reader  : Option Nat
  /-- A flush discards what the writer still writes of its packet (13 R485). -/
  dropping : Bool
  deriving DecidableEq, Repr

/-- A descriptor in progress: its bytes, the bytes moved or compared, the first difference, and whether its
source was live when it started; left: what is left of the burst in progress; stopping: a STOP waits for that burst
(13 R491, R495, R496, R498). -/
structure DescRun where
  bytes   : List Byte
  moved   : Nat
  left    : Nat
  diff    : Option Nat
  srcLive : Bool
  stopping : Bool
  deriving DecidableEq, Repr

/-- A DMA channel (13 R490-R508). -/
structure Chan where
  base     : BitVec 64
  depth    : Nat
  head     : Bool
  en       : Bool
  tail     : Nat
  state    : Nat
  cause    : Nat
  ringHead : Nat
  done     : BitVec 32
  haltSrc  : BitVec 32
  haltDone : BitVec 32
  /-- DMA_RING_BASE rewritten since the halt (13 R499). -/
  rebased  : Bool
  cur      : Option DescRun
  deriving DecidableEq, Repr

/-- Streams, channels and request lines. -/
structure DmaBlock where
  streams  : Vector Stream 64
  chans    : Vector Chan 32
  /-- Pending requests and overflow counts of the 64 lines (13 R495). -/
  req      : List Nat
  reqOver  : List Nat
  deriving DecidableEq, Repr

/-! ### Object engines (13 R464-R489) -/

/-- State of a checksum engine (13 R487): the CRC register; the chaining value of SHA-256 and the bytes short of a block;
for a byte compare the first offset that differs. -/
structure EngSum where
  crc  : Nat
  hash : List (BitVec 32)
  part : List Byte
  diff : Option Nat
  deriving DecidableEq, Repr

/-- An input of an engine command: its stream, its shard number, its buffer, the stream position of its first byte, the
bytes brought in, and those that are poisoned (offset and length). -/
structure EngInput where
  stream : Nat
  shard  : Nat
  word   : Word
  base   : Nat
  loaded : Nat
  bad    : List (Nat × Nat)
  deriving DecidableEq, Repr

/-- A command in an engine (03 R119, R120, 13 R465-R489): by the command's order, its engine (0 Reed-Solomon, 1 CRC, 2 to 9
the SHA-256 instances), the bytes consumed and those up to the mark, the engine's state at both, and the outputs held
between them. -/
structure EngJob where
  order   : Nat
  engine  : Nat
  dig     : Nat
  len     : Nat
  inputs  : List EngInput
  /-- Surviving shards beyond the first K (13 R470). -/
  rest    : List (Nat × Word)
  /-- Shards written, each with its buffer. -/
  outs    : List (Nat × Word)
  pos     : Nat
  sure    : Nat
  sum     : EngSum
  kept    : EngSum
  held    : List (List Byte)
  /-- Offset at which too few shards can be read (13 R471). -/
  cut     : Option Nat
  macFail : Bool
  dead    : Bool
  /-- Its last turn found nothing to consume. -/
  stalled : Bool
  deriving DecidableEq, Repr

/-- The engines' commands, in the order of their turns, and the ENGINE tokens of Tollgate, by consumer (17 R635, R637):
0 Reed-Solomon, 1 CRC, 2 to 9 SHA-256, 10 hash-index engine, 11 heap manager, 12 to 43 DMA channels; turn: the consumer
next in the round. -/
structure EngineBlock where
  jobs   : List EngJob
  tokens : Sparse Nat
  turn   : Nat
  deriving DecidableEq, Repr

/-! ### Object heap (12) -/

/-- The partly filled last stripe of an OPEN or TARGET zone (12 R432). -/
structure PartStripe where
  region : Nat
  zone   : Nat
  stripe : Nat
  since  : Nat
  deriving DecidableEq, Repr

/-- Heap manager and hash-index engine state. -/
structure ObjBlock where
  parts    : List PartStripe
  /-- Indexes whose 90 % event has been logged (12 R441), and last INDEX_FULL event. -/
  over90   : List Nat
  fullAt   : Sparse Nat
  /-- Index slots whose ECRC failure has been logged: region, bucket and slot (12 R440). -/
  badSlots : List (Nat × Nat × Nat)
  /-- Valid entries of each INDEX region (12 R438, R463). -/
  counts   : Sparse Nat
  /-- Regions whose collection has started and not yet reached COLLECT_HIGH (12 R456). -/
  running  : List Nat
  /-- Recount of VALID_UNITS running (12 R461). -/
  recount  : Bool
  collectLow : BitVec 8
  collectHigh : BitVec 8
  collectMax : BitVec 7
  sealTime : BitVec 8
  sel      : BitVec 10
  deriving DecidableEq, Repr

/-! ### Events and counters (14) -/

/-- A log record (14 R520). -/
structure LogRec where
  seq    : BitVec 32
  src    : Nat
  level  : Nat
  kind   : Nat
  asserted : Bool
  stamp  : Nat
  last   : Nat
  count  : Nat
  detail : BitVec 256
  deriving DecidableEq, Repr

/-- Coalescing state (14 R514). -/
inductive CoalState where
  | quiet | coalescing | storm
  deriving DecidableEq, Repr

/-- One event source (14 R514, R515). -/
structure SrcSt where
  state    : CoalState
  count    : Nat
  wcount   : Nat
  first    : Nat
  last     : Nat
  windowEnd : Nat
  asserted : Bool
  detail   : BitVec 256
  deriving DecidableEq, Repr

/-- Hold bits and acknowledgement of a head or the sideband (14 R525). -/
structure Attn where
  hold   : BitVec 8
  ackSeq : BitVec 32
  deriving DecidableEq, Repr

/-- A traced request holding a tag (14 R535-R537). -/
structure Trace where
  tag    : Nat
  kind   : Nat
  head   : Head
  start  : Nat
  who    : Word
  stages : List Nat
  poison : Bool
  path   : Nat
  deriving DecidableEq, Repr

/-- The event fabric, counters, dumps, windows, tracer and counter pages. -/
structure EventBlock where
  sources   : Sparse SrcSt
  levels    : Sparse Nat
  thresh    : Sparse Nat
  coalMs    : BitVec 8
  /-- The log, newest first, at most 4,096; and the records waiting for it, oldest first. -/
  log       : List LogRec
  headSeq   : BitVec 32
  intake    : List LogRec
  nextLogAt : Nat
  lostRecs  : Nat
  lostLevel : Nat
  lostSince : Nat
  lostPending : Bool
  attnA     : Attn
  attnB     : Attn
  attnS     : Attn
  lastSeq   : List (BitVec 32)
  toggle    : Bool
  wallOffset : Int
  wallSet   : Bool
  srcSel    : BitVec 10
  counters  : Sparse (BitVec 64)
  -- dumps
  dumpEn    : Bool
  dumpHead  : Bool
  slotsM1   : BitVec 8
  periodMs  : BitVec 16
  dumpBase  : BitVec 64
  dumpSeq   : BitVec 32
  lastDseq  : BitVec 32
  nextSlot  : Nat
  dumpErr   : Bool
  dumpSkipped : Nat
  nextDumpAt : Nat
  dumpDoneAt : Nat
  -- bandwidth
  windowUs  : BitVec 20
  windowAt  : Nat
  bwNow     : List (Nat × Nat)
  bwLast    : List (Nat × Nat)
  bwNo      : BitVec 32
  -- tracer
  trEn      : Bool
  trHead    : Bool
  trKinds   : BitVec 3
  trRate    : BitVec 5
  trDepth   : BitVec 12
  trBase    : BitVec 64
  trSeq     : BitVec 32
  trErr     : Bool
  trMissed  : Nat
  trDraws   : Nat
  traces    : List Trace
  -- counter pages, 0-15 head A, 16-31 head B, and region counters (six per region)
  cpages    : Sparse (BitVec 32)
  regionCnt : Sparse (BitVec 64)
  deriving DecidableEq, Repr

/-! ### Keys, security, firmware (15, 19) -/

/-- KSTATE (15 R560). -/
inductive KState where
  | free | loaded | absent | closing | retired
  deriving DecidableEq, Repr

/-- A key slot: state, 96 B of key material, check value (15). -/
structure KeySlot where
  state : KState
  key   : BitVec 768
  check : BitVec 64
  deriving DecidableEq, Repr

/-- A firmware slot's image: its bytes and whether the check of R581 passed when it was committed. -/
structure FwImage where
  version  : BitVec 64
  svn      : BitVec 32
  clusters : BitVec 4
  good     : Bool
  bytes    : List Byte
  deriving DecidableEq, Repr

/-- Who asked for a firmware commit: a command, or a head's mailbox. -/
inductive FwAsker where
  | cmd (qid cid : Nat)
  | box (h : Head)
  deriving DecidableEq, Repr

/-- A firmware commit in progress (19 R696-R699): the image, then the live update of the clusters of the
mask, one at a time; since: the order of fetch at which the present cluster's queues passed to its
sibling; former: active bits before it; failed: a load has failed its check. -/
structure FwCommit where
  slot     : Bool
  mask     : BitVec 4
  activate : Bool
  image    : FwImage
  asker    : FwAsker
  durable  : Bool
  todo     : List Nat
  since    : Nat
  startAt  : Nat
  former   : BitVec 4
  failed   : Bool
  deriving DecidableEq, Repr

/-- Keys, sessions, firmware slots and cluster states. -/
structure SecBlock where
  slots     : Sparse KeySlot
  kwk       : Option (BitVec 256)
  plaintext : Bool
  secLock   : Bool
  /-- Open sessions: bit 0 vendor, 1 owner, 2 service (15 R591). -/
  sessA     : BitVec 3
  sessB     : BitVec 3
  sessS     : BitVec 3
  zeroised  : Bool
  testUnlocked : Bool
  keySel    : BitVec 7
  rekeySel  : BitVec 10
  fails     : List Nat
  locks     : BitVec 3
  -- firmware
  fw0       : Option FwImage
  fw1       : Option FwImage
  active    : BitVec 4
  badBits   : BitVec 8
  runSlot   : BitVec 4
  /-- The image that each cluster runs, whatever its slot holds now: cluster and image (11 R408, 19 R697). -/
  runs      : List (Nat × FwImage)
  download  : List Host.Cell
  /-- Ranges of the download buffer written: offset and length. -/
  loaded    : List (Nat × Nat)
  commit    : Option FwCommit
  halted    : BitVec 4
  held      : BitVec 4
  /-- Cores holding a precise data abort (08 R307). -/
  aborts    : BitVec 16
  -- fault injection (08 R322-R326)
  injAllow  : Bool
  injLock   : Bool
  flipTarget : BitVec 64
  flipSram  : BitVec 32
  flipTag   : BitVec 32
  flipLine  : BitVec 32
  /-- Lines whose MAC has failed since the device reset: region and line (15 R576). -/
  macLines  : List (Nat × Nat)
  deriving DecidableEq, Repr

/-! ### Power and the bank (16) -/

/-- Supervisor state (16 R627). -/
inductive PwrState where
  | off | seqUp | on | draining | seqDown | offWait | failed
  deriving DecidableEq, Repr

/-- One rail: enable, power-good, lifetime counters, margin step (16 R613, R628). -/
structure Rail where
  en      : Bool
  pg      : Bool
  /-- Instants of power-good transitions in the present step (16 R600, R601). -/
  trans   : List Nat
  /-- Instant since which a good input has stayed good. -/
  goodAt  : Nat
  /-- One more than the instant at which the rail was enabled, until its step completes, or disabled, until it
  has fallen; 0 otherwise. -/
  enAt    : Nat
  pgFail  : BitVec 16
  chatter : BitVec 16
  timeout : BitVec 16
  step    : Int
  deriving DecidableEq, Repr

/-- Progress of a bank test (16 R623). -/
inductive BankTest where
  | idle | waitCharged | holding | loaded | recharging | postponed
  deriving DecidableEq, Repr

/-- The supervisor: rails, PWR_FLT#, bank. Times on the always-on clock. -/
structure PowerBlock where
  vaux      : Bool
  /-- VAUX continuity flag (02 R77). -/
  continuity : Bool
  state     : PwrState
  attempt   : Nat
  /-- Step of the sequence in hand, kept while a failed attempt is shut down; 0 for none (16 R597, R602). -/
  step      : Nat
  /-- Step being disabled in SEQ_DOWN (16 R610). -/
  downStep  : Nat
  rails     : Vector Rail 12
  vinGood   : Bool
  /-- VIN_GOOD has fallen while FAILED (16 R603). -/
  vinFell   : Bool
  fltIn     : Bool
  fltDrive  : Bool
  offAt     : Nat
  onAt      : Nat
  failLatched : Bool
  failRail  : BitVec 4
  failKind  : BitVec 3
  failStamp : Nat
  /-- Re-enable attempts of VPHY_A and VPHY_B since their fall, and the instant of the last (R743). -/
  phyTries  : List Nat
  phyAt     : List Nat
  -- bank
  bankMv    : BitVec 16
  capNf     : Option Nat
  esrUohm   : Option Nat
  result    : BitVec 3
  charged   : Bool
  chargedAt : Nat
  chargedOnce : Bool
  chgFault  : Bool
  test      : BankTest
  testAt    : Nat
  testCap   : Option Nat
  energy    : Option Nat
  energyNext : Option Nat
  /-- Instant of the last valid test on the always-on clock (16 R622). -/
  testedAt  : Option Nat
  -- registers
  retry     : BitVec 3
  offMin    : BitVec 8
  pwrLock   : Bool
  marginRail : BitVec 4
  marginStep : BitVec 4
  marginStatus : BitVec 12
  iChg      : BitVec 4
  deriving DecidableEq, Repr

/-! ### Drift, Tollgate and thermal (02, 17) -/

/-- One temperature sensor (17 R638-R644): readings in 0.125 °C, rates in 10^-9 of 0.125 °C/s. -/
structure Sensor where
  temp    : Int
  rate    : Int
  valid   : Bool
  /-- It was read at the sample before (17 R742). -/
  was     : Bool
  cold    : Bool
  warn    : Bool
  /-- Recent samples (instant, reading), newest first (17 R640). -/
  hist    : List (Nat × Int)
  deriving DecidableEq, Repr

/-- Drift integrals, thermal sensors, Tollgate. -/
structure ThermBlock where
  sensors  : Vector Sensor 144
  tmax     : Int
  tmaxSrc  : BitVec 8
  /-- In 10^-9 of 0.125 °C/s. -/
  rateMax  : Int
  fast     : Bool
  tripped  : Bool
  sampled  : Bool
  aonAt    : Nat
  /-- E_p and H_d in 2^-24 eq-h (02 R63). -/
  epos     : Vector Nat 8
  hdie     : Vector Nat 128
  /-- Activation energy in force for the AF table (02 R64) and the configuration. -/
  eaTable  : BitVec 8
  ea       : BitVec 8
  toff     : BitVec 8
  driftLock : Bool
  offCase  : BitVec 3
  offCharge : Nat
  /-- Checkpoint wall time and its validity for the off interval (02 R79). -/
  ckWall   : Option Nat
  readyAt  : Option Nat
  driftCkAt : Nat
  -- Tollgate
  budget0  : Nat
  budget1  : Nat
  budgetE  : Nat
  factor   : Nat
  bgShare  : BitVec 8
  progFloor : BitVec 8
  engFloor : BitVec 8
  kp       : BitVec 7
  kr       : BitVec 7
  querySel : BitVec 8
  deriving DecidableEq, Repr

/-! ### The Cabinet (18) -/

/-- One slot of a record pair (18 R655, R656); torn: it fails R657. -/
structure CabSlot where
  typ     : BitVec 8
  len     : BitVec 8
  id      : BitVec 16
  seq     : BitVec 32
  payload : BitVec 384
  torn    : Bool
  deriving DecidableEq, Repr

/-- What waits for a record to be durable (18 R741, R663): nothing, a command, or the second half of an
erase. -/
inductive CabAfter where
  | nothing
  | keyLoad (qid cid slot : Nat) (key : BitVec 768)
  | change (qid cid part : Nat)
  | setKwk (qid cid : Nat) (kwk : BitVec 256)
  | fwCommit
  | ztPtr
  | erase
  deriving DecidableEq, Repr

/-- A Cabinet write requested or in progress (18 R660); wipe: it zeroes the slot that lost. -/
structure CabReq where
  prio    : Nat
  pair    : Nat
  typ     : BitVec 8
  len     : BitVec 8
  id      : BitVec 16
  payload : BitVec 384
  wipe    : Bool
  after   : CabAfter
  deriving DecidableEq, Repr

/-- The Cabinet: record pairs, milestone counters, the write queue. -/
structure CabBlock where
  /-- Slots by pair * 2 + slot; unlisted: blank. -/
  slots     : Sparse (Option CabSlot)
  milestone : List Nat
  queue     : List CabReq
  busy      : Option (CabReq × Nat)
  invalid   : BitVec 16
  equalSeq  : BitVec 16
  mileSel   : BitVec 6
  deriving DecidableEq, Repr

/-! ### Life cycle (19) -/

/-- STAGE (19 R701). -/
inductive Stage where
  | repair | bist | boot | media | keys | zt | resync | checks | energy | ready | shutdown | halted
  deriving DecidableEq, Repr

/-- Kind of the last stop (19 R682). -/
inductive LastStop where
  | orderly | drained | unclean
  deriving DecidableEq, Repr

/-- An in-service self-test running (19 R694): the command that asked for it. -/
structure TestRun where
  lane  : Nat
  die   : Option Nat
  cmd   : Option (Nat × Nat)
  /-- The scope was DEAD, and stays so (07 R302). -/
  wasDead : Bool
  deriving DecidableEq, Repr

/-- A CLUSTER test: its command, the cluster held, and where in the order of commands and when it was held (19 R694). -/
structure ClusterTest where
  qid     : Nat
  cid     : Nat
  cluster : Nat
  since   : Nat
  startAt : Nat
  deriving DecidableEq, Repr

/-- An orderly shut-down in progress: SHUTDOWN with what its BIST would find, WARM with what the start that
follows meets, or the part of one that TEST_UNLOCK runs (19 R687, 15 R588). -/
inductive ShutKind where
  | off (bist : List BistFail)
  | warm (start : StartInputs)
  | unlock
  deriving DecidableEq, Repr

/-- Start-up, shut-down and self-test. -/
structure LifeBlock where
  stage    : Stage
  halt     : Nat
  warm     : Bool
  lastStop : LastStop
  bistRan  : Bool
  bistRes  : List Nat
  bistNext : Bool
  readyMs  : Nat
  resets   : Nat
  /-- Controller reset released (the device runs). -/
  running  : Bool
  /-- An orderly shut-down is running. -/
  shutting : Option ShutKind
  shutAt   : Nat
  tests    : List TestRun
  clusterTest : Option ClusterTest
  /-- Object engines retired (19 R692). -/
  noEngines : Bool
  /-- PHYS, SPARE, SYSRES, USER zone counts (01 R34). -/
  physZones : Nat
  spareZones : Nat
  userZones : Nat
  sysZones  : Nat
  formatted : Bool
  -- pins of chapter 20
  tap      : TapInstr
  testEn   : Bool
  smbus    : Bool
  /-- Sideband ATTN level last signalled in I3C mode (20 R718). -/
  ibiLevel : Nat
  /-- A drain has abandoned work of the maintenance engine since the last start (05 R208). -/
  maintCut : Bool
  deriving DecidableEq, Repr

/-! ### What leaves the device -/

/-- Return code of a mailbox reply: success, Unsupported, or the status of the command it acts as. -/
inductive MailCode where
  | success
  /-- Background Command Started (09 R329). -/
  | started
  | unsupported
  | status (code : Nat)
  deriving DecidableEq, Repr

/-- Source of an entry of Get Poison List (09 R349). -/
inductive PoisonSource where
  | inside
  | unknown
  deriving DecidableEq, Repr

/-- What a mailbox reply carries; its layout in bytes is that of CXL 3.1 (09 R330). -/
inductive Reply where
  | none
  /-- Records of a log, and its overflow count. -/
  | events (records : List CxlRec) (overflow : Nat)
  | policy (p : BitVec 32)
  /-- Slot running on cluster 0, slot of its next load, versions of slots 0 and 1. -/
  | fwInfo (running next : Bool) (v0 v1 : Option (BitVec 64))
  | timestamp (ns : Nat)
  /-- The one log kept beside the event logs: the command effects log. -/
  | logs (names : List String)
  | cel (names : List String)
  /-- Volatile and persistent capacity in bytes, label storage in bytes. -/
  | identify (volatile persistent label : Nat)
  | partition (volatile persistent : Nat)
  /-- ATTN level and dirty shutdown count. -/
  | health (attn dirty : Nat)
  | alerts (cfg : BitVec 64)
  | bytes (l : List Byte)
  /-- DPA of the first poisoned sector, sectors covered, source. -/
  | poison (l : List (Nat × Nat × PoisonSource))
  deriving DecidableEq, Repr

/-- One thing the device sent: on a link, into host memory, on a pin. -/
inductive Sent where
  /-- S2M DRS: data or poison for a read (03 R125, 09 R348). -/
  | readData (h : Head) (tag : Nat) (data : Sector) (poison : Bool)
  /-- S2M NDR: a write's completion. -/
  | writeDone (h : Head) (tag : Nat)
  | credit (h : Head)
  | gpfDone (h : Head)
  | cfgReady (h : Head)
  /-- Bytes written into a head's host memory. -/
  | hostWrite (h : Head) (addr : Nat) (bytes : List Byte)
  | msix (h : Head) (vector : Nat)
  /-- A fetch request for SQ entry `index` of a pair (11 R391). -/
  | fetch (qid index : Nat)
  | mailbox (h : Head) (code : MailCode) (reply : Reply)
  /-- The end of a head's mailbox background operation (09 R329). -/
  | backgroundDone (h : Head) (code : MailCode)
  /-- A line sense on the lane, with its 15 references (02 R72, R73). -/
  | sense (pla : Pla) (refs : List Nat)
  /-- A waymark sense of a tile, by lane and physical zone (02 R48). -/
  | waymarkSense (lane pzone : Nat)
  /-- The response to a BAR or sideband read that no register answers: all ones. -/
  | allOnes (p : Port)
  /-- A precise data abort in a core (08 R307). -/
  | dataAbort (core : Nat)
  /-- Sideband in-band interrupt (20 R718). -/
  | ibi
  /-- PMBus VOUT_COMMAND: address and step in percent (16 R615). -/
  | pmbus (addr : Nat) (step : Int)
  deriving DecidableEq, Repr

/-! ### The machine -/

/-- Everything but the clocks and the command queue. -/
structure Dev where
  /-- The time stamp of the step in hand (01 R24), sampled from the clock as the step starts. -/
  now    : Nat
  /-- The always-on clock's sample, ns since VAUX power-on. -/
  aon    : Nat
  /-- Draws made from free values. -/
  draws  : Nat
  medium : Medium
  sys    : SysData
  nv     : SysData
  zt     : ZtBlock
  cache  : CacheBlock
  bench  : BenchBlock
  lane   : LaneBlock
  headA  : HeadSt
  headB  : HeadSt
  q      : QueueBlock
  dma    : DmaBlock
  eng    : EngineBlock
  obj    : ObjBlock
  ev     : EventBlock
  sec    : SecBlock
  pwr    : PowerBlock
  therm  : ThermBlock
  cab    : CabBlock
  life   : LifeBlock
  -- registers of 06 that stand alone
  wearDelta : BitVec 16
  moveMax   : BitVec 4
  moveMaxOd : BitVec 6
  earlyS    : BitVec 6
  earlyL    : BitVec 4
  pclrTarget : BitVec 12
  refresh   : Vector (BitVec 12) 7
  ztSel     : BitVec 21
  /-- Samples of wide registers held for upper-word reads (21 R732): port, offset, value. -/
  samples   : List (Port × Nat × Nat)
  out    : List Sent
  deriving DecidableEq, Repr

/-- The two counters of time: the time-stamp counter of R24 in ns, in steps of 5, and the always-on
clock in ns since VAUX power-on. -/
structure Clock where
  now : Nat
  aon : Nat
  deriving DecidableEq, Repr

/-- The state of the block. -/
structure State where
  /-- Commands waiting, first in first out. -/
  pending : List Instr
  clock   : Clock
  dev     : Dev
  deriving DecidableEq, Repr

/-! ### Reset: VAUX power-on of a device never formatted (19 R677, 21 R730; log entries 3 to 9) -/

namespace Reset

def sysData : SysData :=
  { wear := [], regions := [], seq := [], heap := [], intent := [], lineIntent := [], outage := [],
    poison := [], badTiles := [], saved := [], labelA := [], labelB := [] }

def zt : ZtBlock :=
  { entries := [], flips := [], lost := [], updates := [], wseq := [], jzones := [], jseqNext := 0, readBack := [],
    ckpts := [], lastCkptAt := 0, recsSince := 0, moves := [], runs := [], resetDue := [], earlyDropAt := none, reserve := [],
    binds := [], overdue := [], chargeFrom := none, clampDue := false, clamped := [], deadDue := [], deferred := false, lastUpdate := [] }

def cache : CacheBlock :=
  { ways := [], lru := [], retired := 0, excluded := [], lastError := [], lastCorr := [], side := [],
    detectA := Vector.replicate 16 none, detectB := Vector.replicate 16 none, selNext := 0,
    maint := none, refused := false, abandoned := false, steps := 0, conv := none, work := [], testing := none, skipped := 0,
    scratch := [], scratchPoison := [], scratchFlips := [], highWm := 50, pfDepth := 8, gather := true, ageLimit := 10,
    cfgSteps := 0, mRegion := 0, mFirst := 0, mCount := 0, mOp := 0 }

def bench : BenchBlock :=
  { entries := [], nextId := 0, updates := [], progs := [], reserved := 0, cap := 0,
    capGiven := false, exposed := false, draining := false, held := [], later := [], backs := [], refusedAt := [],
    lockedAt := [], deadAt := [] }

def lane1 : Lane :=
  { lstate := .inService, cause := 0, dies := Vector.replicate 8 .inService, cursor := 0, stripe := 0,
    testResult := 0, queue := [], recStarts := [], allowHit := false, allowRun := 0,
    runByDie := List.replicate 8 0, timeouts := [], rejects := [], linkAt := 0, present := 0, trained := false,
    strobeAt := 0 }

def lanes : LaneBlock :=
  { lanes := Vector.replicate 16 lane1, reads := [], nextRead := 0, nextSense := 0, posMask := 0, missed := [],
    ctrlLane := 0, ctrlDie := 0, ctrlScope := false, ctrlOp := 0, lastStatus := 0, mergeGuard := 2,
    autoRepair := true, restoreDepth := 8, nu := [] }

/-- An HDM decoder that is not committed (log entry 18). -/
def hdm : Hdm :=
  { base := 0, size := 0, skip := 0, ig := 0, iw := 0, lock := false, on := false, err := false, dpa := 0 }

def head : HeadSt :=
  { inReset := false, resetAt := 0, linkUp := false, linkDownAt := 0, width := 0, perstOffAt := 0,
    cfgReady := false, memActive := false, memInfo := false, memTimeout := 0, retired := false, gpf1 := false, credits := 0,
    readsOut := 0, hdm := List.replicate 8 hdm, hdmEn := false, gpfP2 := 10000, lost := 0, refused := 0, logs := [], logNext := 1,
    overflow := List.replicate 4 0, policy := 0, alerts := 0, capacity := 0, barSeen := [] }

def qpair : QPair :=
  { state := .absent, errCause := 0, sqBase := 0, cqBase := 0, sqDepth := 0, cqDepth := 0,
    vector := 0, ien := false, icount := 0, itime := 0, sqTail := 0, sqHead := 0, cqTail := 0,
    cqHead := 0, phase := true, slots := 0, fetching := [], posted := 0, oldestAt := 0,
    deleter := none }

/-- ADMQ_CFG resets to SQ_DEPTH_M1 0x01F, CQ_DEPTH_M1 0x01F, VECTOR 0, IEN 1 (11 R418). -/
def admq : AdmQ :=
  { sqBase := 0, cqBase := 0, cfg := 0x4001F01F, en := false, rdy := false, enAt := 0 }

def queues : QueueBlock :=
  { pairs := Vector.replicate 128 qpair, exec := [], order := 0, admA := admq, admB := admq,
    rrA := 0, rrB := 0, heldTime := none }

def stream : Stream :=
  { en := false, mode := false, write := 0, read := 0, mark := 0, free := 0, handed := 0,
    pending := false, err := false, bytes := [], poison := [], slots := [], ends := [0],
    writer := none, reader := none, dropping := false }

def chan : Chan :=
  { base := 0, depth := 64, head := false, en := false, tail := 0, state := 0, cause := 0,
    ringHead := 0, done := 0, haltSrc := 0, haltDone := 0, rebased := false, cur := none }

def dma : DmaBlock :=
  { streams := Vector.replicate 64 stream, chans := Vector.replicate 32 chan,
    req := List.replicate 64 0, reqOver := List.replicate 64 0 }

def obj : ObjBlock :=
  { parts := [], over90 := [], fullAt := [], badSlots := [], counts := [], running := [], recount := false, collectLow := 16,
    collectHigh := 32, collectMax := 75, sealTime := 50, sel := 0 }

def attn : Attn := { hold := 0, ackSeq := 0xFFFFFFFF }

def events : EventBlock :=
  { sources := [], levels := [], thresh := [], coalMs := 10, log := [], headSeq := 0xFFFFFFFF,
    intake := [], nextLogAt := 0, lostRecs := 0, lostLevel := 0, lostSince := 0,
    lostPending := false, attnA := attn, attnB := attn, attnS := attn,
    lastSeq := List.replicate 8 0, toggle := false, wallOffset := 0, wallSet := false, srcSel := 0,
    counters := [], dumpEn := false, dumpHead := false, slotsM1 := 3, periodMs := 1000,
    dumpBase := 0, dumpSeq := 0, lastDseq := 0, nextSlot := 0, dumpErr := false, dumpSkipped := 0,
    nextDumpAt := 0, dumpDoneAt := 0, windowUs := 1000, windowAt := 0,
    bwNow := List.replicate 18 (0, 0), bwLast := List.replicate 18 (0, 0), bwNo := 0,
    trEn := false, trHead := false, trKinds := 0, trRate := 10, trDepth := 0xFF, trBase := 0,
    trSeq := 0, trErr := false, trMissed := 0, trDraws := 0, traces := [], cpages := [],
    regionCnt := [] }

/-- The image the factory leaves in slot 0 serves every cluster (log entry 7). -/
def factoryImage : FwImage :=
  { version := Config.factoryFwVersion, svn := Config.factorySvn, clusters := 0xF, good := true,
    bytes := [] }

def sec : SecBlock :=
  { slots := [], kwk := none, plaintext := false, secLock := false, sessA := 0, sessB := 0,
    sessS := 0, zeroised := false, testUnlocked := false, keySel := 0, rekeySel := 0,
    fails := [0, 0, 0], locks := 0, fw0 := some factoryImage, fw1 := none, active := 0,
    badBits := 0, runSlot := 0, runs := [], download := [], loaded := [], commit := none, halted := 0, held := 0, aborts := 0,
    injAllow := false, injLock := false, flipTarget := 0, flipSram := 0, flipTag := 0,
    flipLine := 0x00004000, macLines := [] }

def rail : Rail :=
  { en := false, pg := false, trans := [], goodAt := 0, enAt := 0, pgFail := 0, chatter := 0,
    timeout := 0, step := 0 }

def power : PowerBlock :=
  { vaux := true, continuity := false, state := .off, attempt := 0, step := 0, downStep := 0,
    rails := Vector.replicate 12 rail, vinGood := false, vinFell := false, fltIn := false,
    fltDrive := false, offAt := 0, onAt := 0, failLatched := false, failRail := 0xF, failKind := 0,
    failStamp := 0, phyTries := [0, 0], phyAt := [0, 0], bankMv := 0, capNf := none,
    esrUohm := none, result := 0, charged := false, chargedAt := 0, chargedOnce := false,
    chgFault := false, test := .idle, testAt := 0, testCap := none, energy := none,
    energyNext := none, testedAt := none, retry := 3, offMin := 10, pwrLock := false,
    marginRail := 0, marginStep := 0, marginStatus := 0, iChg := 5 }

def sensor : Sensor :=
  { temp := 0, rate := 0, valid := false, was := true, cold := false, warn := false, hist := [] }

def therm : ThermBlock :=
  { sensors := Vector.replicate 144 sensor, tmax := 0, tmaxSrc := 0xFF, rateMax := 0, fast := false,
    tripped := false, sampled := false, aonAt := 0, epos := Vector.replicate 8 0,
    hdie := Vector.replicate 128 0, eaTable := 90, ea := 90, toff := 55, driftLock := false,
    offCase := 0, offCharge := 0, ckWall := none, readyAt := none, driftCkAt := 0,
    budget0 := 200, budget1 := 200, budgetE := 140, factor := 256, bgShare := 10,
    progFloor := 20, engFloor := 20, kp := 10, kr := 10, querySel := 0 }

/-- The vendor PASSWORD record written at the factory (18 R664, R670), in slot 0 of pair 7. -/
def vendorSlot : CabSlot :=
  { typ := 0x08, len := 48, id := 0, seq := 0,
    payload := (Config.vendorVerifier.setWidth 384 <<< 128) ||| Config.vendorSalt.setWidth 384,
    torn := false }

def cab : CabBlock :=
  { slots := [(14, some vendorSlot)], milestone := List.replicate 64 0, queue := [], busy := none,
    invalid := 0, equalSeq := 0, mileSel := 0 }

def life : LifeBlock :=
  { stage := .repair, halt := 0, warm := false, lastStop := .orderly, bistRan := false,
    bistRes := [0, 0, 0, 0], bistNext := false, readyMs := 0, resets := 0, running := false,
    shutting := none, shutAt := 0, tests := [], clusterTest := none, noEngines := false, physZones := 0,
    spareZones := 0, userZones := 0, sysZones := 0, formatted := false, tap := .idcode,
    testEn := false, smbus := false, ibiLevel := 0, maintCut := false }

def dev : Dev :=
  { now := 0, aon := 0, draws := 0, medium := { lines := [], remaps := [], waymarks := [], failed := [], residue := [] },
    sys := sysData, nv := sysData, zt := zt, cache := cache, bench := bench, lane := lanes,
    headA := head, headB := head, q := queues, dma := dma, eng := { jobs := [], tokens := [], turn := 0 }, obj := obj, ev := events, sec := sec,
    pwr := power, therm := therm, cab := cab, life := life, wearDelta := 4096, moveMax := 8,
    moveMaxOd := 32, earlyS := 20, earlyL := 6, pclrTarget := 1024,
    refresh := Vector.replicate 7 1095, ztSel := 0, samples := [], out := [] }

end Reset

/-- The machine right after reset. -/
def State.reset : State :=
  { pending := [], clock := { now := 0, aon := 0 }, dev := Reset.dev }

end Sys2Proof.Machine
end

