-- ==== Sys2Proof/Machine/Ops.lean ====
section
/-!
DEFINITION. Named operations over the state's plain data: sparse tables in canonical form, byte-addressed
memories, bit fields, physical line addresses, and access to the numbered parts of the device.
-/

namespace Sys2Proof.Machine

/-! ### Sparse tables -/

/-- The entry of key k, or the table's default. -/
def tget {α : Type} (dflt : α) : Sparse α → Nat → α
  | [], _ => dflt
  | (j, v) :: m, k => if j = k then v else tget dflt m k

/-- Remove the entry of key k. -/
def tdel {α : Type} : Sparse α → Nat → Sparse α
  | [], _ => []
  | (j, v) :: m, k => if j = k then m else if j < k then (j, v) :: tdel m k else (j, v) :: m

/-- Place v at key k, in order. -/
def tput {α : Type} : Sparse α → Nat → α → Sparse α
  | [], k, v => [(k, v)]
  | (j, u) :: m, k, v =>
    if j = k then (k, v) :: m else if j < k then (j, u) :: tput m k v else (k, v) :: (j, u) :: m

/-- Set key k to v; the default value removes the entry. -/
def tset {α : Type} [DecidableEq α] (dflt : α) (m : Sparse α) (k : Nat) (v : α) : Sparse α :=
  if v = dflt then tdel m k else tput m k v

/-- Keys strictly rising from lo on, no entry equal to the default. -/
def twfFrom {α : Type} [DecidableEq α] (dflt : α) : Nat → Sparse α → Bool
  | _, [] => true
  | lo, (k, v) :: m => decide (lo ≤ k) && decide (v ≠ dflt) && twfFrom dflt (k + 1) m

/-- The canonical form of a sparse table. -/
def twf {α : Type} [DecidableEq α] (dflt : α) (m : Sparse α) : Bool := twfFrom dflt 0 m

/-- Change the entry of key k. -/
def tmod {α : Type} [DecidableEq α] (dflt : α) (m : Sparse α) (k : Nat) (f : α → α) : Sparse α :=
  tset dflt m k (f (tget dflt m k))

/-! ### Byte-addressed memories: scratch, label storage, stream banks, the download buffer -/

/-- A memory lists its cells as Host.Cell; an unlisted byte reads 0. -/
abbrev Memory := List Host.Cell

def Memory.wf (m : Memory) : Bool := twf (0 : Byte) m

def readByte (m : Memory) (a : Nat) : Byte := tget (0 : Byte) m a

def writeByte (m : Memory) (a : Nat) (b : Byte) : Memory := tset (0 : Byte) m a b

def readBytes (m : Memory) (a : Nat) : Nat → List Byte
  | 0 => []
  | n + 1 => readByte m a :: readBytes m (a + 1) n

def writeBytes (m : Memory) (a : Nat) : List Byte → Memory
  | [] => m
  | b :: bs => writeBytes (writeByte m a b) (a + 1) bs

/-! ### Bytes and bit fields -/

/-- Bits [lo + w - 1 : lo] of x. -/
def fld (x lo w : Nat) : Nat := (x >>> lo) % 2 ^ w

/-- Bit i of x. -/
def bitOf (x i : Nat) : Bool := x.testBit i

def bool01 (b : Bool) : Nat := if b then 1 else 0

/-- x with bits [lo + w - 1 : lo] replaced by v. -/
def setFld (x lo w v : Nat) : Nat :=
  x - (fld x lo w) * 2 ^ lo + (v % 2 ^ w) * 2 ^ lo

/-- Little-endian value of bytes. -/
def leNat : List Byte → Nat
  | [] => 0
  | b :: bs => b.toNat + 256 * leNat bs

/-- n as w little-endian bytes. -/
def leBytes : Nat → Nat → List Byte
  | 0, _ => []
  | w + 1, n => BitVec.ofNat 8 n :: leBytes w (n / 256)

/-- n as w big-endian bytes. -/
def beBytes (w n : Nat) : List Byte := (leBytes w n).reverse

def beNat (l : List Byte) : Nat := leNat l.reverse

/-- Numbers below n, ascending. -/
def upTo (n : Nat) : List Nat := List.range n

/-- Fields packed from bit 0 up: (width, value). -/
def pack : List (Nat × Nat) → Nat
  | [] => 0
  | (w, v) :: l => v % 2 ^ w + 2 ^ w * pack l

/-- A signed value as w two's-complement bits. -/
def twos (w : Nat) (x : Int) : Nat := (x % (2 ^ w : Nat)).toNat

/-- The signed value of w bits. -/
def signed (w x : Nat) : Int := if x.testBit (w - 1) then (x : Int) - (2 ^ w : Nat) else x

def ceilDiv (a b : Nat) : Nat := (a + b - 1) / b

/-- The four 64 B sectors of a line (01 Logical units). -/
def sectorOf (d : LineData) (s : Nat) : Sector := (d >>> (512 * s)).setWidth 512

def setSector (d : LineData) (s : Nat) (x : Sector) : LineData :=
  (d &&& ~~~ ((BitVec.allOnes 512).setWidth 2048 <<< (512 * s))) ||| (x.setWidth 2048 <<< (512 * s))

/-- One bit per sector. -/
def hasSec (m : BitVec 4) (s : Nat) : Bool := m.toNat.testBit s

def addSec (m : BitVec 4) (s : Nat) : BitVec 4 := m ||| (1 <<< s)

def delSec (m : BitVec 4) (s : Nat) : BitVec 4 := m &&& ~~~ ((1 : BitVec 4) <<< s)

/-- One cause for the four sectors of a line. -/
def sameCause (c : Nat) : List Nat := [c, c, c, c]

/-- The sectors of a mask, ascending. -/
def secs (m : BitVec 4) : List Nat := (upTo 4).filter (hasSec m)

/-- New sectors `src` of mask m laid over `base`. -/
def overlay (m : BitVec 4) (src base : LineData) : LineData :=
  (secs m).foldl (fun d s => setSector d s (sectorOf src s)) base

def lineBytes (d : LineData) : List Byte := leBytes 256 d.toNat

def bytesLine (l : List Byte) : LineData := BitVec.ofNat 2048 (leNat l)

def sectorBytes (d : Sector) : List Byte := leBytes 64 d.toNat

def bytesSector (l : List Byte) : Sector := BitVec.ofNat 512 (leNat l)

/-- Element i of a vector, or the default past its end. -/
def vget {α : Type} {n : Nat} (dflt : α) (v : Vector α n) (i : Nat) : α := v[i]?.getD dflt

def vset {α : Type} {n : Nat} (v : Vector α n) (i : Nat) (x : α) : Vector α n := v.setIfInBounds i x

def lget (l : List Nat) (i : Nat) : Nat := (l[i]?).getD 0

def lmod {α : Type} (l : List α) (i : Nat) (f : α → α) : List α := l.modify i f

/-! ### Time -/

def usNs : Nat := 1000
def msNs : Nat := 1000000
def secNs : Nat := 1000000000
def minNs : Nat := 60 * secNs
def hourNs : Nat := 3600 * secNs

/-- An instant no later than now. -/
def Dev.due (d : Dev) (deadline : Nat) : Bool := decide (deadline ≤ d.now)

/-! ### Physical line addresses (01) -/

def plaLane (p : Pla) : Nat := fld p.toNat 34 4
def plaDie (p : Pla) : Nat := fld p.toNat 31 3
/-- Bits [37:13]: lane, die and tile. -/
def plaTile (p : Pla) : Nat := fld p.toNat 13 25
/-- Bits [33:13]: the physical zone. -/
def plaZone (p : Pla) : Nat := fld p.toNat 13 21
def plaOff (p : Pla) : Nat := fld p.toNat 0 13

/-- The line of a lane, physical zone and offset (01 R14). -/
def mkPla (lane pz off : Nat) : Pla := BitVec.ofNat 38 (lane * 2 ^ 34 + pz * 2 ^ 13 + off)

/-- Die position of a physical zone: address bits [33:31]. -/
def zoneDie (pz : Nat) : Nat := pz / 2 ^ 18

/-- Lane of a physical zone's slot, for the sixteen lanes. -/
def tileOf (lane pz : Nat) : Nat := lane * 2 ^ 21 + pz

/-! ### Parts of the device -/

def Dev.head (d : Dev) : Head → HeadSt
  | .a => d.headA
  | .b => d.headB

def Dev.setHead (d : Dev) (h : Head) (x : HeadSt) : Dev :=
  match h with
  | .a => { d with headA := x }
  | .b => { d with headB := x }

/-- Configuration space first answers: Memory_Info_Valid, and in Memory_Active_Timeout 64 s, the smallest encoding not
below 20 s (19 R681). PRESUMED: CXL 3.1 encodes 1, 4, 16, 64 and 256 s as 0 to 4 (log entry 136). -/
def HeadSt.answersCfg (x : HeadSt) : HeadSt := { x with cfgReady := true, memInfo := true, memTimeout := 3 }

def Dev.onHead (d : Dev) (h : Head) (f : HeadSt → HeadSt) : Dev := d.setHead h (f (d.head h))

def headNum : Head → Nat
  | .a => 0
  | .b => 1

def headOfBit (b : Bool) : Head := if b then .b else .a

def otherHead : Head → Head
  | .a => .b
  | .b => .a

/-- The source of a BAR write: a head, or the sideband. -/
def portNum : Port → Nat
  | .head h => headNum h
  | .sideband => 2

def Dev.lane1 (d : Dev) (i : Nat) : Lane := vget Reset.lane1 d.lane.lanes i

def Dev.setLane (d : Dev) (i : Nat) (x : Lane) : Dev :=
  { d with lane := { d.lane with lanes := vset d.lane.lanes i x } }

def Dev.onLane (d : Dev) (i : Nat) (f : Lane → Lane) : Dev := d.setLane i (f (d.lane1 i))

/-- Queue 64 * head + q (11 R386). -/
def Dev.pair (d : Dev) (q : Nat) : QPair := vget Reset.qpair d.q.pairs q

def Dev.setPair (d : Dev) (q : Nat) (x : QPair) : Dev :=
  { d with q := { d.q with pairs := vset d.q.pairs q x } }

def Dev.onPair (d : Dev) (q : Nat) (f : QPair → QPair) : Dev := d.setPair q (f (d.pair q))

def Dev.stream (d : Dev) (s : Nat) : Stream := vget Reset.stream d.dma.streams s

def Dev.setStream (d : Dev) (s : Nat) (x : Stream) : Dev :=
  { d with dma := { d.dma with streams := vset d.dma.streams s x } }

def Dev.onStream (d : Dev) (s : Nat) (f : Stream → Stream) : Dev := d.setStream s (f (d.stream s))

def Dev.chan (d : Dev) (c : Nat) : Chan := vget Reset.chan d.dma.chans c

def Dev.setChan (d : Dev) (c : Nat) (x : Chan) : Dev :=
  { d with dma := { d.dma with chans := vset d.dma.chans c x } }

def Dev.onChan (d : Dev) (c : Nat) (f : Chan → Chan) : Dev := d.setChan c (f (d.chan c))

/-- Send something out of the device. -/
def Dev.send (d : Dev) (x : Sent) : Dev := { d with out := d.out ++ [x] }

def Dev.sendAll (d : Dev) (l : List Sent) : Dev := { d with out := d.out ++ l }

/-- The region with an ID, live (09 R343). -/
def Dev.region (d : Dev) (id : Nat) : Option Region := tget none d.sys.regions id

/-- Dies in the device, by lane * 8 + position. -/
def dieKey (lane pos : Nat) : Nat := lane * 8 + pos

/-- Fold a device step over a list. -/
def Dev.each {α : Type} (l : List α) (f : Dev → α → Dev) (d : Dev) : Dev := l.foldl f d

/-- A device step under a condition. -/
def Dev.when (d : Dev) (c : Bool) (f : Dev → Dev) : Dev := if c then f d else d

end Sys2Proof.Machine
end

