-- ==== Sys2Proof/Machine/Coding.lean ====
section
/-!
DEFINITION. The codes of the manual: CRC-32C and CRC-64 (13 R467), Reed-Solomon (13 R466), the line's BCH
code (02 R55, R56), the image of a line and its metadata (02 R53-R60).
-/

namespace Sys2Proof.Machine

/-! ### CRC (R467) -/

/-- Reflected CRC-32C over one byte: eight shifts. -/
def crc32cBits : Nat → Nat → Nat
  | 0, c => c
  | n + 1, c => crc32cBits n (if c % 2 = 1 then (c / 2) ^^^ 0x82F63B78 else c / 2)

def crc32cStep (c : Nat) (b : Byte) : Nat := crc32cBits 8 (c ^^^ b.toNat)

def crc32c (l : List Byte) : Nat := l.foldl crc32cStep 0xFFFFFFFF ^^^ 0xFFFFFFFF

def crc64Bits : Nat → Nat → Nat
  | 0, c => c
  | n + 1, c =>
    crc64Bits n (if c < 2 ^ 63 then 2 * c else (2 * c - 2 ^ 64) ^^^ 0x42F0E1EBA9EA3693)

def crc64Step (c : Nat) (b : Byte) : Nat := crc64Bits 8 (c ^^^ (b.toNat * 2 ^ 56))

def crc64 (l : List Byte) : Nat := l.foldl crc64Step 0

/-! ### Reed-Solomon over GF(2^8), polynomial x^8 + x^4 + x^3 + x^2 + 1 (R466) -/

def rsX (b : Nat) : Nat := if b < 128 then 2 * b else (2 * b) ^^^ 0x11D

def rsMulN : Nat → Nat → Nat → Nat
  | 0, _, _ => 0
  | n + 1, a, b => (if b % 2 = 1 then a else 0) ^^^ rsMulN n (rsX a) (b / 2)

def rsMul (a b : Nat) : Nat := rsMulN 8 a b

/-- Powers of a up to 254: the inverse. -/
def rsPow : Nat → Nat → Nat
  | 0, _ => 1
  | n + 1, a => rsMul a (rsPow n a)

def rsInv (a : Nat) : Nat := rsPow 254 a

/-- Cauchy coefficient a[j][i]. -/
def rsCoef (j i : Nat) : Nat := rsInv ((24 + j) ^^^ i)

/-- Row of shard s in terms of the K data shards: a unit row, or a parity row. -/
def rsRow (k s : Nat) : List Nat :=
  if s < k then (upTo k).map (fun i => if i = s then 1 else 0) else (upTo k).map (rsCoef (s - k))

def rsDot (row : List Nat) (v : List Nat) : Nat :=
  (List.zip row v).foldl (fun x p => x ^^^ rsMul p.1 p.2) 0

/-- Parity byte j over one byte of each data shard. -/
def rsParity (j : Nat) (d : List Nat) : Nat := rsDot ((upTo d.length).map (rsCoef j)) d

def rowAdd (f : Nat) (src dst : List Nat) : List Nat :=
  List.zipWith (fun a b => a ^^^ rsMul f b) dst src

/-- Gauss-Jordan elimination: columns still to do, their index, rows extended by the right-hand side. -/
def rsSolve : Nat → Nat → List (List Nat) → List (List Nat)
  | 0, _, m => m
  | n + 1, c, m =>
    match (m.drop c).findIdx? (fun r => lget r c != 0) with
    | none => m
    | some i =>
      let pr := (m[c + i]?).getD []
      let m := m.set (c + i) ((m[c]?).getD [])
      let inv := rsInv (lget pr c)
      let pr := pr.map (rsMul inv)
      let m := m.map (fun r => rowAdd (lget r c) pr r)
      rsSolve n (c + 1) (m.set c pr)

/-- The K data bytes from K surviving shards (index, byte). -/
def rsData (k : Nat) (have_ : List (Nat × Nat)) : List Nat :=
  let m := (have_.take k).map (fun p => rsRow k p.1 ++ [p.2])
  (rsSolve k 0 m).map (fun r => lget r k)

/-- Byte of shard s from K surviving shards. -/
def rsRebuild (k s : Nat) (have_ : List (Nat × Nat)) : Nat := rsDot (rsRow k s) (rsData k have_)

/-! ### BCH over GF(2^12), polynomial x^12 + x^6 + x^4 + x + 1 (02 R55) -/

def gfX (b : Nat) : Nat := if b < 2048 then 2 * b else (2 * b) ^^^ 0x1053

def gfMulN : Nat → Nat → Nat → Nat
  | 0, _, _ => 0
  | n + 1, a, b => (if b % 2 = 1 then a else 0) ^^^ gfMulN n (gfX a) (b / 2)

def gfMul (a b : Nat) : Nat := gfMulN 12 a b

def gfPowN : Nat → Nat → Nat → Nat
  | 0, _, _ => 1
  | n + 1, a, e => gfMul (if e % 2 = 1 then a else 1) (gfPowN n (gfMul a a) (e / 2))

/-- a^e for e below 2^12. -/
def gfPow (a e : Nat) : Nat := gfPowN 12 a e

def gfInv (a : Nat) : Nat := gfPow a 4094

/-- Polynomial over GF(2^12), lowest coefficient first, times (x + r). -/
def polyRoot (p : List Nat) (r : Nat) : List Nat :=
  List.zipWith (· ^^^ ·) (0 :: p) ((p.map (gfMul r)) ++ [0])

/-- The twelve conjugates of a. -/
def conjugates : Nat → Nat → List Nat
  | 0, _ => []
  | n + 1, a => a :: conjugates n (gfMul a a)

/-- Binary polynomial (bit i: coefficient of x^i) from coefficients 0 and 1. -/
def polyBits (p : List Nat) : Nat := p.foldr (fun c acc => c % 2 + 2 * acc) 0

/-- Minimal polynomial of α^i; every odd i below 64 has twelve conjugates. -/
def minPoly (i : Nat) : Nat := polyBits ((conjugates 12 (gfPow 2 i)).foldl polyRoot [1])

/-- Product of binary polynomials. -/
def clMul : Nat → Nat → Nat → Nat
  | 0, _, _ => 0
  | n + 1, a, b => (if b % 2 = 1 then a else 0) ^^^ clMul n (2 * a) (b / 2)

/-- Generator polynomial of the code that corrects t errors. -/
def bchGen (t : Nat) : Nat := (upTo t).foldl (fun g k => clMul 13 g (minPoly (2 * k + 1))) 1

/-- Remainder of a binary polynomial, degree of the divisor c; n leading bits are cleared. -/
def clMod (c g : Nat) : Nat → Nat → Nat
  | 0, x => x
  | n + 1, x => clMod c g n (if x.testBit (n + c) then x ^^^ (g <<< n) else x)

/-- Errors corrected by a profile (R55). -/
def bchT : Profile → Nat
  | .strong => 32
  | .light => 8

/-- Check bits of a 2,208-bit message: x^c * m(x) mod g(x). -/
def bchCheck (p : Profile) (m : Nat) : Nat :=
  let c := 12 * bchT p
  clMod c (bchGen (bchT p)) 2208 (m <<< c)

/-- Value of a binary polynomial at x, n bits from the top (Horner). -/
def bitsAt (x : Nat) (w : Nat) : Nat → Nat → Nat
  | 0, acc => acc
  | n + 1, acc => bitsAt x w n (gfMul acc x ^^^ (if w.testBit n then 1 else 0))

/-- Syndromes S_1 to S_2t of a codeword of n bits. -/
def syndromes (t n w : Nat) : List Nat := (upTo (2 * t)).map (fun i => bitsAt (gfPow 2 (i + 1)) w n 0)

/-- Berlekamp-Massey: steps left, step number, locator, previous locator, its length, gap, discrepancy. -/
def bmSteps (s : List Nat) : Nat → Nat → List Nat → List Nat → Nat → Nat → Nat → List Nat × Nat
  | 0, _, c, _, l, _, _ => (c, l)
  | n + 1, k, c, b, l, m, bd =>
    let d := (upTo (l + 1)).foldl (fun x i => x ^^^ gfMul (lget c i) (lget s (k - i))) 0
    if d = 0 then bmSteps s n (k + 1) c b l (m + 1) bd
    else
      let f := gfMul d (gfInv bd)
      let sh := List.replicate m 0 ++ b.map (gfMul f)
      let w := max c.length sh.length
      let c' := (upTo w).map (fun i => lget c i ^^^ lget sh i)
      if 2 * l ≤ k then bmSteps s n (k + 1) c' c (k + 1 - l) 1 d
      else bmSteps s n (k + 1) c' b l (m + 1) bd

def polyAt (p : List Nat) (x : Nat) : Nat := p.foldr (fun c acc => gfMul acc x ^^^ c) 0

/-- Positions below n where the locator has a root α^(-position). -/
def chien (p : List Nat) : Nat → Nat → Nat → List Nat
  | 0, _, _ => []
  | n + 1, j, x =>
    if polyAt p x = 0 then j :: chien p n (j + 1) (gfMul x (gfPow 2 4094))
    else chien p n (j + 1) (gfMul x (gfPow 2 4094))

/-- Correct a codeword of n bits; the word and how many bits were corrected, `none` past t errors. -/
def bchCorrect (t n w : Nat) : Option (Nat × Nat) :=
  if clMod (12 * t) (bchGen t) (n - 12 * t) w = 0 then some (w, 0)
  else
    let s := syndromes t n w
    let (c, l) := bmSteps s (2 * t) 0 [1] [1] 0 1 1
    if t < l then none
    else
      let roots := chien c n 0 1
      if roots.length = l then some (roots.foldl (fun w j => w ^^^ 2 ^ j) w, l) else none

/-! ### Line metadata (02 R59, R60) -/

/-- Role of a line in its stripe (R60). -/
inductive Role where
  | data | parity | primary | copy | reserved
  deriving DecidableEq, Repr

def roleCode : Role → Nat
  | .data => 0
  | .parity => 1
  | .primary => 2
  | .copy => 3
  | .reserved => 4

def mkTag (lzone lstripe : Nat) (r : Role) : Nat :=
  pack [(3, roleCode r), (12, lstripe), (21, lzone)]

/-- The metadata of a line. -/
structure Meta where
  tag    : Nat
  wseq   : Nat
  keyId  : Nat
  light  : Bool
  mac    : Nat
  dstamp : Nat
  full   : Bool
  deriving DecidableEq, Repr

def metaBits (m : Meta) : Nat :=
  pack [(36, m.tag), (40, m.wseq), (7, m.keyId), (1, bool01 m.light), (56, m.mac), (16, m.dstamp),
        (1, bool01 m.full)]

def metaOf (x : Nat) : Meta :=
  { tag := fld x 0 36, wseq := fld x 36 40, keyId := fld x 76 7, light := x.testBit 83,
    mac := fld x 84 56, dstamp := fld x 140 16, full := x.testBit 156 }

/-! ### The image of a line (R53, R54, R321): data, check bits, metadata from bit 0 up -/

/-- n cells at L15: symbol 0x8. -/
def l15Cells : Nat → Nat
  | 0 => 0
  | n + 1 => 8 + 16 * l15Cells n

/-- Every cell pre-cleared (R45). -/
def blankImage : Image := BitVec.ofNat 2592 (l15Cells 648)

/-- The image of data bits and metadata bits under a profile. -/
def encodeBits (p : Profile) (data meta_ : Nat) : Image :=
  let chk := bchCheck p (data + meta_ * 2 ^ 2048)
  let mid :=
    match p with
    | .strong => chk
    | .light => chk % 2 ^ 96 + l15Cells 72 * 2 ^ 96
  BitVec.ofNat 2592 (data % 2 ^ 2048 + mid * 2 ^ 2048 + meta_ % 2 ^ 160 * 2 ^ 2432)

def encodeLine (p : Profile) (data : LineData) (m : Meta) : Image :=
  encodeBits p data.toNat (metaBits m)

/-- The codeword that a sensed image holds: check bits, then data, then metadata. -/
def codeword (p : Profile) (img : Image) : Nat :=
  let x := img.toNat
  let c := 12 * bchT p
  fld x 2048 c + (fld x 0 2048) * 2 ^ c + (fld x 2432 160) * 2 ^ (c + 2048)

/-- Decode a sensed image: data, metadata, bits corrected (R56). -/
def decodeLine (p : Profile) (img : Image) : Option (LineData × Meta × Nat) :=
  let c := 12 * bchT p
  match bchCorrect (bchT p) (c + 2208) (codeword p img) with
  | none => none
  | some (w, n) => some (BitVec.ofNat 2048 (fld w c 2048), metaOf (fld w (c + 2048) 160), n)

/-- Decode of a sensed image. The blank line lies past t errors under both profiles, so that decodeLine gives
nothing for it; a sense that returns it needs no decode (R62; log entry 33). -/
def decodeSensed (p : Profile) (img : Image) : Option (LineData × Meta × Nat) :=
  if img = blankImage then none else decodeLine p img

/-- Cells that read L15. -/
def countL15 : Nat → Nat → Nat
  | 0, _ => 0
  | n + 1, x => (if x % 16 = 8 then 1 else 0) + countL15 n (x / 16)

/-- At least 632 of 648 cells read L15; with a failed decode the line is BLANK (R62). -/
def looksBlank (img : Image) : Bool := decide (632 ≤ countL15 648 img.toNat)

/-! ### Levels, symbols and verify windows (02 R43, R44; 04 R146) -/

/-- The symbol stored in level Li: its reflected Gray code (R44). -/
def symbolOf (level : Nat) : Nat := level ^^^ (level >>> 1)

/-- The level that stores a symbol. -/
def levelOf (symbol : Nat) : Nat :=
  let a := symbol ^^^ (symbol >>> 1)
  a ^^^ (a >>> 2)

/-- Nominal code of a level. -/
def nominalCode (level : Nat) : Nat := 32 + 10 * level

/-- A code lies inside the verify window of a level: within 3 of its nominal code, or at 179 and above for L15. -/
def inWindow (level code : Nat) : Bool :=
  decide (nominalCode level ≤ code + 3) && (decide (level = 15) || decide (code ≤ nominalCode level + 3))

/-- The symbol of cell k of an image. -/
def cellSymbol (img : Image) (k : Nat) : Nat := fld img.toNat (4 * k) 4

/-- Cells that a set step pulses: those whose target is below L15 and whose code lies above its window. -/
def setPulsed (img : Image) (l : List CellCode) : List CellCode :=
  l.filter (fun x =>
    let i := levelOf (cellSymbol img x.cell)
    decide (i < 15) && decide (nominalCode i + 3 < x.code.toNat))

/-- Cells that a reset step pulses: those not yet at code 179. -/
def resetPulsed (l : List CellCode) : List CellCode := l.filter (fun x => decide (x.code.toNat < 179))

/-- The count of R146 step 3: cells of a line outside their verify windows, of those that are not at their nominal
code. -/
def outsideCount (img : Image) (l : List CellCode) : Nat :=
  (l.filter (fun x => !inWindow (levelOf (cellSymbol img x.cell)) x.code.toNat)).length

/-- What a sense or a program finds where the step's operands say nothing: no noise and no failure. -/
def noAnswers : Answers := { noise := [], outside := [], silent := [], residue := [] }

/-- Up to n reset steps, each followed by a verify sense, until no cell is below code 179 (R146 step 1); the senses
that are left. -/
def resetSteps : Nat → List (List CellCode) → List (List CellCode)
  | 0, l => l
  | _ + 1, [] => []
  | n + 1, x :: l => if (resetPulsed x).isEmpty then l else resetSteps n l

/-- Up to n set steps, each followed by a verify sense, until no cell stands above its window (R146 step 2); what the
last sense finds. -/
def setSteps (img : Image) : Nat → List (List CellCode) → List CellCode
  | _, [] => []
  | 0, x :: _ => x
  | n + 1, x :: l => if (setPulsed img x).isEmpty then x else setSteps img n l

/-- What the last verify sense of a program finds: three reset steps at most, or one verify sense of a pre-cleared line,
then sixteen set steps at most (R146). -/
def programCells (pre : Bool) (img : Image) (senses : List (List CellCode)) : List CellCode :=
  setSteps img 15 (if pre then senses.drop 1 else resetSteps 3 senses)

/-- What the verify senses of attempt n (from 0) at programming a line find. -/
def attemptSenses (ans : Answers) (p : Pla) (n : Nat) : List (List CellCode) :=
  ((ans.outside.find? (fun x => x.pla == p)).bind (fun x => x.tries[n]?)).getD []

end Sys2Proof.Machine
end

