-- ==== Sys2Proof/Machine/Flags.lean ====
section
/-!
DEFINITION. The event fabric and the counters (14): sources and their levels, coalescing and storms, the
intake queue and the log, the ATTN level, hold bits, TOGGLE, and the counter array.
-/

namespace Sys2Proof.Machine

/-! ### Sources (R510, R511) -/

/-- Sense, default level and whether it is fixed. -/
structure SrcInfo where
  isLevel : Bool
  level   : Nat
  fixed   : Bool
  deriving DecidableEq, Repr

def edgeSrc (l : Nat) : SrcInfo := ⟨false, l, false⟩
def edgeF (l : Nat) : SrcInfo := ⟨false, l, true⟩
def levelSrc (l : Nat) : SrcInfo := ⟨true, l, false⟩
def levelF (l : Nat) : SrcInfo := ⟨true, l, true⟩

def laneInfos : List SrcInfo :=
  [levelF 3, edgeF 1, edgeSrc 2, edgeSrc 3, edgeSrc 2, edgeSrc 1, edgeSrc 3, edgeSrc 1, edgeSrc 1,
   edgeSrc 1]

def dieInfos : List SrcInfo := [edgeSrc 2, levelF 3]
def railInfos : List SrcInfo := [edgeSrc 4, edgeSrc 2, levelSrc 1]
def bankInfos : List SrcInfo := [edgeSrc 1, levelSrc 4, edgeSrc 3]
def sensorInfos : List SrcInfo := [levelSrc 2, edgeSrc 3]
def thermalInfos : List SrcInfo := [levelSrc 3, levelSrc 4, edgeSrc 2, levelSrc 1]
def coreInfos : List SrcInfo := [edgeF 4, edgeSrc 3, levelF 4]

def engineInfos : List SrcInfo :=
  [edgeF 3, edgeF 4, edgeF 2, edgeF 3, edgeF 3, edgeSrc 2, edgeSrc 1, edgeF 3]

def securityInfos : List SrcInfo :=
  [edgeF 6, edgeSrc 4, edgeSrc 1, edgeSrc 3, edgeSrc 4, edgeF 1, edgeSrc 4, edgeSrc 1, edgeSrc 3,
   levelF 4]

def headInfos : List SrcInfo :=
  [edgeSrc 2, edgeSrc 3, edgeF 3, edgeSrc 1, edgeSrc 1, edgeSrc 1, edgeSrc 3, levelSrc 3, edgeF 4]

def platformInfos : List SrcInfo :=
  [levelF 3, levelF 5, levelF 7, edgeF 4, levelF 2, edgeF 2, levelF 2, levelF 3, levelF 4, levelF 3,
   edgeF 4, edgeSrc 1, edgeF 4, edgeF 3, levelF 4, edgeSrc 1, edgeSrc 1, edgeSrc 0, edgeSrc 3,
   edgeSrc 1, edgeSrc 1, edgeSrc 2, edgeSrc 3, edgeF 4, edgeF 3, edgeF 3, levelSrc 4]

/-- What R511 gives a source number; `none` for a reserved index. -/
def srcInfo (n : Nat) : Option SrcInfo :=
  if n < 384 then laneInfos[n % 24]?
  else if n < 640 then dieInfos[(n - 384) % 2]?
  else if n < 688 then railInfos[(n - 640) % 4]?
  else if n < 704 then bankInfos[n - 688]?
  else if n < 736 then sensorInfos[(n - 704) % 2]?
  else if n < 768 then thermalInfos[n - 736]?
  else if n < 832 then coreInfos[(n - 768) % 4]?
  else if n < 864 then some (edgeF 3)
  else if n < 896 then engineInfos[n - 864]?
  else if n < 960 then securityInfos[n - 896]?
  else if n < 992 then headInfos[(n - 960) % 16]?
  else platformInfos[n - 992]?

/-! Source numbers by name. -/
def evLane (lane k : Nat) : Nat := 24 * lane + k
def evDie (lane pos k : Nat) : Nat := 384 + 2 * (8 * lane + pos) + k
def evRail (r k : Nat) : Nat := 640 + 4 * r + k
def evBank (k : Nat) : Nat := 688 + k
def evSensor (s k : Nat) : Nat := 704 + 2 * s + k
def evThermal (k : Nat) : Nat := 736 + k
def evCore (c k : Nat) : Nat := 768 + 4 * c + k
def evDma (c : Nat) : Nat := 832 + c
def evEngine (k : Nat) : Nat := 864 + k
def evSecurity (k : Nat) : Nat := 896 + k
def evHead (h : Head) (k : Nat) : Nat := 960 + 16 * headNum h + k
def evPlatform (k : Nat) : Nat := 992 + k

/-! ### One source's state -/

def srcQuiet : SrcSt :=
  { state := .quiet, count := 0, wcount := 0, first := 0, last := 0, windowEnd := 0,
    asserted := false, detail := 0 }

def EventBlock.src (e : EventBlock) (n : Nat) : SrcSt := tget srcQuiet e.sources n

def EventBlock.setSrc (e : EventBlock) (n : Nat) (x : SrcSt) : EventBlock :=
  { e with sources := tset srcQuiet e.sources n x }

/-- Level in force: EV_SRC_CFG.LEVEL when written, else the default (R541). -/
def EventBlock.levelOf (e : EventBlock) (n : Nat) : Nat :=
  match tget 0 e.levels n with
  | 0 => ((srcInfo n).map SrcInfo.level).getD 0
  | l + 1 => l

def EventBlock.threshOf (e : EventBlock) (n : Nat) : Nat := tget 64 e.thresh n

/-! ### Counters (R528) -/

/-- Add k to counter n, modulo 2^64. -/
def EventBlock.bump (e : EventBlock) (n k : Nat) : EventBlock :=
  { e with counters := tmod 0 e.counters n (fun c => c + BitVec.ofNat 64 k) }

/-- Whether R528 lists counter n. -/
def counterListed (n : Nat) : Bool :=
  if n < 1024 then decide (n % 64 ≤ 12)
  else if n < 1152 then decide (n % 64 ≤ 8)
  else if n < 1216 then decide (n - 1152 ≤ 6)
  else if n < 1280 then decide (n - 1216 ≤ 1)
  else if n < 1408 then decide (n % 4 ≤ 2)
  else if n < 1536 then decide (n - 1408 ≤ 4)
  else if n < 1600 then decide (n - 1536 ≤ 3)
  else decide (n - 1600 ≤ 8)

def cntLane (lane k : Nat) : Nat := 64 * lane + k
def cntHead (h : Head) (k : Nat) : Nat := 1024 + 64 * headNum h + k
def cntCache (k : Nat) : Nat := 1152 + k
def cntToll (k : Nat) : Nat := 1216 + k
def cntDma (c k : Nat) : Nat := 1280 + 4 * c + k
def cntEngine (k : Nat) : Nat := 1408 + k
def cntPlace (k : Nat) : Nat := 1536 + k

/-! ### The log (R517-R519, R525, R527) -/

def attnHold (a : Attn) (level : Nat) : Attn := { a with hold := a.hold ||| (1 <<< level) }

/-- Write a record into the log: next sequence, hold bit, LAST_SEQ, TOGGLE and the record counter. -/
def EventBlock.write (e : EventBlock) (r : LogRec) : EventBlock :=
  let seq := e.headSeq + 1
  let e := { e with log := ({ r with seq := seq } :: e.log).take 4096, headSeq := seq }
  let e := e.bump (1600 + r.level) 1
  if r.level = 0 then e
  else
    { e with
      attnA := attnHold e.attnA r.level, attnB := attnHold e.attnB r.level,
      attnS := attnHold e.attnS r.level,
      lastSeq := e.lastSeq.set r.level seq, toggle := !e.toggle }

/-- Offer a record to the log: written at once when the log is free, else queued, else lost (R519). -/
def EventBlock.offer (e : EventBlock) (now : Nat) (r : LogRec) : EventBlock :=
  if e.intake.isEmpty && decide (e.nextLogAt ≤ now) then
    { e.write r with nextLogAt := now + 20 }
  else if e.intake.length < 256 then { e with intake := e.intake ++ [r] }
  else
    { e with
      lostRecs := min (e.lostRecs + 1) (2 ^ 32 - 1), lostLevel := max e.lostLevel r.level,
      lostSince := e.lostSince + 1, lostPending := true }

/-- Records have been lost, and the queue holds 128 records or fewer again (R519, step 3). -/
def EventBlock.lostDue (e : EventBlock) : Bool := e.lostPending && decide (e.intake.length ≤ 128)

/-- The LOST record takes the next place of the log. -/
def EventBlock.lostRecord (e : EventBlock) (now : Nat) : EventBlock :=
  if e.lostDue && decide (e.nextLogAt ≤ now) then
    let r : LogRec :=
      { seq := 0, src := evPlatform 17, level := e.lostLevel, kind := 6, asserted := false,
        stamp := now, last := now, count := e.lostSince, detail := 0 }
    { e.write r with lostPending := false, lostSince := 0, lostLevel := 0, nextLogAt := now + 20 }
  else e

/-- Records enter the log, one every 20 ns, up to instant now. -/
def drainIntake (now : Nat) : Nat → EventBlock → EventBlock
  | 0, e => e
  | n + 1, e =>
    if now < e.nextLogAt then e
    else if e.lostDue then drainIntake now n (e.lostRecord e.nextLogAt)
    else match e.intake with
      | [] => e
      | r :: rest => drainIntake now n { ({ e with intake := rest }).write r with nextLogAt := e.nextLogAt + 20 }

/-! ### Occurrences (R512-R515) -/

def mkRec (src level kind : Nat) (asserted : Bool) (stamp last count : Nat) (detail : BitVec 256) :
    LogRec :=
  { seq := 0, src := src, level := level, kind := kind, asserted := asserted, stamp := stamp,
    last := last, count := count, detail := detail }

def EventBlock.windowNs (e : EventBlock) : Nat := e.coalMs.toNat * msNs

/-- The end of a source's coalescing window (R514, right column). -/
def EventBlock.windowEnds (e : EventBlock) (now n : Nat) : EventBlock :=
  let s := e.src n
  let lvl := e.levelOf n
  match s.state with
  | .quiet => e
  | .coalescing =>
    if s.count = 0 then e.setSrc n { s with state := .quiet }
    else
      (e.offer now (mkRec n lvl 1 s.asserted s.first s.last s.count s.detail)).setSrc n
        { s with count := 0, windowEnd := s.windowEnd + e.windowNs }
  | .storm =>
    if s.wcount ≤ e.threshOf n / 4 then
      (e.offer now (mkRec n lvl 3 s.asserted s.first s.last s.count s.detail)).setSrc n
        { s with state := .quiet, count := 0, wcount := 0 }
    else e.setSrc n { s with wcount := 0, windowEnd := s.windowEnd + e.windowNs }

/-- Window ends that have passed before now take effect first; two at most change anything. -/
def EventBlock.settleSrc (e : EventBlock) (now n : Nat) : EventBlock :=
  let e1 := if (e.src n).windowEnd ≤ now then e.windowEnds now n else e
  if (e1.src n).windowEnd ≤ now then e1.windowEnds now n else e1

/-- One occurrence: kind of the record made in QUIET, and whether a level source is then asserted. -/
def EventBlock.occur (e : EventBlock) (now n kind : Nat) (asserted : Bool) (detail : BitVec 256) :
    EventBlock :=
  match srcInfo n with
  | none => e
  | some _ =>
    let e := e.settleSrc now n
    let s := { e.src n with asserted := asserted }
    let lvl := e.levelOf n
    match s.state with
    | .quiet =>
      let rl := if kind = 5 then (if lvl = 0 then 0 else 1) else lvl
      (e.offer now (mkRec n rl kind asserted now now 1 detail)).setSrc n
        { s with state := .coalescing, count := 0, wcount := 0, windowEnd := now + e.windowNs,
                 detail := detail }
    | .coalescing =>
      let s := if s.count = 0 then { s with first := now, detail := detail } else s
      let s := { s with count := s.count + 1, last := now }
      if e.threshOf n ≠ 0 ∧ e.threshOf n < s.count then
        (e.offer now (mkRec n lvl 2 s.asserted s.first s.last s.count s.detail)).setSrc n
          { s with state := .storm, count := 0, wcount := 0 }
      else e.setSrc n s
    | .storm =>
      let s := if s.count = 0 then { s with first := now, detail := detail } else s
      (e.bump 1608 1).setSrc n
        { s with count := s.count + 1, wcount := s.wcount + 1, last := now }

/-- DETAIL from values at record bytes 32 and up (R521). -/
def detailOf (l : List (Nat × Nat)) : BitVec 256 :=
  BitVec.ofNat 256 (l.foldl (fun acc p => acc + p.2 * 256 ^ (p.1 - 32)) 0)

/-- The registers of the event block, which occurrences and time leave as they are. -/
def EventBlock.keepCfg (old new : EventBlock) : EventBlock :=
  { new with
    levels := old.levels, thresh := old.thresh, coalMs := old.coalMs, wallOffset := old.wallOffset,
    wallSet := old.wallSet, srcSel := old.srcSel, dumpHead := old.dumpHead, slotsM1 := old.slotsM1,
    periodMs := old.periodMs, dumpBase := old.dumpBase, windowUs := old.windowUs, trHead := old.trHead,
    trKinds := old.trKinds, trRate := old.trRate, trDepth := old.trDepth, trBase := old.trBase,
    cpages := old.cpages }

/-- An occurrence at a source of the device. -/
def Dev.occur (d : Dev) (n kind : Nat) (on : Bool) (detail : BitVec 256) : Dev :=
  { d with ev := d.ev.keepCfg (d.ev.occur d.now n kind on detail) }

/-- An edge source's condition occurs. -/
def Dev.event (d : Dev) (n : Nat) (detail : BitVec 256 := 0) : Dev := d.occur n 0 false detail

/-- A level source's condition holds or does not: an assertion or deassertion is an occurrence (R512). -/
def Dev.level (d : Dev) (n : Nat) (on : Bool) (detail : BitVec 256 := 0) : Dev :=
  if (d.ev.src n).asserted = on then d else d.occur n (if on then 4 else 5) on detail

/-- A further occurrence of an asserted level source (R297 DEFICIT, RESIDENT). -/
def Dev.levelAgain (d : Dev) (n : Nat) (detail : BitVec 256) : Dev :=
  d.occur n 4 true detail

def Dev.count (d : Dev) (n k : Nat) : Dev := { d with ev := d.ev.keepCfg (d.ev.bump n k) }

/-- At most one event of source n per period, keyed in a table of last instants (R167, R187, R340). -/
def onceEvery (last : Sparse Nat) (key now period : Nat) : Bool × Sparse Nat :=
  let at_ := tget 0 last key
  if at_ ≠ 0 ∧ now + 1 < at_ + period then (false, last) else (true, tset 0 last key (now + 1))

/-! ### ATTN (R524, R525) -/

/-- Highest level among asserted level sources (COND). -/
def EventBlock.cond (e : EventBlock) : Nat :=
  e.sources.foldl (fun m p => if p.2.asserted then max m (e.levelOf p.1) else m) 0

/-- Highest set hold bit (HELD). -/
def heldOf (hold : BitVec 8) : Nat :=
  (upTo 8).foldl (fun m l => if 1 ≤ l ∧ hold.toNat.testBit l then l else m) 0

def EventBlock.attn (e : EventBlock) : Port → Attn
  | .head .a => e.attnA
  | .head .b => e.attnB
  | .sideband => e.attnS

def EventBlock.setAttn (e : EventBlock) (p : Port) (a : Attn) : EventBlock :=
  match p with
  | .head .a => { e with attnA := a }
  | .head .b => { e with attnB := a }
  | .sideband => { e with attnS := a }

/-- The ATTN level of a head or the sideband. -/
def EventBlock.attnLevel (e : EventBlock) (p : Port) : Nat :=
  max (max e.cond (heldOf (e.attn p).hold)) e.lostLevel

/-- Sequence a is later than b (R518). -/
def seqLater (a b : BitVec 32) : Bool :=
  let n := (a - b).toNat
  decide (1 ≤ n) && decide (n ≤ 2 ^ 31 - 1)

/-- Hold bits left after an acknowledgement of sequence s. -/
def holdAfter (e : EventBlock) (hold : BitVec 8) (s : BitVec 32) : BitVec 8 :=
  BitVec.ofNat 8 ((upTo 8).foldl (fun acc l =>
    if hold.toNat.testBit l && seqLater ((e.lastSeq[l]?).getD 0) s then acc + 2 ^ l else acc) 0)

/-- A write of sequence s to ATTN_ACK; an s later than HEAD_SEQ is ignored (R525). -/
def EventBlock.ack (e : EventBlock) (p : Port) (s : BitVec 32) : EventBlock :=
  if seqLater s e.headSeq then e
  else
    let a := e.attn p
    e.setAttn p { hold := holdAfter e a.hold s, ackSeq := s }

/-! ### Dumps (R531, R548) -/

/-- LAST_DSEQ at an instant: the newest dump counts once it is complete. -/
def EventBlock.lastDone (e : EventBlock) (now : Nat) : BitVec 32 :=
  if now < e.dumpDoneAt ∨ e.dumpSeq = 0 then e.lastDseq else e.dumpSeq - 1

/-! ### Register events -/

/-- A write of a reserved value, a locked field or an unassigned offset by a head or the sideband. -/
def Dev.regReserved (d : Dev) (p : Port) (offset : Nat) : Dev :=
  match p with
  | .head h => d.event (evHead h 5) (detailOf [(32, offset), (40, 0), (41, 1)])
  | .sideband => d.event (evPlatform 19) (detailOf [(32, offset), (40, 255), (41, 1)])

/-! ### Bandwidth (R534) and region counters (R538) -/

def addBw (l : List (Nat × Nat)) (i rd wr : Nat) : List (Nat × Nat) :=
  l.modify i (fun p => (p.1 + rd, p.2 + wr))

/-- A window is in progress: after a write of BW_CFG the next one starts at a multiple of WINDOW_US. -/
def Dev.windowOpen (d : Dev) : Bool := decide (d.ev.windowAt ≤ d.now)

def Dev.bwHead (d : Dev) (h : Head) (rd wr : Nat) : Dev :=
  if d.windowOpen then { d with ev := { d.ev with bwNow := addBw d.ev.bwNow (headNum h) rd wr } } else d

/-- Bytes between a lane and its dies: counters 11 and 12 of the lane, and its bandwidth window. -/
def Dev.laneBytes (d : Dev) (lane rd wr : Nat) : Dev :=
  let e := if d.windowOpen then { d.ev with bwNow := addBw d.ev.bwNow (2 + lane) rd wr } else d.ev
  { d with ev := (e.bump (cntLane lane 11) rd).bump (cntLane lane 12) wr }

/-- Region counter k (0 reads ... 5 dropped writes) of R538. -/
def Dev.regionCount (d : Dev) (region k n : Nat) : Dev :=
  { d with ev := { d.ev with
      regionCnt := tmod 0 d.ev.regionCnt (region * 6 + k) (fun c => c + BitVec.ofNat 64 n) } }

end Sys2Proof.Machine
end

