-- ==== Sys2Proof/Machine/Cabinet.lean ====
section
/-!
DEFINITION. The Cabinet (18): record pairs, the choice of a copy, writes one at a time, erasure, the repair
pool and the milestone counters. A record is kept as its fields; a copy that fails R657 is kept as torn.
-/

namespace Sys2Proof.Machine

/-! ### The catalogue (R664) -/

def cabLifetime : Nat := 0x01
def cabDrainRec : Nat := 0x02
def cabFirstFail : Nat := 0x03
def cabZtPtr : Nat := 0x04
def cabFwSlot : Nat := 0x05
def cabKwk : Nat := 0x06
def cabBankTest : Nat := 0x07
def cabPassword : Nat := 0x08
def cabRail : Nat := 0x09
def cabLane : Nat := 0x0A
def cabBistSig : Nat := 0x0B
def cabDriftCkpt : Nat := 0x0C
def cabDriftCal : Nat := 0x0D
def cabKey : Nat := 0x0E
def cabRepair : Nat := 0x0F

/-- Pair of a record with a fixed home. -/
def cabPair (typ id : Nat) : Option Nat :=
  match typ with
  | 0x01 => if id = 0 then some 0 else none
  | 0x02 => if id = 0 then some 1 else none
  | 0x03 => if id = 0 then some 2 else none
  | 0x04 => if id = 0 then some 3 else none
  | 0x05 => if id = 0 then some 4 else none
  | 0x06 => if id = 0 then some 5 else none
  | 0x07 => if id = 0 then some 6 else none
  | 0x08 => if id < 3 then some (7 + id) else none
  | 0x09 => if id < 12 then some (10 + id) else none
  | 0x0A => if id < 16 then some (22 + id) else none
  | 0x0B => if id < 8 then some (38 + id) else none
  | 0x0C => if id < 29 then some (46 + id) else none
  | 0x0D => if id < 128 then some (75 + id) else none
  | 0x0E => if 1 ≤ id ∧ id < 128 then some (202 + id) else none
  | _ => none

/-- Pairs 330 to 902 are the repair pool. -/
def cabPool (pair : Nat) : Bool := decide (330 ≤ pair) && decide (pair ≤ 902)

/-- TYPE and ID that R664 assigns to a pair outside the pool. -/
def cabHome (pair : Nat) : Option (Nat × Nat) :=
  if pair ≤ 6 then some (pair + 1, 0)
  else if pair ≤ 9 then some (cabPassword, pair - 7)
  else if pair ≤ 21 then some (cabRail, pair - 10)
  else if pair ≤ 37 then some (cabLane, pair - 22)
  else if pair ≤ 45 then some (cabBistSig, pair - 38)
  else if pair ≤ 74 then some (cabDriftCkpt, pair - 46)
  else if pair ≤ 202 then some (cabDriftCal, pair - 75)
  else if pair ≤ 329 then some (cabKey, pair - 202)
  else none

/-! ### Bytes of the Cabinet (R654-R656, R666) -/

/-- Address of a slot. -/
def cabAddr (pair s : Nat) : Nat := 0x400 + 144 * pair + 72 * s

/-- Generator polynomial of the code of R655: the minimal polynomials of α and α^3 over x^8 + x^4 + x^3 + x^2 + 1. -/
def cabGen : Nat := 0x16F63

/-- The 16 check bits of a group of 16 record bytes. DESIGN CHOICE: bit b of the group, counted from the lowest bit of its
first byte, is the coefficient of x^(16 + b) (log entry 147). -/
def cabCheck (group : Nat) : Nat := clMod (group * 2 ^ 16) cabGen 16 128

/-- The 64 B record of a copy (R656). -/
def CabSlot.recordBytes (x : CabSlot) : List Byte :=
  let l := leBytes 1 x.typ.toNat ++ leBytes 1 x.len.toNat ++ leBytes 2 x.id.toNat ++ leBytes 4 x.seq.toNat ++
    leBytes 48 x.payload.toNat ++ leBytes 4 0
  l ++ leBytes 4 (crc32c l)

/-- The 72 B of a valid copy: the record and the check bits of its four groups (R655). -/
def CabSlot.bytes (x : CabSlot) : List Byte :=
  x.recordBytes ++ (upTo 4).flatMap (fun g => leBytes 2 (cabCheck (leNat ((x.recordBytes.drop (16 * g)).take 16))))

/-- Address and value of cell i of milestone counter c at value n (R666, R667): COUNT and its complement. -/
def milestoneCell (c n i : Nat) : Nat × BitVec 32 :=
  let count : BitVec 16 := BitVec.ofNat 16 (n / 512 + bool01 (decide (i < n % 512)))
  (0x20000 + 2048 * c + 4 * i, (~~~count) ++ count)

/-! ### Copies (R657, R658) -/

def CabBlock.slot (c : CabBlock) (pair s : Nat) : Option CabSlot := tget none c.slots (2 * pair + s)

def CabBlock.setSlot (c : CabBlock) (pair s : Nat) (x : Option CabSlot) : CabBlock :=
  { c with slots := tset none c.slots (2 * pair + s) x }

/-- R657: the copy's groups and CRC hold, and its TYPE and ID belong to the pair. -/
def cabValid (pair : Nat) (x : CabSlot) : Bool :=
  !x.torn &&
  ((decide (x.typ.toNat = 0) && decide (x.id.toNat = 0)) ||
   (if cabPool pair then decide (x.typ.toNat = cabRepair)
    else decide (cabHome pair = some (x.typ.toNat, x.id.toNat))))

/-- The winning slot of a pair and its copy (R658). -/
def CabBlock.winner (c : CabBlock) (pair : Nat) : Option (Nat × CabSlot) :=
  let v s := match c.slot pair s with
    | some x => if cabValid pair x then some x else none
    | none => none
  match v 0, v 1 with
  | none, none => none
  | some x, none => some (0, x)
  | none, some y => some (1, y)
  | some x, some y =>
    if x.seq = y.seq then (if x.seq.toNat % 2 = 0 then some (0, x) else some (1, y))
    else if (x.seq - y.seq).toNat < 2 ^ 31 then some (0, x) else some (1, y)

/-- Both copies valid with one sequence (R658). -/
def CabBlock.equalPair (c : CabBlock) (pair : Nat) : Bool :=
  match c.slot pair 0, c.slot pair 1 with
  | some x, some y => cabValid pair x && cabValid pair y && decide (x.seq = y.seq)
  | _, _ => false

/-- The record of a pair: its payload; a FREE winner holds no record (R663). -/
def CabBlock.record (c : CabBlock) (pair : Nat) : Option (BitVec 384) :=
  match c.winner pair with
  | some (_, x) => if x.typ = 0 then none else some x.payload
  | none => none

def CabBlock.lookup (c : CabBlock) (typ id : Nat) : Option (BitVec 384) := (cabPair typ id).bind c.record

/-- Bytes off to off + n - 1 of a payload, little-endian. -/
def cabFld (p : BitVec 384) (off n : Nat) : Nat := fld p.toNat (8 * off) (8 * n)

/-- A payload from fields: byte offset, bytes, value. -/
def cabPayload (l : List (Nat × Nat × Nat)) : BitVec 384 :=
  BitVec.ofNat 384 (l.foldl (fun a f => a + f.2.2 % 256 ^ f.2.1 * 256 ^ f.1) 0)

/-! ### Writes (R659, R660) -/

/-- Slot and SEQ that the next write of a pair takes. -/
def CabBlock.target (c : CabBlock) (pair : Nat) : Nat × BitVec 32 :=
  match c.winner pair with
  | some (s, x) => (1 - s, x.seq + 1)
  | none => (0, 0)

/-- Requests for one record: the later replaces one not started. -/
def samePlace (a b : CabReq) : Bool := decide (a.pair = b.pair) && decide (a.wipe = b.wipe)

/-- Insert by priority, behind requests of the same priority. -/
def insertReq (r : CabReq) : List CabReq → List CabReq
  | [] => [r]
  | x :: l => if r.prio < x.prio then r :: x :: l else x :: insertReq r l

def CabBlock.startNext (c : CabBlock) : CabBlock :=
  match c.busy, c.queue with
  | none, r :: l => { c with busy := some (r, 0), queue := l }
  | _, _ => c

def CabBlock.request (c : CabBlock) (r : CabReq) : CabBlock :=
  let q :=
    if c.queue.any (samePlace r) then c.queue.map (fun x => if samePlace r x then r else x)
    else insertReq r c.queue
  ({ c with queue := q }).startNext

/-- The copy a request writes, into the slot that does not hold the winner. -/
def CabBlock.put (c : CabBlock) (r : CabReq) (torn : Bool) : CabBlock :=
  if r.wipe then
    match c.winner r.pair with
    | some (s, _) => c.setSlot r.pair (1 - s) none
    | none => c
  else
    let (s, seq) := c.target r.pair
    c.setSlot r.pair s
      (some { typ := r.typ, len := r.len, id := r.id, seq := seq, payload := r.payload, torn := torn })

def cabReq (prio pair typ id len : Nat) (payload : BitVec 384) (after : CabAfter) : CabReq :=
  { prio := prio, pair := pair, typ := BitVec.ofNat 8 typ, len := BitVec.ofNat 8 len,
    id := BitVec.ofNat 16 id, payload := payload, wipe := false, after := after }

/-- FIRST_FAIL writes go first, then DRAIN writes, then the rest (R660). -/
def cabPrio (typ : Nat) : Nat := if typ = cabFirstFail then 0 else if typ = cabDrainRec then 1 else 2

/-- Ask for a record to be written. -/
def Dev.cabWrite (d : Dev) (typ id len : Nat) (payload : BitVec 384)
    (after : CabAfter := .nothing) : Dev :=
  match cabPair typ id with
  | none => d
  | some p => { d with cab := d.cab.request (cabReq (cabPrio typ) p typ id len payload after) }

/-- Ask for a pair to be erased: a FREE record, then zeros in the other slot (R663). -/
def Dev.cabErasePair (d : Dev) (pair : Nat) : Dev :=
  { d with cab := d.cab.request (cabReq 2 pair 0 0 0 0 .erase) }

/-- The write in progress took: the slot holds it, and an erase goes on with the other slot. -/
def CabBlock.done (c : CabBlock) (r : CabReq) : CabBlock :=
  let c := { c.put r false with busy := none }
  match r.after with
  | .erase => (c.request { r with wipe := true, after := .nothing }).startNext
  | _ => c.startNext

/-- Every request still queued is made at once: a step that ends only when they are durable. -/
def cabFlush : Nat → CabBlock → CabBlock
  | 0, c => c
  | n + 1, c =>
    match c.startNext.busy with
    | none => c
    | some (r, _) => cabFlush n (c.startNext.done r)

def Dev.cabSettle (d : Dev) : Dev := { d with cab := cabFlush (2 * d.cab.queue.length + 2) d.cab }

/-! ### The repair pool (R665) -/

def poolPairs : List Nat := (upTo 573).map (· + 330)

/-- A pool pair is free when it holds no REPAIR record. -/
def CabBlock.pairFree (c : CabBlock) (pair : Nat) : Bool := (c.record pair).isNone

def CabBlock.repairFree (c : CabBlock) : Nat := (poolPairs.filter c.pairFree).length

/-! ### Milestones (R666-R668) -/

def milestoneMax : Nat := 33553920

def CabBlock.milestone1 (c : CabBlock) (i : Nat) : CabBlock :=
  { c with milestone := c.milestone.modify i (fun n => min milestoneMax (n + 1)) }

def Dev.milestone (d : Dev) (i : Nat) : Dev := { d with cab := d.cab.milestone1 i }

def Dev.mile (d : Dev) (i : Nat) : Nat := lget d.cab.milestone i

/-! ### The scan after VAUX power-on (R657, R658, R660) -/

def cabDetail (pair s typ id : Nat) : BitVec 256 :=
  detailOf [(32, pair), (34, s), (35, typ), (36, id)]

/-- Plus one, saturating. -/
def sat16 (x : BitVec 16) : BitVec 16 := if x = 0xFFFF then x else x + 1

/-- One slot: an invalid copy that is not blank is counted and logged. -/
def scanSlot (d : Dev) (pair s : Nat) : Dev :=
  match d.cab.slot pair s with
  | none => d
  | some x =>
    if cabValid pair x then d
    else
      let home := (cabHome pair).getD (cabRepair, x.id.toNat)
      let c := { d.cab with invalid := sat16 d.cab.invalid }
      ({ d with cab := c }).event (evPlatform 21) (cabDetail pair s home.1 home.2)

/-- One pair: both slots, then equal sequences. -/
def scanPair (d : Dev) (pair : Nat) : Dev :=
  let d := scanSlot (scanSlot d pair 0) pair 1
  if d.cab.equalPair pair then
    let home := (cabHome pair).getD (cabRepair, 0)
    let slot := ((d.cab.winner pair).map Prod.fst).getD 0
    let c := { d.cab with equalSeq := sat16 d.cab.equalSeq }
    ({ d with cab := c }).event (evPlatform 22) (cabDetail pair slot home.1 home.2)
  else d

/-- Pairs that hold any copy, ascending; a blank pair raises nothing. -/
def CabBlock.usedPairs (c : CabBlock) : List Nat := (c.slots.map (fun p => p.1 / 2)).eraseDups

def Dev.cabScan (d : Dev) : Dev := d.each d.cab.usedPairs scanPair

/-! ### Passwords (R670, R673) -/

/-- Both slots of a pair blank. -/
def CabBlock.blankPair (c : CabBlock) (pair : Nat) : Bool :=
  (c.slot pair 0).isNone && (c.slot pair 1).isNone

/-- The partition's pair holds no usable record and is not blank. -/
def CabBlock.lostPassword (c : CabBlock) (part : Nat) : Bool :=
  (c.record (7 + part)).isNone && !c.blankPair (7 + part)

end Sys2Proof.Machine
end

