-- ==== Sys2Proof/Machine/Drift.lean ====
section
/-!
DEFINITION. Drift arithmetic (02): the Arrhenius factor, the integrals, zone and line ages, predicted
references and measured exponents. The manual's real-valued functions are computed in fixed point;
the rounding is the model's (log entry 11).
-/

namespace Sys2Proof.Machine

/-! ### Fixed point: 32 fraction bits -/

def fxOne : Nat := 2 ^ 32

/-- ln 2 and log10 2 in units of 2^-32. -/
def fxLn2 : Int := 2977044472
def fxLog10of2 : Nat := 1292913986

/-- Fraction bits of log2 of a mantissa in [1, 2) held in units of 2^-40: n bits, most significant first. -/
def log2Frac : Nat → Nat → Nat
  | 0, _ => 0
  | n + 1, m =>
    let m2 := m * m / 2 ^ 40
    if m2 < 2 ^ 41 then log2Frac n m2 else 2 ^ n + log2Frac n (m2 / 2)

/-- log2 of a positive natural in units of 2^-32. -/
def fxLog2 (x : Nat) : Nat :=
  let e := x.log2
  e * fxOne + log2Frac 32 (x * 2 ^ 40 / 2 ^ e)

/-- log10 of a positive natural in units of 2^-32. -/
def fxLog10 (x : Nat) : Nat := fxLog2 x * fxLog10of2 / fxOne

/-- Taylor sum of e^r: terms left, term number, term, sum. -/
def expTerms (r : Int) : Nat → Int → Int → Int → Int
  | 0, _, _, acc => acc
  | n + 1, k, term, acc =>
    let term' := term * r / (k * fxOne)
    expTerms r n (k + 1) term' (acc + term')

/-- e^x for x in units of 2^-32. -/
def fxExp (x : Int) : Nat :=
  let k := (x + fxLn2 / 2) / fxLn2
  let m := (expTerms (x - k * fxLn2) 16 1 fxOne fxOne).toNat
  if 0 ≤ k then m * 2 ^ k.toNat else m / 2 ^ (-k).toNat

/-- AF(T) in units of 2^-32, T in steps of 0.125 °C taken to the table's 0.25 °C (R64). DESIGN CHOICE: the manual
does not say which entry a reading between two entries takes; the model takes the next entry up (log entry 11). -/
def arrhenius (ea : Nat) (t8 : Int) : Nat :=
  let q := (t8 + 1) / 2
  let t100 := 27315 + 25 * q
  fxExp ((ea : Int) * 100000000 * (t100 - 32815) * fxOne / (8617 * 32815 * t100))

/-- °C in steps of 0.125. -/
def degC (t : Int) : Int := 8 * t

/-- What an integral gains over dt ns at factor af, in 2^-24 eq-h (R63, R64). -/
def driftGain (dtNs af : Nat) : Nat := dtNs * af / (2 ^ 8 * 3600 * secNs)

/-- eq-h in units of 2^-24. -/
def eqh (n : Nat) : Nat := n * 2 ^ 24

/-! ### Ages (R67, R70, R71) -/

/-- ZSTAMP for an integral value. -/
def stampOf (ep : Nat) : Nat := ep / eqh 16 % 4096

/-- Zone age in eq-h. -/
def zoneAge (ep zstamp : Nat) : Nat := (ep / eqh 16 % 4096 + 4096 - zstamp % 4096) % 4096 * 16

def dstampOf (ep : Nat) : Nat := ep / eqh 2 % 65536

/-- Line age in eq-h, from the zone age and DSTAMP; in a zone whose age has been clamped, the zone age. -/
def lineAge (ep zage dstamp : Nat) (clamped : Bool := false) : Nat :=
  if clamped then zage
  else min zage ((ep / eqh 2 % 65536 + 65536 - dstamp % 65536) % 65536 * 2 + 1)

/-! ### References (R72, R73) -/

/-- log10(max(A, 0.001) / 0.001) in units of 2^-32, A in eq-h. -/
def driftD (age : Nat) : Nat := if age = 0 then 0 else fxLog10 (1000 * age)

/-- Default exponents ν of R43, in units of 2^-16. -/
def defaultNu : List Nat :=
  ([40, 65, 90, 115, 140, 165, 190, 215, 240, 265, 290, 315, 340, 365, 390, 600]).map
    (fun n => (n * 65536 + 5000) / 10000)

/-- The 15 references for an age and exponents in 2^-16. -/
def references (age : Nat) (nu : List Int) : List Nat :=
  let dd : Int := driftD age
  (upTo 15).map (fun (i : Nat) =>
    let s : Int := (nu[i]?).getD 0 + (nu[i + 1]?).getD 0
    let c : Int := 37 + 10 * (i : Int)
    let scaled : Int := c * 2 ^ 48 + 32 * dd * s
    (min 255 ((scaled + 2 ^ 47) / 2 ^ 48)).toNat)

/-- Level of waymark cell w of a programmed block, w = 0 to 1,279: each level has 80 cells (R46). -/
def waymarkLevel (w : Nat) : Nat := w % 16

/-- Waymark cells of a level, whose median code a waymark sense returns (R46, R48). -/
def waymarkCells (i : Nat) : List Nat := (upTo 1280).filter (fun w => waymarkLevel w == i)

/-- Exponents measured from waymark medians at zone age aw, in 2^-16; the die's table below 1 eq-h. -/
def measuredNu (aw : Nat) (medians nu : List Nat) : List Int :=
  (upTo 16).map (fun (i : Nat) =>
    if 1 ≤ aw then ((lget medians i : Int) - (32 + 10 * (i : Int))) * 2 ^ 42 / driftD aw
    else (lget nu i : Int))

/-- R74: each entry moves one eighth of the way, between 0.5 and 2 times its default. -/
def calibrateNu (old : List Nat) (measured : List Int) : List Nat :=
  (upTo 16).map (fun (i : Nat) =>
    let o : Int := lget old i
    let x := o + ((measured[i]?).getD 0 - o) / 8
    let dflt : Int := lget defaultNu i
    (max (dflt / 2) (min (2 * dflt) x)).toNat)

end Sys2Proof.Machine
end

