-- ==== Sys2Proof/Machine/Zones.lean ====
section
/-!
DEFINITION. Where a line lies: regions and their zones (09), the Zone Table and the Roundabout (06), the
stripe layouts and the service state of lanes and dies (07), the wear table and the free pool.
-/

namespace Sys2Proof.Machine

/-! ### Regions (01 Logical units, R343, R344) -/

/-- Data lines of a stripe. -/
def stripeLines : Prot → Nat
  | .parity => 15
  | .mirror => 8
  | .none => 16

/-- Lines of a logical zone. -/
def zoneLines (p : Prot) : Nat := 4096 * stripeLines p

/-- Z: bytes of a logical zone. -/
def zoneBytes (p : Prot) : Nat := 256 * zoneLines p

def Region.zones (r : Region) : Nat := r.extents.foldl (fun n e => n + e.2) 0

def Region.lines (r : Region) : Nat := r.zones * zoneLines r.prot

def Region.size (r : Region) : Nat := r.zones * zoneBytes r.prot

/-- Logical zone k of an extent list. -/
def extentZone : List (Nat × Nat) → Nat → Option Nat
  | [], _ => none
  | (first, n) :: l, k => if k < n then some (first + k) else extentZone l (k - n)

def Region.zoneAt (r : Region) (k : Nat) : Option Nat := extentZone r.extents k

/-- Position of a logical zone in an extent list. -/
def extentIndex : List (Nat × Nat) → Nat → Option Nat
  | [], _ => none
  | (first, n) :: l, lz =>
    if first ≤ lz ∧ lz < first + n then some (lz - first)
    else (extentIndex l lz).map (· + n)

/-- Region that holds a logical zone, and the zone's position in it. -/
def regionOfZone : Sparse (Option Region) → Nat → Option (Nat × Region × Nat)
  | [], _ => none
  | (id, some r) :: l, lz =>
    match extentIndex r.extents lz with
    | some k => some (id, r, k)
    | none => regionOfZone l lz
  | (_, none) :: l, lz => regionOfZone l lz

def Dev.zoneOwner (d : Dev) (lz : Nat) : Option (Nat × Region × Nat) :=
  regionOfZone d.sys.regions lz

def regionList : Sparse (Option Region) → List (Nat × Region)
  | [] => []
  | (id, some r) :: l => (id, r) :: regionList l
  | (_, none) :: l => regionList l

/-- All regions, by ID. -/
def Dev.regionsL (d : Dev) : List (Nat × Region) := regionList d.sys.regions

def Dev.allocated (d : Dev) : Nat := d.regionsL.foldl (fun n p => n + p.2.zones) 0

def ownsRegion (h : Head) (r : Region) : Bool :=
  match r.owner, h with
  | .both, _ => true
  | .a, .a => true
  | .b, .b => true
  | _, _ => false

/-- A line within its region: logical zone, logical stripe, data slot. -/
structure Loc where
  lz   : Nat
  s    : Nat
  slot : Nat
  deriving DecidableEq, Repr

/-- R339 step 4, R269: line index to zone, stripe and slot. -/
def Region.locate (r : Region) (line : Nat) : Option Loc :=
  (r.zoneAt (line / zoneLines r.prot)).map (fun lz =>
    let i := line % zoneLines r.prot
    { lz := lz, s := i / stripeLines r.prot, slot := i % stripeLines r.prot })

/-- Line index in the region of a slot of a stripe; k is the zone's position in the region. -/
def lineIndex (p : Prot) (k s slot : Nat) : Nat := k * zoneLines p + s * stripeLines p + slot

/-! ### ZT entries (R215) -/

def zPz (e : Nat) : Nat := fld e 0 21
def zStart (e : Nat) : Nat := fld e 21 12
def zGap (e : Nat) : Nat := fld e 33 13
def zStamp (e : Nat) : Nat := fld e 46 12
def zLight (e : Nat) : Bool := e.testBit 58
def zState (e : Nat) : Nat := fld e 59 3
def zPclr (e : Nat) : Bool := e.testBit 62

def mkZte (pz start gap stamp : Nat) (light : Bool) (state : Nat) (pclr : Bool) : Nat :=
  pack [(21, pz), (12, start), (13, gap), (12, stamp), (1, bool01 light), (3, state), (1, bool01 pclr)]

def zWithState (e st : Nat) : Nat := setFld e 59 3 st

def zMapped (e : Nat) : Bool := zState e != 0

def zProfile (e : Nat) : Profile := if zLight e then .light else .strong

/-- The stored entry of a logical zone. -/
def Dev.zte (d : Dev) (lz : Nat) : Nat := (tget (0 : BitVec 64) d.zt.entries lz).toNat

/-- The Roundabout (R232). -/
def roundabout (e s : Nat) : Nat :=
  let p := (s + zStart e) % 4096
  if zGap e ≤ p then p + 1 else p

/-- Logical stripe whose stale copy the gap holds, at physical offset (GAP + 1) mod 4,097 (R235). -/
def gapStripe (e : Nat) : Nat :=
  let off := (zGap e + 1) % 4097
  let p := if zGap e < off then off - 1 else off
  (p + 4096 - zStart e) % 4096

/-! ### Stripe layouts (R269) -/

def rotation (s lz : Nat) : Nat := (s + lz) % 16

/-- A line of a stripe: its lane, its role and its data slot or copy number. -/
structure Place where
  lane : Nat
  role : Role
  slot : Nat
  deriving DecidableEq, Repr

/-- Data or primary lines of a stripe, by slot. -/
def dataPlaces (p : Prot) (s lz : Nat) : List Place :=
  let r := rotation s lz
  match p with
  | .parity => (upTo 15).map (fun j => ⟨(r + 1 + j) % 16, .data, j⟩)
  | .mirror => (upTo 8).map (fun j => ⟨(r + j) % 16, .primary, j⟩)
  | .none => (upTo 16).map (fun j => ⟨(r + j) % 16, .data, j⟩)

/-- The parity line, or the copies. -/
def checkPlaces (p : Prot) (s lz : Nat) : List Place :=
  let r := rotation s lz
  match p with
  | .parity => [⟨r, .parity, 0⟩]
  | .mirror => (upTo 8).map (fun j => ⟨(r + j + 8) % 16, .copy, j⟩)
  | .none => []

def allPlaces (p : Prot) (s lz : Nat) : List Place := dataPlaces p s lz ++ checkPlaces p s lz

def dataPlace (p : Prot) (s lz slot : Nat) : Place :=
  ((dataPlaces p s lz)[slot]?).getD ⟨0, .data, 0⟩

/-- The physical line of a place of a mapped zone (R218). -/
def placePla (e s : Nat) (q : Place) : Pla := mkPla q.lane (zPz e) (roundabout e s)

/-! ### Service state (R280, R290, R300) -/

/-- A scope is out of service for zone pz: in Detour, testing, dead, or not yet passed by restore. -/
def scopeOut (st : ScopeState) (cursor pz : Nat) : Bool :=
  match st with
  | .inService => false
  | .absent => true
  | .restoring => decide (cursor ≤ pz)
  | _ => true

/-- The tile of physical zone pz on a lane is out of service. -/
def Dev.isOut (d : Dev) (lane pz : Nat) : Bool :=
  let l := d.lane1 lane
  scopeOut l.lstate l.cursor pz || scopeOut (vget .absent l.dies (zoneDie pz)) l.cursor pz

/-- Lanes whose tile of zone pz is out. -/
def Dev.outLanes (d : Dev) (pz : Nat) : List Nat := (upTo 16).filter (fun i => d.isOut i pz)

/-- Die positions in use (R15). -/
def Dev.posUsed (d : Dev) (p : Nat) : Bool := d.lane.posMask.toNat.testBit p

/-- A DEAD die lies at the position (R294). -/
def Dev.posDead (d : Dev) (p : Nat) : Bool :=
  (upTo 16).any (fun i => decide (vget .absent (d.lane1 i).dies p = .dead))

/-- Rank of a physical zone among the zones at positions in use. -/
def Dev.zoneRank (d : Dev) (pz : Nat) : Nat :=
  ((upTo (zoneDie pz)).filter d.posUsed).length * 2 ^ 18 + pz % 2 ^ 18

/-- The system reserve: the lowest 8,192 zones at positions in use (log entry 12). -/
def Dev.isReserve (d : Dev) (pz : Nat) : Bool := decide (d.zoneRank pz < 8192)

/-! ### The wear table (R220) -/

def psClear : Nat := 0
def psDirty : Nat := 1
def psBound : Nat := 2
def psFilling : Nat := 3
def psRetired : Nat := 4
def psMeta : Nat := 5

/-- An unlisted zone: FREE_DIRTY with no wear (log entry 12). -/
def wearDefault : BitVec 64 := 0x100000000

def Dev.wearRec (d : Dev) (pz : Nat) : Nat := (tget wearDefault d.sys.wear pz).toNat

def wWear (r : Nat) : Nat := fld r 0 32
def wState (r : Nat) : Nat := fld r 32 3
def wLast (r : Nat) : Nat := fld r 35 21

def Dev.pstate (d : Dev) (pz : Nat) : Nat := wState (d.wearRec pz)

/-- A physical zone that exists, is not reserved and lies at no dead position. -/
def Dev.zoneUsable (d : Dev) (pz : Nat) : Bool :=
  d.posUsed (zoneDie pz) && !d.isReserve pz && !d.posDead (zoneDie pz)

/-- FREE_CLEAR zones that may be chosen, with their records. -/
def Dev.freeClear (d : Dev) : List (Nat × Nat) :=
  (d.sys.wear.map (fun p => (p.1, p.2.toNat))).filter
    (fun p => decide (wState p.2 = psClear) && d.zoneUsable p.1)

def leastWorn : List (Nat × Nat) → Option Nat
  | [] => none
  | (z, r) :: l =>
    some (l.foldl (fun b p => if wWear p.2 < wWear b.2 then p else b) (z, r)).1

def mostWorn : List (Nat × Nat) → Option Nat
  | [] => none
  | (z, r) :: l =>
    some (l.foldl (fun b p => if wWear b.2 < wWear p.2 then p else b) (z, r)).1

/-- FREE_CLEAR zones outside the bind reserve. -/
def Dev.freeTargets (d : Dev) : List (Nat × Nat) :=
  d.freeClear.filter (fun p => !d.zt.reserve.contains p.1)

/-- Listed records in a PSTATE. -/
def Dev.countState (d : Dev) (st : Nat) : Nat :=
  (d.sys.wear.filter (fun p => decide (wState p.2.toNat = st))).length

/-- Physical zones at positions in use. -/
def Dev.physCount (d : Dev) : Nat := d.life.physZones

/-- FREE_DIRTY zones: all zones in use but the reserve and those listed in another state. -/
def Dev.freeDirtyCount (d : Dev) : Nat :=
  d.physCount - min d.physCount 8192 -
    (d.sys.wear.filter (fun p => decide (wState p.2.toNat ≠ psDirty) && !d.isReserve p.1)).length

/-- Zones of the free pool (R221). -/
def Dev.freeCount (d : Dev) : Nat := d.freeClear.length + d.freeDirtyCount

/-- WEAR_MIN (R247): the least WEAR outside the system reserve, whose wear is not kept; an unlisted zone has none
(log entry 12). -/
def Dev.wearMin (d : Dev) : Nat :=
  let l := d.sys.wear.filter (fun p => !d.isReserve p.1)
  if l.length + 8192 < d.physCount then 0
  else match (l.filter (fun p => decide (wState p.2.toNat ≠ psRetired))).map (fun p => wWear p.2.toNat) with
    | [] => 0
    | x :: l => l.foldl min x

/-! ### Spare zones (R295, R296) -/

def Dev.deadPositions (d : Dev) : List Nat := (upTo 8).filter (fun p => d.posUsed p && d.posDead p)

/-- Zones RETIRED at positions that are not dead. -/
def Dev.retiredCount (d : Dev) : Nat :=
  (d.sys.wear.filter (fun p =>
    decide (wState p.2.toNat = psRetired) && !d.posDead (zoneDie p.1))).length

/-- SPARE before saturation. -/
def Dev.spareInt (d : Dev) : Int :=
  (d.physCount : Int) - (d.deadPositions.length * 2 ^ 18 : Nat) - (d.retiredCount : Nat)
    - (d.life.sysZones : Nat) - (d.life.userZones : Nat)

def Dev.spare (d : Dev) : Nat := d.spareInt.toNat
def Dev.deficit (d : Dev) : Nat := (-d.spareInt).toNat

/-- Zones bound at a DEAD position, or every bound zone while a lane is DEAD (R295). -/
def Dev.resident (d : Dev) : Nat :=
  let laneDead := (upTo 16).any (fun i => decide ((d.lane1 i).lstate = .dead))
  (d.zt.entries.filter (fun p =>
    zMapped p.2.toNat && (laneDead || d.posDead (zoneDie (zPz p.2.toNat))))).length

/-! ### Ages (R67, R71) -/

/-- E_p of a die position. -/
def Dev.ep (d : Dev) (pos : Nat) : Nat := vget 0 d.therm.epos pos

/-- Age of the logical zone of an entry, in eq-h. -/
def Dev.ageOf (d : Dev) (e : Nat) : Nat := zoneAge (d.ep (zoneDie (zPz e))) (zStamp e)

/-- Drift table of a die, default where no calibration has moved it (R74). -/
def Dev.nuOf (d : Dev) (lane pos : Nat) : List Nat := tget defaultNu d.lane.nu (dieKey lane pos)

/-! ### Clusters (R309, R310) -/

/-- Cluster c is held or halted. -/
def Dev.clusterDown (d : Dev) (c : Nat) : Bool :=
  d.sec.halted.toNat.testBit c || d.sec.held.toNat.testBit c

/-- Cluster 1, or cluster 0 in its place, can run media management. -/
def Dev.mediaUp (d : Dev) : Bool := !(d.clusterDown 1 && d.clusterDown 0)

/-! ### Phases of operation -/

/-- Memory ready (19). -/
def Dev.ready (d : Dev) : Bool := d.life.running && decide (d.life.stage = .ready)

/-- ATTN level 7 is reported: a drain runs (R162). -/
def Dev.draining (d : Dev) : Bool := d.bench.draining

/-- Records are durable only once programmed (R226): in EXPOSED and before memory ready. -/
def Dev.programFirst (d : Dev) : Bool :=
  d.bench.exposed || !d.life.running || !(decide (d.life.stage = .ready) || decide (d.life.stage = .shutdown))

end Sys2Proof.Machine
end

