-- ==== Sys2Proof/Machine/System.lean ====
section
/-!
DEFINITION. Records the device keeps on the medium: changes of SYSTEM tables through the Bench (04 R749,
06 R226), the journal chain (06 R224, R225, R747), PSTATE and WEAR changes, move requests, the
poisoned-line list (04 R173), waymarks and pre-clear.
-/

namespace Sys2Proof.Machine

/-! ### One change of a table -/

def heapDefault : HeapZone :=
  { hstate := .empty, noScan := false, validUnits := 0, append := 0, filter := 0 }

/-- Filter bits in the lower line of a heap zone record: bytes 32 to 255 (12 R425). -/
def lowFilter : Nat := 1792

/-- A heap zone record with one of its two lines replaced by that of another (12 R425). -/
def heapMerge (old h : HeapZone) (upper : Bool) : HeapZone :=
  let lo (x : HeapZone) : Nat := fld x.filter.toNat 0 lowFilter
  let hi (x : HeapZone) : Nat := fld x.filter.toNat lowFilter (3840 - lowFilter)
  if upper then { old with filter := BitVec.ofNat 3840 (lo old + hi h * 2 ^ lowFilter) }
  else { h with filter := BitVec.ofNat 3840 (lo h + hi old * 2 ^ lowFilter) }

def insertOnce (x : Nat × Nat) (l : List (Nat × Nat)) : List (Nat × Nat) :=
  if l.contains x then l else l ++ [x]

def applySys (s : SysData) : SysRec → SysData
  | .wear pz r => { s with wear := tset wearDefault s.wear pz r }
  | .region id r => { s with regions := tset none s.regions id r }
  | .seq lz r => { s with seq := tset 0 s.seq lz r }
  | .heap k upper h => { s with heap := tset heapDefault s.heap k (heapMerge (tget heapDefault s.heap k) h upper) }
  | .intent pz b => { s with intent := tset 0 s.intent pz b }
  | .lineIntent r l present =>
    { s with lineIntent :=
        if present then insertOnce (r, l) s.lineIntent else s.lineIntent.filter (· != (r, l)) }
  | .outage pz m =>
    { s with outage := if m then (pz :: s.outage.filter (· != pz)) else s.outage.filter (· != pz) }
  | .poison r l recs =>
    { s with poison := s.poison.filter (fun p => !(p.region == r && p.line == l)) ++ recs }
  | .badTile pz present =>
    { s with badTiles :=
        if present then (s.badTiles.filter (· != pz)) ++ [pz] else s.badTiles.filter (· != pz) }
  | .saved r l x =>
    { s with saved := s.saved.filter (fun p => !(p.region == r && p.line == l)) ++ x.toList }
  | .label b off bytes =>
    if b then { s with labelB := writeBytes s.labelB off bytes }
    else { s with labelA := writeBytes s.labelA off bytes }
  | .journal _ _ => s

/-- The 256 B line of its structure that a record lies in (04 R749). DESIGN CHOICE: the manual gives the lists no
places; the model takes a line of a list by the record's line index (log entry 130). -/
def sysKey : SysRec → LineKey
  | .wear pz _ => .sys .wear (pz / 32)
  | .region id _ => .sys .region id
  | .seq lz _ => .sys .seq (lz / 32)
  | .heap k upper _ => .sys .heapZone (2 * k + bool01 upper)
  | .intent pz _ => .sys .intent (pz / 1024)
  | .lineIntent _ l _ => .sys .lineIntent (l % 128)
  | .outage pz _ => .sys .outage (pz / 2048)
  | .poison _ l _ => .sys .poison (l % 4096)
  | .badTile pz _ => .sys .badTile (pz / 64)
  | .saved _ l _ => .sys .saved (l % 8192)
  | .label b off _ => .sys .label (off / 256 + if b then 512 else 0)
  | .journal place _ => .sys .journal (place / 8)

def sysEntry (id : Nat) (k : LineKey) (r : SysRec) : Entry :=
  { id := id, key := k, kind := .system [r], state := .staged, data := 0, valid := 0xF, poison := 0,
    cause := sameCause 0, image := none, keyId := 0, flips := [], old := none }

def addRec (r : SysRec) (e : Entry) : Entry :=
  match e.kind with
  | .system l => { e with kind := .system (l ++ [r]) }
  | _ => e

def stagedSys (k : LineKey) (e : Entry) : Bool :=
  decide (e.key = k) && decide (e.state = .staged)

/-- A record goes into the STAGED entry of its line, or a fresh entry (04 R159, R749). -/
def BenchBlock.putSys (b : BenchBlock) (k : LineKey) (r : SysRec) : BenchBlock :=
  if b.entries.any (stagedSys k) then
    { b with entries := b.entries.map (fun e => if stagedSys k e then addRec r e else e) }
  else { b with entries := b.entries ++ [sysEntry b.nextId k r], nextId := b.nextId + 1 }

/-- Record places of a metadata zone: 61,440 lines of eight records. -/
def journalPlaces : Nat := 61440 * 8

/-- The place of the next journal record, counted through the metadata zones (06 R224). -/
def Dev.jPlace (d : Dev) : Nat :=
  match d.zt.jzones with
  | [] => 0
  | z :: _ => z.pzone * journalPlaces + z.used

/-- The records that STAGED entries hold of a SYSTEM line, oldest first. -/
def BenchBlock.recsOf (b : BenchBlock) (k : LineKey) : List SysRec :=
  (b.entries.filter (stagedSys k)).flatMap (fun e => match e.kind with
    | .system l => l
    | _ => [])

/-- The Bench without the STAGED entries of a SYSTEM line. -/
def BenchBlock.dropSys (b : BenchBlock) (k : LineKey) : BenchBlock :=
  { b with entries := b.entries.filter (fun e => !stagedSys k e) }

/-- Make a change of a SYSTEM table durable: accepted into the Bench, or, in EXPOSED and before memory
ready, programmed and verified within the step, with what the line's entry already holds (06 R226, 04 R155, R749,
16 R752). -/
def Dev.sysPut (d : Dev) (r : SysRec) : Dev :=
  let d' := { d with sys := applySys d.sys r }
  let k := sysKey r
  if d.programFirst then
    { d' with nv := applySys ((d.bench.recsOf k).foldl applySys d.nv) r, bench := d.bench.dropSys k }
  else { d' with bench := d.bench.putSys k r }

def Dev.sysPutAll (d : Dev) (l : List SysRec) : Dev := l.foldl Dev.sysPut d

/-! ### PSTATE and WEAR (R220, R246) -/

def mkWear (wear st last : Nat) : BitVec 64 := BitVec.ofNat 64 (pack [(32, wear), (3, st), (21, last)])

def Dev.setPstate (d : Dev) (pz st : Nat) : Dev :=
  let r := d.wearRec pz
  d.sysPut (.wear pz (mkWear (wWear r) st (wLast r)))

def Dev.setPstateLast (d : Dev) (pz st last : Nat) : Dev :=
  let r := d.wearRec pz
  d.sysPut (.wear pz (mkWear (wWear r) st last))

def wearMax : Nat := 0xFFFFFFFF

/-- WEAR up by n, holding at its maximum. -/
def Dev.addWear (d : Dev) (pz n : Nat) : Dev :=
  let r := d.wearRec pz
  d.sysPut (.wear pz (mkWear (min wearMax (wWear r + n)) (wState r) (wLast r)))

/-! ### Waymarks and pre-clear (R47, R222) -/

/-- Program the waymark blocks of a zone's tiles; a tile that is out is left for restore (R261). -/
def Dev.markTiles (d : Dev) (pz : Nat) : Dev :=
  let keys := ((upTo 16).filter (fun i => !d.isOut i pz)).map (fun i => tileOf i pz)
  let w := keys.foldl (fun m k => tset false m k true) d.medium.waymarks
  { d with medium := { d.medium with waymarks := w } }

/-- Remap list of a tile: original offset and spare offset (R38). -/
def Dev.remapsOf (d : Dev) (tile : Nat) : List (Nat × Nat) := tget [] d.medium.remaps tile

/-- Write a remap entry for an offset, to the lowest free spare (R39, R40). -/
def Dev.addRemap (d : Dev) (tile off : Nat) : Dev :=
  let l := d.remapsOf tile
  { d with medium := { d.medium with
      remaps := tset [] d.medium.remaps tile (l ++ [(off, 4097 + l.length)]) } }

/-- The line whose cells a line's address reaches: its own, or the spare that its tile's list gives (R38). -/
def Dev.cellOf (d : Dev) (p : Pla) : Pla :=
  match ((d.remapsOf (plaTile p)).filter (fun x => x.1 == plaOff p)).getLast? with
  | some x => mkPla (plaLane p) (plaZone p) x.2
  | none => p

/-- The line address that reaches some cells, if one does. -/
def Dev.reachedBy (d : Dev) (c : Pla) : Option Pla :=
  let p := match (d.remapsOf (plaTile c)).find? (fun x => x.2 == plaOff c) with
    | some x => mkPla (plaLane c) (plaZone c) x.1
    | none => c
  if plaOff p ≤ 4096 ∧ d.cellOf p = c then some p else none

/-- Cells that a pre-clear of a zone resets: those of offsets 0 to 4,096 of tiles in service, but for residues. -/
def Dev.clears (d : Dev) (pz : Nat) (ans : Answers) (key : Nat) : Bool :=
  let c : Pla := BitVec.ofNat 38 key
  decide (plaZone c = pz) && !d.isOut (plaLane c) pz &&
  (match d.reachedBy c with
    | some p => !ans.residue.contains p
    | none => false)

/-- Lines of a zone that a reset would leave below code 179. -/
def residues (pz : Nat) (ans : Answers) : List Pla := ans.residue.filter (fun p => plaZone p == pz)

/-- A line that a reset left below code 179, by its physical line address (06 R264). -/
def Dev.residueEvent (d : Dev) (p : Pla) : Dev := d.event (evPlatform 18) (detailOf [(32, p.toNat)])

/-- Whether the reset steps of a line's cells have reached code 179, from here on. -/
def Dev.noteReset (d : Dev) (c : Pla) (bad : Bool) : Dev :=
  let l := d.medium.residue.filter (· != c.toNat)
  { d with medium := { d.medium with residue := if bad then c.toNat :: l else l } }

/-- All cells that have served a line's address hold, or some are left below code 179. -/
def Dev.residueAt (d : Dev) (p : Pla) : Bool :=
  (p :: ((d.remapsOf (plaTile p)).filter (fun x => x.1 == plaOff p)).map (fun x =>
    mkPla (plaLane p) (plaZone p) x.2)).any (fun c => d.medium.residue.contains c.toNat)

/-- Reset every line and waymark cell of a zone; each line left below code 179 is logged. -/
def Dev.preclearCells (d : Dev) (pz : Nat) (ans : Answers) : Dev :=
  let m := { d.medium with
    lines := d.medium.lines.filter (fun p => !d.clears pz ans p.1)
    residue := d.medium.residue.filter (fun k => !d.clears pz ans k)
    failed := d.medium.failed.filter (fun k => !decide (plaZone (BitVec.ofNat 38 k) = pz))
    waymarks := d.medium.waymarks.filter (fun p => !(decide (p.1 % 2 ^ 21 = pz))) }
  { d with medium := m }.each (residues pz ans) (fun d p => (d.noteReset (d.cellOf p) true).residueEvent p)

/-- Lines of a zone whose cells still hold what a reset was to clear: residues, and those of tiles out of service that
are not blank. -/
def Dev.uncleared (d : Dev) (pz : Nat) : List Pla :=
  ((d.medium.residue.filter (fun k => plaZone (BitVec.ofNat 38 k) == pz)) ++
   ((d.medium.lines.map Prod.fst).filter (fun k =>
      let c : Pla := BitVec.ofNat 38 k
      plaZone c == pz && d.isOut (plaLane c) pz))).eraseDups.map (BitVec.ofNat 38)

/-! ### The journal (R224-R226, R747) -/

def Dev.jUsed (d : Dev) : Nat :=
  match d.zt.jzones with
  | [] => journalPlaces
  | z :: _ => z.used

/-- Take the least-worn FREE_CLEAR zone as a metadata zone: waymarks, MSTAMP, PSTATE (R224). -/
def Dev.takeMeta (d : Dev) (pz : Nat) : Dev := (d.markTiles pz).setPstate pz psMeta

def Dev.mstampOf (d : Dev) (pz : Nat) : Nat := stampOf (d.ep (zoneDie pz))

def jReserved (t : JType) : Bool := decide (t = .pclrDone) || decide (t = .link)

/-- R231: two zones are FREE_CLEAR for the journal, which takes none of the bind reserve (R261), so actions that need a
record other than PCLR_DONE or LINK run. -/
def Dev.journalOk (d : Dev) : Bool := decide (2 ≤ d.freeTargets.length)

/-- Those zones and the newest one have places outside the reserve of R747 for n more records. -/
def Dev.journalFits (d : Dev) (n : Nat) : Bool :=
  d.journalOk && decide (n ≤ (journalPlaces - 1024 - d.jUsed) + d.freeTargets.length * (journalPlaces - 1024))

/-- Pre-clear goes before every other background program: the journal waits for zones, and a FREE_DIRTY zone is there
(R231). -/
def Dev.clearFirst (d : Dev) : Bool := !d.journalOk && decide (0 < d.freeDirtyCount)

/-! ### ZT entries -/

def Dev.setZte (d : Dev) (lz e : Nat) : Dev :=
  { d with zt := { d.zt with entries := tset 0 d.zt.entries lz (BitVec.ofNat 64 e) } }

/-! ### Move requests (R237, R255, R256) -/

def moveRank : MoveReason → Nat
  | .retire => 1
  | .early => 2
  | .refreshOverdue => 3
  | .refresh => 4
  | .profile => 5
  | .wearHot => 6
  | .wearCold => 7

/-- Put a request behind those of its reason and the reasons before it. -/
def insertMove (m : MoveReq) : List MoveReq → List MoveReq
  | [] => [m]
  | x :: l => if moveRank m.reason < moveRank x.reason then m :: x :: l else x :: insertMove m l

/-- Logical zone bound to a physical zone. -/
def Dev.boundTo (d : Dev) (pz : Nat) : Option Nat :=
  (d.zt.entries.find? (fun x => zMapped x.2.toNat && zPz x.2.toNat == pz)).map Prod.fst

/-- One request per zone: an earlier reason takes the place of a later one. -/
def addMove (m : MoveReq) (l : List MoveReq) : List MoveReq :=
  match l.find? (fun x => x.lzone == m.lzone) with
  | none => insertMove m l
  | some x =>
    let m := { m with reseq := m.reseq || x.reseq }
    let l' := l.filter (fun x => x.lzone != m.lzone)
    if moveRank m.reason < moveRank x.reason then insertMove m l'
    else l.map (fun y => if y.lzone = m.lzone then { y with reseq := m.reseq } else y)

def Dev.queueMove (d : Dev) (lz : Nat) (reason : MoveReason) (reseq : Bool := false) : Dev :=
  let m : MoveReq := { lzone := lz, reason := reason, reseq := reseq }
  { d with zt := { d.zt with moves := addMove m d.zt.moves } }

/-- A line whose program failed with no spare line left is never sensed again, and its zone is to retire (04 R41). -/
def Dev.failPlace (d : Dev) (p : Pla) : Dev :=
  let d := match d.boundTo (plaZone p) with
    | some lz => d.queueMove lz .retire
    | none => d
  { d with medium := { d.medium with
      failed := if d.medium.failed.contains p.toNat then d.medium.failed else p.toNat :: d.medium.failed } }

/-- EARLY moves among the zones queued. DESIGN CHOICE: a move that runs keeps its place in the queue until SWITCH, and so
counts (log entry 162). -/
def earlyQueued (l : List MoveReq) : Nat := (l.filter (fun m => decide (m.reason = .early))).length

/-- A dropped trigger: its event, and the instant it is logged. -/
def Dev.dropEarly (d : Dev) : Dev :=
  { d with zt := { d.zt with earlyDropAt := some d.now } }.event (evPlatform 15)

/-- An EARLY trigger: merged, queued, or dropped with one event per second (R256). -/
def Dev.queueEarly (d : Dev) (lz : Nat) : Dev :=
  if d.zt.moves.any (fun m => m.lzone == lz && decide (moveRank m.reason ≤ 2)) then d
  else if earlyQueued d.zt.moves < 4096 then (d.count (cntPlace 3) 1).queueMove lz .early
  else
    match d.zt.earlyDropAt with
    | some t => if d.now < t + secNs then d else d.dropEarly
    | none => d.dropEarly

/-- WEAR_COLD: a BOUND zone at WEAR_MIN, a much worn FREE_CLEAR zone, and no such move queued (R249). -/
def Dev.coldTrigger (d : Dev) : Dev :=
  let cold := (d.zt.entries.filter (fun p =>
    zMapped p.2.toNat && decide (wWear (d.wearRec (zPz p.2.toNat)) = d.wearMin))).head?
  match mostWorn d.freeClear, cold with
  | some z, some (lz, _) =>
    if d.wearMin + d.wearDelta.toNat ≤ wWear (d.wearRec z) ∧
        d.zt.moves.any (fun q => decide (q.reason = .wearCold)) = false
    then d.queueMove lz .wearCold else d
  | _, _ => d

/-- WEAR_HOT: a BOUND zone whose WEAR has gone far above WEAR_MIN, where a less worn zone is FREE_CLEAR (R248). -/
def Dev.hotTrigger (d : Dev) (pz lz : Nat) : Dev :=
  let w := wWear (d.wearRec pz)
  match leastWorn d.freeClear with
  | some z => if d.wearMin + d.wearDelta.toNat ≤ w ∧ wWear (d.wearRec z) < w then d.queueMove lz .wearHot else d
  | none => d

/-- Wear triggers after an increase of WEAR of a BOUND zone (R248, R249). -/
def Dev.wearTriggers (d : Dev) (pz lz : Nat) : Dev := (d.hotTrigger pz lz).coldTrigger

/-! ### Poisoned-line list (04 R173) -/

def poisonMax : Nat := 65536

def Dev.poisonRecs (d : Dev) (region line : Nat) : List PoisonRec :=
  d.sys.poison.filter (fun p => p.region == region && p.line == line)

/-- Sectors of a line that the list holds. -/
def Dev.listed (d : Dev) (region line : Nat) : BitVec 4 :=
  (d.poisonRecs region line).foldl (fun m p => m ||| p.mask) 0

/-- Cause of a listed sector. -/
def Dev.listedCause (d : Dev) (region line s : Nat) : Nat :=
  (((d.poisonRecs region line).find? (fun p => hasSec p.mask s)).map PoisonRec.cause).getD 0

/-- Take sectors out of every record of a line; empty records go. -/
def clearMask (m : BitVec 4) (l : List PoisonRec) : List PoisonRec :=
  (l.map (fun p => { p with mask := p.mask &&& ~~~m })).filter (fun p => p.mask != 0)

/-- Enter sectors under a cause: into the record of that cause, or a new record. -/
def enterMask (region line cause : Nat) (m : BitVec 4) (l : List PoisonRec) : List PoisonRec :=
  let l := clearMask m l
  if l.any (fun p => p.cause == cause) then
    l.map (fun p => if p.cause = cause then { p with mask := p.mask ||| m } else p)
  else l ++ [{ region := region, line := line, cause := cause, mask := m }]

/-- The list has no room for a record that the line does not have (R175). -/
def Dev.poisonFull (d : Dev) : Bool := decide (poisonMax ≤ d.sys.poison.length)

def Dev.needsRecord (d : Dev) (region line cause : Nat) : Bool :=
  !((d.poisonRecs region line).any (fun p => p.cause == cause))

def Dev.enterPoison (d : Dev) (region line cause : Nat) (m : BitVec 4) : Dev :=
  if m = 0 then d
  else if d.needsRecord region line cause && d.poisonFull then d
  else d.sysPut (.poison region line (enterMask region line cause m (d.poisonRecs region line)))

/-- Sectors replaced by a verified write leave the list. -/
def Dev.removePoison (d : Dev) (region line : Nat) (m : BitVec 4) : Dev :=
  if d.listed region line &&& m = 0 then d
  else d.sysPut (.poison region line (clearMask m (d.poisonRecs region line)))

/-! ### Write-intent map, line-intent log, outage map (04 R155-R158, 07 R283) -/

def Dev.intent (d : Dev) (pz : Nat) : BitVec 2 := tget 0 d.sys.intent pz

/-- An update may mark zone pz: it is marked already, or fewer than 8,192 are (R157). -/
def Dev.canMark (d : Dev) (pz : Nat) : Bool :=
  decide (d.intent pz ≠ 0) || decide (d.sys.intent.length < 8192)

def Dev.mark (d : Dev) (pz : Nat) (full : Bool) : Dev :=
  let b := d.intent pz ||| (if full then 3 else 1)
  let d := if b = d.intent pz then d else d.sysPut (.intent pz b)
  { d with zt := { d.zt with lastUpdate := tset 0 d.zt.lastUpdate pz d.now } }

/-- A zone with a tile out of service is marked in the outage map before anything is programmed in it. -/
def Dev.markOutage (d : Dev) (pz : Nat) : Dev :=
  if (d.outLanes pz).isEmpty || d.sys.outage.contains pz then d else d.sysPut (.outage pz true)

/-! ### Write sequences (21 R737, R738) -/

def seqCeiling (r : BitVec 64) : Nat := fld r.toNat 0 40
def seqEpoch (r : BitVec 64) : Nat := fld r.toNat 40 24

def mkSeq (ceiling epoch : Nat) : BitVec 64 := BitVec.ofNat 64 (pack [(40, ceiling), (24, epoch)])

/-- The next WSEQ of a zone: CEILING until one has been given since the start. -/
def Dev.wseqOf (d : Dev) (lz : Nat) : Nat :=
  match tget 0 d.zt.wseq lz with
  | 0 => seqCeiling (tget 0 d.sys.seq lz)
  | n + 1 => n

/-- No further entry of the zone issues before its re-sequencing SWITCH. -/
def Dev.wseqStuck (d : Dev) (lz : Nat) : Bool := decide (2 ^ 40 - 1 ≤ d.wseqOf lz)

/-- Take the next WSEQ, raising CEILING before a value at or above it is used. -/
def Dev.takeWseq (d : Dev) (lz : Nat) : Dev × Nat :=
  let n := d.wseqOf lz
  let r := tget 0 d.sys.seq lz
  let d := if seqCeiling r ≤ n then d.sysPut (.seq lz (mkSeq (seqCeiling r + 2 ^ 20) (seqEpoch r))) else d
  let d := { d with zt := { d.zt with wseq := tset 0 d.zt.wseq lz (n + 2) } }
  let d := if n + 1 = 2 ^ 40 - 2 ^ 36 then d.queueMove lz .refresh true else d
  (d, n)

/-! ### CXL event records (09 R347, R348) -/

def logIndex : CxlLog → Nat
  | .informational => 0
  | .warning => 1
  | .failure => 2
  | .fatal => 3

/-- Post a record to one of a head's logs of 256; past that the overflow count advances. -/
def HeadSt.post (x : HeadSt) (r : CxlRec) : HeadSt :=
  if (x.logs.filter (fun y => decide (y.log = r.log))).length < 256 then
    { x with logs := x.logs ++ [{ r with handle := x.logNext }], logNext := x.logNext + 1 }
  else { x with overflow := x.overflow.modify (logIndex r.log) (· + 1) }

def moduleRec (log : CxlLog) : CxlRec :=
  { log := log, handle := 0, isModule := true, dpa := 0, hostErr := 0, poison := 0, region := 0, line := 0,
    lane := 0, rank := 0, threshold := false, stamp := 0 }

/-- A Memory Module Event on a head. -/
def Dev.moduleEvent (d : Dev) (h : Head) (log : CxlLog) : Dev :=
  d.onHead h (·.post { moduleRec log with stamp := d.now })

def Dev.moduleEventBoth (d : Dev) (log : CxlLog) : Dev := (d.moduleEvent .a log).moduleEvent .b log

/-- Lane and die position of a line of a region; 0 for a line that has no place. -/
def Dev.channelRank (d : Dev) (region line : Nat) : Nat × Nat :=
  match d.region region with
  | none => (0, 0)
  | some r =>
    match r.locate line with
    | none => (0, 0)
    | some l => ((dataPlace r.prot l.s l.lz l.slot).lane, zoneDie (zPz (d.zte l.lz)))

/-- A General Media Event on a head. -/
def Dev.mediaRecord (d : Dev) (h : Head) (log : CxlLog) (dpa hostErr poison region line : Nat) : Dev :=
  let (lane, rank) := if hostErr = 6 then (0, 0) else d.channelRank region line
  let r : CxlRec :=
    { log := log, handle := 0, isModule := false, dpa := dpa, hostErr := hostErr, poison := poison,
      region := region, line := line, lane := lane, rank := rank, threshold := decide (hostErr = 0), stamp := d.now }
  d.onHead h (·.post r)

end Sys2Proof.Machine
end

