-- ==== Sys2Proof/Machine/Cache.lean ====
section
/-!
DEFINITION. The cache, the side buffer and the Bench as stores (04, 05): lookup, replacement, checkers and
flips, occupancy and BENCH_CAP, the acceptance of a sector, the newest copy of a sector, fills, write-back
selection and the move into the staging store.
-/

namespace Sys2Proof.Machine

/-! ### Sets and ways (R177, R195) -/

/-- Region-relative logical line address (log entry 13). -/
def Region.laddr (r : Region) (line : Nat) : Nat :=
  let i := line % zoneLines r.prot
  line / zoneLines r.prot * 2 ^ 16 + i / stripeLines r.prot * 16 + i % stripeLines r.prot

def setOf (r : Region) (line : Nat) : Nat := r.laddr line % 12288

/-- Ways 12 to 15 of the sets in scratch, and of the sets under conversion. -/
def CacheBlock.isScratch (c : CacheBlock) (set way : Nat) : Bool :=
  let steps := match c.conv with
    | some v => max v.target c.steps.toNat
    | none => c.steps.toNat
  decide (12 ≤ way) && decide (set < 4096 * steps)

/-- The way is under test in this set: no line is allocated there (19 R695). -/
def CacheBlock.underTest (c : CacheBlock) (set way : Nat) : Bool :=
  match c.testing with
  | some y => y.todo.head? == some (way, set / 1024)
  | none => false

/-- A way the set may allocate: neither scratch, retired, excluded nor under test. -/
def CacheBlock.usable (c : CacheBlock) (set way : Nat) : Bool :=
  !c.isScratch set way && !c.retired.toNat.testBit way && !c.excluded.contains (set * 16 + way) &&
  !c.underTest set way

def CacheBlock.way (c : CacheBlock) (key : Nat) : Option Way := tget none c.ways key

def CacheBlock.setWay (c : CacheBlock) (key : Nat) (w : Option Way) : CacheBlock :=
  { c with ways := tset none c.ways key w }

def Dev.setWay (d : Dev) (key : Nat) (w : Option Way) : Dev :=
  { d with cache := d.cache.setWay key w }

/-- The way of a set that holds a line. -/
def CacheBlock.find (c : CacheBlock) (set region line : Nat) : Option (Nat × Way) :=
  (upTo 16).findSome? (fun w =>
    match c.way (set * 16 + w) with
    | some x => if x.region = region ∧ x.line = line then some (set * 16 + w, x) else none
    | none => none)

def Dev.findWay (d : Dev) (r : Region) (region line : Nat) : Option (Nat × Way) :=
  d.cache.find (setOf r line) region line

/-! ### LRU (R181) -/

/-- Whether some way below lo + n, from lo, is of the class. -/
def anyWay (p : Nat → Bool) (lo n : Nat) : Bool := (upTo n).any (fun i => p (lo + i))

/-- Walk from a node over 2^k ways from lo, to the least recently used way of a class. -/
def lruWalk (tree : Nat) (p : Nat → Bool) : Nat → Nat → Nat → Option Nat
  | 0, _, lo => if p lo then some lo else none
  | k + 1, node, lo =>
    let half := 2 ^ k
    let right := tree.testBit (node - 1)
    let goRight :=
      if right then anyWay p (lo + half) half else !(anyWay p lo half)
    if goRight then lruWalk tree p k (2 * node + 1) (lo + half) else lruWalk tree p k (2 * node) lo

/-- Every node on a way's path is set to indicate the other subtree. -/
def lruTouch : Nat → Nat → Nat → Nat → Nat → Nat
  | 0, _, _, _, tree => tree
  | k + 1, node, lo, w, tree =>
    let half := 2 ^ k
    if lo + half ≤ w then lruTouch k (2 * node + 1) (lo + half) w (setFld tree (node - 1) 1 0)
    else lruTouch k (2 * node) lo w (setFld tree (node - 1) 1 1)

def CacheBlock.touch (c : CacheBlock) (key : Nat) : CacheBlock :=
  let set := key / 16
  let t := (tget (0 : BitVec 15) c.lru set).toNat
  { c with lru := tset 0 c.lru set (BitVec.ofNat 15 (lruTouch 4 1 0 (key % 16) t)) }

def Dev.touch (d : Dev) (key : Nat) : Dev := { d with cache := d.cache.touch key }

/-- The least recently used way of a class in a set. -/
def CacheBlock.victim (c : CacheBlock) (set : Nat) (p : Option Way → Bool) : Option Nat :=
  (lruWalk (tget (0 : BitVec 15) c.lru set).toNat
    (fun w => c.usable set w && p (c.way (set * 16 + w))) 4 1 0).map (fun w => set * 16 + w)

def wayInvalid : Option Way → Bool
  | none => true
  | some w => w.valid == 0

def wayClean : Option Way → Bool
  | none => false
  | some w => w.valid != 0 && w.dirty == 0

def wayDirty : Option Way → Bool
  | none => false
  | some w => w.dirty != 0

/-- A way for a read fill: invalid, else clean (R181, R182). -/
def CacheBlock.fillWay (c : CacheBlock) (set : Nat) : Option Nat :=
  (c.victim set wayInvalid).orElse (fun _ => c.victim set wayClean)

/-! ### Occupancy and BENCH_CAP (R129, R131, R132) -/

def CacheBlock.dirtyLines (c : CacheBlock) : Nat :=
  (c.ways.filter (fun p => wayDirty p.2)).length

/-- Entries of the staging store in use. A SYSTEM line counts in the Bench from its first record, and takes a
staging entry only while it is staged for its program (R749), which one step makes (log entry 20). -/
def Dev.stagingUsed (d : Dev) : Nat :=
  (d.bench.entries.filter (fun e => match e.kind with
    | .system _ => false
    | _ => true)).length

def Dev.occupancy (d : Dev) : Nat := d.cache.dirtyLines + d.bench.entries.length

/-- Lines reserved by credits in the hosts' hands and by commands and channels. -/
def Dev.reservedLines (d : Dev) : Nat := d.headA.credits + d.headB.credits + d.bench.reserved

/-- BENCH_CAP from ENERGY_LIMIT (R131); 0 until first given (R176), held during a bank test (R623). -/
def Dev.capNow (d : Dev) : Nat :=
  let e := d.pwr.energy.getD 0
  let c :=
    if d.bench.exposed then min 196608 (max e 8192)
    else if d.pwr.energy.isSome then min 196608 e else 0
  match d.pwr.testCap with
  | some t => min c t
  | none => c

def Dev.setCap (d : Dev) : Dev :=
  { d with bench := { d.bench with
      cap := d.capNow, capGiven := d.bench.capGiven || d.bench.exposed || d.pwr.energy.isSome } }

/-- Room for one more line and one more staging entry (R132). -/
def Dev.roomForLine (d : Dev) : Bool :=
  decide (d.occupancy + d.reservedLines + 1 ≤ d.bench.cap)
    && decide (d.stagingUsed + d.reservedLines + 1 ≤ 8192)

/-- A staging entry is free beyond those reserved (R130, R750). DESIGN CHOICE: one is kept for the parity-delta entry of an
update, without which a full store of PARITY lines could issue none (log entry 166). -/
def Dev.stagingFree (d : Dev) : Bool := decide (d.stagingUsed + d.reservedLines + 1 < 8192)

/-- OVER_CAP (R136). -/
def Dev.overCap (d : Dev) : Bool := decide (d.bench.cap < d.occupancy + d.reservedLines)

/-! ### Flip masks (08 R318, R319) -/

def flipMatches (d : Dev) (region line : Nat) : Bool :=
  d.sec.injAllow && decide (fld d.sec.flipTarget.toNat 0 10 = region)
    && decide (fld d.sec.flipTarget.toNat 16 37 = line)

/-- FLIP_SRAM is armed for a target code and this line. -/
def Dev.sramArmed (d : Dev) (target region line : Nat) : Bool :=
  flipMatches d region line && d.sec.flipSram.toNat.testBit 26
    && decide (fld d.sec.flipSram.toNat 0 2 = target)

/-- Bit positions that FLIP_SRAM flips; a position named twice is one bit. -/
def sramBits (f : BitVec 32) : List Nat :=
  ((if f.toNat.testBit 17 then [fld f.toNat 10 7] else []) ++
  (if f.toNat.testBit 25 then [fld f.toNat 18 7] else [])).eraseDups

/-- A mask fired: its event names the mask and the target (log entry 14). -/
def Dev.flipHit (d : Dev) (mask : Nat) : Dev :=
  let t := d.sec.flipTarget.toNat
  d.event (evSecurity 5) (detailOf [(32, mask), (40, fld t 0 10 + fld t 16 37 * 1024)])

/-- ARM cleared and HIT set. -/
def fired (f : BitVec 32) (arm hit : Nat) : BitVec 32 :=
  BitVec.ofNat 32 (setFld (setFld f.toNat arm 1 0) hit 1 1)

def Dev.sramFire (d : Dev) : Dev :=
  ({ d with sec := { d.sec with flipSram := fired d.sec.flipSram 26 27 } }).flipHit 1

/-- A write of a way's tag: FLIP_TAG strikes the way just written. -/
def Dev.flipTagOf (d : Dev) (key region line : Nat) : Dev :=
  if flipMatches d region line && d.sec.flipTag.toNat.testBit 7 then
    match d.cache.way key with
    | some w =>
      let w := { w with
        tagFlips := w.tagFlips ++ [fld d.sec.flipTag.toNat 0 6]
        shadowBad := w.shadowBad || d.sec.flipTag.toNat.testBit 6 }
      ({ d.setWay key (some w) with
        sec := { d.sec with flipTag := fired d.sec.flipTag 7 8 } }).flipHit 2
    | none => d
  else d

/-- The merge into a way: FLIP_SRAM CACHE and FLIP_TAG strike the way just written. -/
def Dev.flipWay (d : Dev) (key region line : Nat) : Dev :=
  let d :=
    if d.sramArmed 1 region line then
      match d.cache.way key with
      | some w =>
        let b := fld d.sec.flipSram.toNat 2 8
        (d.setWay key (some { w with
          flips := w.flips ++ (sramBits d.sec.flipSram).map (fun i => (b, i)) })).sramFire
      | none => d
    else d
  d.flipTagOf key region line

/-- Write a ZT entry; a FLIP_SRAM of target ZT strikes the entry of its zone. -/
def Dev.writeZte (d : Dev) (lz e : Nat) : Dev :=
  let d := { d.setZte lz e with zt := { (d.setZte lz e).zt with flips := tset [] d.zt.flips lz [] } }
  match d.zoneOwner lz with
  | some (id, r, k) =>
    let line := fld d.sec.flipTarget.toNat 16 37
    if d.sramArmed 3 id line && decide (line / zoneLines r.prot = k) then
      { d with zt := { d.zt with flips := tset [] d.zt.flips lz (sramBits d.sec.flipSram) } }.sramFire
    else d
  | none => d

/-- Read a ZT entry: one flipped bit is corrected, more lose the zone (06 R216, 08 R306). -/
def Dev.checkZte (d : Dev) (lz : Nat) : Dev :=
  match tget [] d.zt.flips lz with
  | [] => d
  | [_] =>
    { d with zt := { d.zt with flips := tset [] d.zt.flips lz [] } }.event (evPlatform 20)
      (detailOf [(32, lz)])
  | _ =>
    if d.zt.lost.contains lz then d
    else { d with zt := { d.zt with lost := lz :: d.zt.lost } }.event (evPlatform 10)

/-- A new staging entry of the target line takes the STAGING flip. -/
def Dev.flipEntry (d : Dev) (region line : Nat) (e : Entry) : Dev × Entry :=
  if d.sramArmed 2 region line then
    let b := fld d.sec.flipSram.toNat 2 8
    (d.sramFire, { e with flips := e.flips ++ (sramBits d.sec.flipSram).map (fun i => (b, i)) })
  else (d, e)

/-! ### Checkers of a way (R187-R189) -/

/-- Bytes with exactly one flip, and bytes with two or more, of a codeword error list. -/
def singleBytes (l : List (Nat × Nat)) : List Nat :=
  (l.map Prod.fst).eraseDups.filter (fun b => (l.filter (fun p => p.1 == b)).length == 1)

def doubleBytes (l : List (Nat × Nat)) : List Nat :=
  (l.map Prod.fst).eraseDups.filter (fun b => 2 ≤ (l.filter (fun p => p.1 == b)).length)

/-- Sectors with an uncorrectable byte. -/
def badSectors (l : List (Nat × Nat)) : BitVec 4 :=
  (doubleBytes l).foldl (fun m b => addSec m (b / 64)) 0

/-- Bad clean sectors are lost, bad dirty sectors poisoned (R187). DESIGN CHOICE: where a bad clean sector lies in a line
that also has dirty sectors, the clean sectors go and the dirty ones stay (log entry 164). -/
def harmWay (bad : BitVec 4) (w : Way) : Option Way :=
  let lost := bad &&& ~~~w.dirty
  let hurt := bad &&& w.dirty
  let valid := if lost = 0 then w.valid else w.dirty
  if valid = 0 then none
  else some { w with valid := valid, poison := (w.poison ||| hurt) &&& valid,
                     cause := (upTo 4).map (fun s => if hasSec hurt s then 1 else lget w.cause s) }

/-- A recurrence within 1 s excludes the way until the next start (R189). -/
def Dev.noteWayError (d : Dev) (key : Nat) : Dev :=
  let last := tget 0 d.cache.lastError key
  let c := { d.cache with lastError := tset 0 d.cache.lastError key (d.now + 1) }
  if last ≠ 0 ∧ d.now + 1 < last + secNs ∧ c.excluded.contains key = false then
    ({ d with cache := { c with excluded := key :: c.excluded } }).event (evPlatform 13)
  else { d with cache := c }

/-- Tag parity: rebuilt from the shadow, or the way discarded (R188). DESIGN CHOICE: the shadow copy of R178 holds no POISON
field; a rebuilt entry keeps its POISON bits (log entry 165). -/
def Dev.checkTag (d : Dev) (key : Nat) (w : Way) : Dev :=
  if w.tagFlips.length % 2 = 0 then d
  else
    let w' := { w with tagFlips := [], shadowBad := false }
    let d := d.noteWayError key
    if w.shadowBad then (d.setWay key (harmWay 0xF w')).event (evPlatform 12)
    else d.setWay key (some w')

/-- Data bytes: single-bit errors corrected, double-bit errors as R187. -/
def Dev.checkData (d : Dev) (key : Nat) (w : Way) : Dev :=
  if w.flips.isEmpty then d
  else
    let ones := (singleBytes w.flips).length
    let bad := badSectors w.flips &&& w.valid
    let d := d.setWay key (harmWay bad { w with flips := [] })
    let d :=
      if ones = 0 then d
      else
        let (ok, last) := onceEvery d.cache.lastCorr key d.now secNs
        let d := { d.count (cntCache 6) ones with cache := { d.cache with lastCorr := last } }
        if ok then d.event (evPlatform 11) else d
    if bad = 0 then d else d.noteWayError key

/-- Check the way that holds a line, before it is used. -/
def Dev.checkLine (d : Dev) (r : Region) (region line : Nat) : Dev :=
  match d.findWay r region line with
  | none => d
  | some (key, w) =>
    let d := d.checkTag key w
    match d.cache.way key with
    | none => d
    | some w => d.checkData key w

/-! ### Staging entries (R130, R159) -/

/-- Entries of a line, newest first. -/
def BenchBlock.ofLine (b : BenchBlock) (k : LineKey) : List Entry :=
  (b.entries.filter (fun e => decide (e.key = k) && decide (e.kind ≠ .delta))).reverse

def BenchBlock.entry (b : BenchBlock) (id : Nat) : Option Entry := b.entries.find? (fun e => e.id == id)

def BenchBlock.setEntry (b : BenchBlock) (e : Entry) : BenchBlock :=
  { b with entries := b.entries.map (fun x => if x.id = e.id then e else x) }

def BenchBlock.dropEntry (b : BenchBlock) (id : Nat) : BenchBlock :=
  { b with entries := b.entries.filter (fun x => x.id != id) }

def Dev.setEntry (d : Dev) (e : Entry) : Dev := { d with bench := d.bench.setEntry e }

/-- Add an entry under the next number; a STAGING flip strikes it as it is created. -/
def Dev.addEntry (d : Dev) (e : Entry) : Dev :=
  let (d, e) :=
    match e.key with
    | .user r l => d.flipEntry r l e
    | .sys _ _ => (d, e)
  { d with bench := { d.bench with
      entries := d.bench.entries ++ [{ e with id := d.bench.nextId }],
      nextId := d.bench.nextId + 1 } }

def mkEntry (region line : Nat) (kind : EntryKind) (data : LineData) (valid poison : BitVec 4)
    (cause : List Nat) : Entry :=
  { id := 0, key := .user region line, kind := kind, state := .staged, data := data, valid := valid,
    poison := poison, cause := cause, image := none, keyId := 0, flips := [], old := none }

/-- Single-bit errors of a payload corrected, double-bit errors turned to poison; one event per entry (08 R305). DEDUCED: an
entry that is only corrected logs it too, as the store has the one source STAGING_UNCORR (log
entry 167). -/
def Dev.checkEntry (d : Dev) (e : Entry) : Dev × Entry :=
  if e.flips.isEmpty then (d, e)
  else
    let bad := badSectors e.flips
    let e' := { e with flips := [], poison := e.poison ||| bad, 
                       cause := (upTo 4).map (fun s => if hasSec bad s then 1 else lget e.cause s) }
    match e.key with
    | .user r l =>
      (d.event (evPlatform 25) (detailOf [(32, r + l * 1024), (40, (e'.poison).toNat)]), e')
    | .sys _ _ => (d, e')

/-! ### The newest copy of a sector (R141) -/

/-- A sector held in the Bench or valid in the cache: data, poison and its cause. -/
structure Copy where
  data   : Sector
  poison : Bool
  cause  : Nat
  deriving DecidableEq, Repr

def entryCopy (e : Entry) (s : Nat) : Copy :=
  ⟨sectorOf e.data s, hasSec e.poison s, lget e.cause s⟩

def wayCopy (w : Way) (s : Nat) : Copy := ⟨sectorOf w.data s, hasSec w.poison s, lget w.cause s⟩

def Dev.sectorCopy (d : Dev) (r : Region) (region line s : Nat) : Option Copy :=
  match (d.bench.ofLine (.user region line)).find? (fun e => hasSec e.valid s) with
  | some e => some (entryCopy e s)
  | none =>
    match d.findWay r region line with
    | some (_, w) => if hasSec w.valid s then some (wayCopy w s) else none
    | none => none

/-- Every sector of a mask has a copy. -/
def Dev.hasCopies (d : Dev) (r : Region) (region line : Nat) (m : BitVec 4) : Bool :=
  (secs m).all (fun s => (d.sectorCopy r region line s).isSome)

/-- The line is in the Bench. -/
def Dev.inBench (d : Dev) (r : Region) (region line : Nat) : Bool :=
  !(d.bench.ofLine (.user region line)).isEmpty ||
  (match d.findWay r region line with
   | some (_, w) => w.dirty != 0
   | none => false)

/-! ### Write-back selection (R184, R185) -/

/-- Mark one way as selected, in order. -/
def Dev.selectKey (d : Dev) (key : Nat) : Dev :=
  match d.cache.way key with
  | some w =>
    if w.dirty = 0 ∨ w.selected.isSome then d
    else
      let n := d.cache.selNext
      { d with cache := { d.cache.setWay key (some { w with selected := some n }) with selNext := n + 1 } }
  | none => d

/-- The other data lines of a line's PARITY stripe, when all of them are dirty with four valid sectors (R185). -/
def Dev.gathered (d : Dev) (r : Region) (region line : Nat) : List Nat :=
  if r.prot = .parity ∧ d.cache.gather then
    let first := line - line % zoneLines r.prot % 15
    let keys := ((upTo 15).filter (fun j => first + j != line)).filterMap (fun j =>
      match d.findWay r region (first + j) with
      | some (k, w) => if w.dirty ≠ 0 ∧ w.valid = 0xF then some k else none
      | none => none)
    if keys.length = 14 then keys else []
  else []

/-- Select a line for write-back, and its gathered stripe. -/
def Dev.selectLine (d : Dev) (r : Region) (region line : Nat) : Dev :=
  match d.findWay r region line with
  | some (key, _) => (key :: d.gathered r region line).foldl Dev.selectKey d
  | none => d

/-- Select the dirty line of one way, and its gathered stripe. -/
def Dev.selectWay (d : Dev) (key : Nat) : Dev :=
  match d.cache.way key with
  | some w =>
    if w.dirty = 0 then d
    else match d.region w.region with
    | some r => d.selectLine r w.region w.line
    | none => d.selectKey key
  | none => d

def oldestDirty (l : List (Nat × Option Way)) : Option (Nat × Way) :=
  l.foldl (fun b p =>
    match p.2 with
    | some w =>
      if w.dirty = 0 ∨ w.selected.isSome then b
      else match b with
        | some (k, x) => if w.dirtyAt < x.dirtyAt then some (p.1, w) else some (k, x)
        | none => some (p.1, w)
    | none => b) none

/-- Dirty lines not selected. -/
def CacheBlock.unselected (c : CacheBlock) : Nat :=
  (c.ways.filter (fun p => match p.2 with
    | some w => w.dirty != 0 && w.selected.isNone
    | none => false)).length

/-- WATERMARK: the oldest unselected lines, until at most HIGH_WM percent of BENCH_CAP stay unselected. -/
def watermark : Nat → Dev → Dev
  | 0, d => d
  | n + 1, d =>
    if d.cache.unselected * 100 ≤ d.cache.highWm.toNat * d.bench.cap then d
    else match oldestDirty d.cache.ways with
      | some (_, w) =>
        match d.region w.region with
        | some r => watermark n (d.selectLine r w.region w.line)
        | none => d
      | none => d

def selectDirty (d : Dev) (p : Nat × Option Way) : Dev :=
  match p.2 with
  | some w => if w.dirty = 0 then d else d.selectKey p.1
  | none => d

/-- Select every dirty line: EXPOSED, a drain, an orderly shut-down. -/
def Dev.selectAll (d : Dev) : Dev := d.cache.ways.foldl selectDirty d

/-- The triggers that follow the state and not one command: EXPOSED, a drain and an orderly shut-down take every
dirty line as soon as it is written (R165, R162, 19 R687); WATERMARK takes the oldest. -/
def Dev.selectDue (d : Dev) : Dev :=
  if d.bench.exposed || d.bench.draining || d.life.shutting.isSome then d.selectAll
  else if d.cache.highWm.toNat * d.bench.cap < d.occupancy * 100 then watermark d.cache.unselected d
  else d

/-! ### From a way into the staging store (R750, R186) -/

def victimEntry (w : Way) : Entry :=
  mkEntry w.region w.line .victim w.data w.valid w.poison w.cause

/-- Move a dirty line into a staging entry; the way stays clean, unless it has been retired. -/
def Dev.stageWay (d : Dev) (key : Nat) : Dev :=
  match d.cache.way key with
  | some w =>
    match d.region w.region with
    | some r =>
      let d := d.checkLine r w.region w.line
      match d.cache.way key with
      | some w =>
        if w.dirty = 0 then d
        else
          let left := if d.cache.retired.toNat.testBit (key % 16) then none
            else some { w with dirty := 0, selected := none }
          ((d.setWay key left).flipTagOf key w.region w.line).addEntry (victimEntry w)
      | none => d
    | none => d.setWay key none
  | none => d

/-- Selected lines, oldest selection first. DESIGN CHOICE: R750 does not say what 'oldest first' orders by; lines selected at
once follow in the order of their sets and ways (log entry 168). -/
def CacheBlock.nextSelected (c : CacheBlock) : Option Nat :=
  (c.ways.foldl (fun (b : Option (Nat × Nat)) p =>
    match p.2 with
    | some w =>
      match w.selected with
      | some n =>
        match b with
        | some (k, m) => if n < m then some (p.1, n) else some (k, m)
        | none => some (p.1, n)
      | none => b
    | none => b) none).map Prod.fst

/-! ### Acceptance (R134, R138, R159, R180) -/

def writeWay (now : Nat) (w : Way) (s : Nat) (x : Copy) : Way :=
  { w with
    valid := addSec w.valid s, dirty := addSec w.dirty s
    poison := if x.poison then addSec w.poison s else delSec w.poison s
    cause := (upTo 4).map (fun i => if i = s then (if x.poison then x.cause else 0) else lget w.cause i)
    data := setSector w.data s x.data
    flips := w.flips.filter (fun f => f.1 / 64 != s)
    dirtyAt := if w.dirty = 0 then now else w.dirtyAt }

def freshWay (region line now : Nat) : Way :=
  { region := region, line := line, valid := 0, dirty := 0, poison := 0, cause := [0, 0, 0, 0],
    data := 0, dirtyAt := now, selected := none, flips := [], tagFlips := [], shadowBad := false }

/-- The clean copy in the cache follows a merge into the staging store. -/
def Dev.followClean (d : Dev) (r : Region) (region line s : Nat) (x : Copy) : Dev :=
  match d.findWay r region line with
  | some (key, w) =>
    let w' := writeWay d.now w s x
    ((d.setWay key (some { w' with dirty := w.dirty, dirtyAt := w.dirtyAt })).touch key).flipTagOf key region line
  | none => d

def writeEntry (e : Entry) (s : Nat) (x : Copy) : Entry :=
  { e with
    valid := addSec e.valid s, data := setSector e.data s x.data
    poison := if x.poison then addSec e.poison s else delSec e.poison s
    cause := (upTo 4).map (fun i => if i = s then (if x.poison then x.cause else 0) else lget e.cause i)
    flips := e.flips.filter (fun f => f.1 / 64 != s) }

/-- A side-buffer entry of the line, and the buffer without it. -/
def CacheBlock.takeSide (c : CacheBlock) (region line : Nat) : Option SideEntry × CacheBlock :=
  let p := fun (e : SideEntry) => e.region == region && e.line == line
  (c.side.find? p, { c with side := c.side.filter (fun e => !p e) })

/-- A way for a write: the line's own, else invalid, clean, or a dirty victim moved to staging. -/
def Dev.writeAlloc (d : Dev) (r : Region) (region line : Nat) : Dev × Option Nat :=
  let set := setOf r line
  match d.findWay r region line with
  | some (k, _) => (d, some k)
  | none =>
    match d.cache.fillWay set with
    | some k => (d.setWay k (some (freshWay region line d.now)), some k)
    | none =>
      match d.cache.victim set wayDirty with
      | some k => (((d.selectWay k).stageWay k).setWay k (some (freshWay region line d.now)), some k)
      | none => (d, none)

/-- A CONFIRMED side-buffer line is promoted before the write merges, into the way that the write takes; a VERGE
entry is dropped (R194). -/
def Dev.sideForWrite (d : Dev) (r : Region) (region line : Nat) : Dev :=
  match d.cache.takeSide region line with
  | (none, _) => d
  | (some e, c) =>
    let d := { d with cache := c }
    if e.state = SideState.confirmed then
      match d.writeAlloc r region line with
      | (d, some k) => d.setWay k (some { freshWay region line d.now with valid := 0xF, data := e.data })
      | (d, none) => d
    else d

/-- Write a sector into the cache; where no way of the set can be used, into the staging entry that the write
reserved. -/
def Dev.writeCache (d : Dev) (r : Region) (region line s : Nat) (x : Copy) : Dev :=
  let d := d.checkLine r region line
  let d := if (d.findWay r region line).isNone then d.sideForWrite r region line else d
  match d.writeAlloc r region line with
  | (d, some k) =>
    match d.cache.way k with
    | some w =>
      ((d.setWay k (some (writeWay d.now w s x))).touch k).flipWay k region line
    | none => d
  | (d, none) => d.addEntry (writeEntry (mkEntry region line .victim 0 0 0 (sameCause 0)) s x)

/-- Take a sector into the newest STAGED or pinned entry, a fresh entry over an ISSUED one, or the cache. -/
def Dev.acceptNow (d : Dev) (r : Region) (region line s : Nat) (x : Copy) : Dev :=
  match d.bench.ofLine (.user region line) with
  | e :: _ =>
    let d := d.followClean r region line s x
    match e.state with
    | .issued =>
      d.addEntry (writeEntry { mkEntry region line .victim e.data e.valid e.poison e.cause with
        flips := [] } s x)
    | _ => d.setEntry (writeEntry e s x)
  | [] => d.writeCache r region line s x

/-- Zero a line through the Bench (06 R260). -/
def Dev.zeroWrite (d : Dev) (r : Region) (region line : Nat) : Dev :=
  (upTo 4).foldl (fun d s => d.acceptNow r region line s ⟨0, false, 0⟩) d

/-- Lines that a DISCARD or SECURE_DISCARD has still to zero; it waits for room in the Bench. -/
def Exec.zeroLeft (x : Exec) : List Nat :=
  if x.parked && (decide (x.opcode = 0x17) || decide (x.opcode = 0x18)) then (x.params.drop 7).map BitVec.toNat else []

def Exec.zeroes (x : Exec) (region line : Nat) : Bool :=
  decide (fld ((x.params[0]?).getD 0).toNat 0 10 = region) && x.zeroLeft.contains line

/-- The command has zeroed the line. -/
def Exec.zeroed (x : Exec) (line : Nat) : Exec :=
  { x with params := x.params.take 7 ++ (x.params.drop 7).filter (fun l => l.toNat != line) }

/-- A write to a line that a started discard has yet to zero comes after its zeros: the line is zeroed first (06 R260). -/
def Dev.zeroFirst (d : Dev) (r : Region) (region line : Nat) : Dev :=
  if d.q.exec.any (fun x => x.zeroes region line) then
    { d.zeroWrite r region line with q := { d.q with
        exec := d.q.exec.map (fun x => if x.zeroes region line then x.zeroed line else x) } }
  else d

/-- Accept a sector (R134, R159). -/
def Dev.accept (d : Dev) (r : Region) (region line s : Nat) (x : Copy) : Dev :=
  (d.zeroFirst r region line).acceptNow r region line s x

/-! ### Fills (R126, R137, R138, R182) -/

/-- Sectors that the Bench or the cache holds keep their data; the others take the fill. -/
def fillData (d : Dev) (r : Region) (region line : Nat) (data : LineData) (poison : BitVec 4)
    (cause : List Nat) : LineData × BitVec 4 × List Nat :=
  (upTo 4).foldl (fun (acc : LineData × BitVec 4 × List Nat) s =>
    match d.sectorCopy r region line s with
    | some x =>
      (setSector acc.1 s x.data, if x.poison then addSec acc.2.1 s else delSec acc.2.1 s,
       acc.2.2 ++ [if x.poison then x.cause else 0])
    | none => (acc.1, acc.2.1, acc.2.2 ++ [if hasSec poison s then lget cause s else 0]))
    (data, poison, [])

/-- Fill a line from media; with no invalid or clean way nothing is cached (R182). -/
def Dev.fill (d : Dev) (r : Region) (region line : Nat) (data : LineData) (poison : BitVec 4)
    (cause : List Nat) : Dev :=
  let (dat, poi, cau) := fillData d r region line data poison cause
  let put (w : Way) : Way := { w with valid := 0xF, data := dat, poison := poi, cause := cau }
  match d.findWay r region line with
  | some (k, w) => ((d.setWay k (some (put w))).touch k).flipTagOf k region line
  | none =>
    match d.cache.fillWay (setOf r line) with
    | some k => ((d.setWay k (some (put (freshWay region line d.now)))).touch k).flipTagOf k region line
    | none => d.count (cntCache 2) 1

/-- The clean copies of a line leave its way (04 R154). -/
def Dev.dropClean (d : Dev) (r : Region) (region line : Nat) : Dev :=
  match d.findWay r region line with
  | some (key, w) =>
    if w.dirty = 0 then d.setWay key none
    else d.setWay key (some { w with valid := w.dirty, poison := w.poison &&& w.dirty })
  | none => d

/-- A fill of the line would find a way. -/
def Dev.canFill (d : Dev) (r : Region) (region line : Nat) : Bool :=
  (d.findWay r region line).isSome || (d.cache.fillWay (setOf r line)).isSome

/-- Drop every copy of a line without programming it (06 R259). -/
def Dev.dropLine (d : Dev) (region line : Nat) : Dev :=
  let ways := d.cache.ways.filter (fun p => match p.2 with
    | some w => !(w.region == region && w.line == line)
    | none => true)
  { d with
    cache := { (d.cache.takeSide region line).2 with ways := ways }
    bench := { d.bench with
      entries := d.bench.entries.filter (fun e => decide (e.key ≠ .user region line))
      backs := d.bench.backs.filter (fun e => decide (e.key ≠ .user region line)) } }

/-- Drop every copy of lines from lo up to hi of a region. -/
def Dev.dropRange (d : Dev) (region lo hi : Nat) : Dev :=
  let inR (r l : Nat) : Bool := r == region && decide (lo ≤ l) && decide (l < hi)
  let keeps (e : Entry) : Bool := match e.key with
    | .user r l => !(inR r l)
    | .sys _ _ => true
  { d with
    cache := { d.cache with
      ways := d.cache.ways.filter (fun p => match p.2 with
        | some w => !(inR w.region w.line)
        | none => true)
      side := d.cache.side.filter (fun e => !(inR e.region e.line)) }
    bench := { d.bench with
      entries := d.bench.entries.filter keeps
      backs := d.bench.backs.filter keeps } }

end Sys2Proof.Machine
end

