-- ==== Sys2Proof/Machine/Crypto.lean ====
section
/-!
DEFINITION. The ciphers and digests that 15 names by their standards: SHA-256 (FIPS 180-4), AES-256
(FIPS 197), XTS (IEEE 1619), CMAC, Key Wrap (RFC 3394), ECDSA over P-256 (FIPS 186-5). PRESUMED from
those standards (log entry 10); the manual gives the inputs and where the results go.
-/

namespace Sys2Proof.Machine

/-! ### SHA-256

The standard takes its constants from roots of the first primes, and so do these definitions: no table. -/

/-- The first n primes at or after p, with fuel. -/
def primesFrom : Nat → Nat → Nat → List Nat
  | 0, _, _ => []
  | fuel + 1, n, p =>
    if n = 0 then []
    else if (upTo p).all (fun q => decide (q < 2) || decide (p % q ≠ 0)) then p :: primesFrom fuel (n - 1) (p + 1)
    else primesFrom fuel n (p + 1)

/-- The greatest number r of at most `bits` bits with r^e ≤ x, found from its top bit down. -/
def rootOf (e x : Nat) : Nat → Nat → Nat
  | 0, r => r
  | bits + 1, r => rootOf e x bits (if (r + 2 ^ bits) ^ e ≤ x then r + 2 ^ bits else r)

/-- The first 32 bits of the fractional part of the e-th root of p. -/
def rootFraction (e p : Nat) : BitVec 32 := BitVec.ofNat 32 (rootOf e (p * 2 ^ (32 * e)) 37 0)

/-- The sixteen-word window of the message schedule moved on by one word: its oldest word is spent, and the
word sixteen places later joins it. -/
def shaSlide (win : List (BitVec 32)) : List (BitVec 32) :=
  let at_ (i : Nat) : BitVec 32 := win.getD i 0
  let turn (x : BitVec 32) (a b c : Nat) : BitVec 32 := (x.rotateRight a ^^^ x.rotateRight b) ^^^ x >>> c
  win.drop 1 ++ [turn (at_ 14) 17 19 10 + at_ 9 + turn (at_ 1) 7 18 3 + at_ 0]

/-- One round on the eight working words, given as one list, with the sum of the round's constant and word. -/
def shaMix (v : List (BitVec 32)) (kw : BitVec 32) : List (BitVec 32) :=
  let at_ (i : Nat) : BitVec 32 := v.getD i 0
  let spin (x : BitVec 32) (l : List Nat) : BitVec 32 := l.foldl (fun acc n => acc ^^^ x.rotateRight n) 0
  let pick := at_ 6 ^^^ (at_ 4 &&& (at_ 5 ^^^ at_ 6))
  let most := (at_ 0 &&& (at_ 1 ||| at_ 2)) ||| (at_ 1 &&& at_ 2)
  let down := kw + at_ 7 + pick + spin (at_ 4) [6, 11, 25]
  (down + most + spin (at_ 0) [2, 13, 22]) :: v.take 3 ++ (at_ 3 + down) :: (v.drop 4).take 3

/-- The rounds of a block: the constants left, the window and the working words. -/
def shaRounds : List (BitVec 32) → List (BitVec 32) → List (BitVec 32) → List (BitVec 32)
  | [], _, v => v
  | k :: ks, win, v => shaRounds ks (shaSlide win) (shaMix v (k + win.getD 0 0))

/-- Blocks taken one after another into the chaining value. -/
def shaChain (ks : List (BitVec 32)) : Nat → List (BitVec 32) → List Byte → List (BitVec 32)
  | 0, h, _ => h
  | n + 1, h, l =>
    let win := (upTo 16).map (fun i => BitVec.ofNat 32 (beNat ((l.drop (4 * i)).take 4)))
    shaChain ks n (List.zipWith (· + ·) h (shaRounds ks win h)) (l.drop 64)

/-- The round constants, and the chaining value that a message starts from. -/
def shaConstants : List (BitVec 32) := (primesFrom 320 64 2).map (rootFraction 3)

def shaStart : List (BitVec 32) := (primesFrom 320 8 2).map (rootFraction 2)

/-- The digest of a message of n bytes from the chaining value of its whole blocks and the bytes after them. -/
def shaFinish (n : Nat) (h : List (BitVec 32)) (part : List Byte) : List Byte :=
  let blocks := (part.length + 72) / 64
  let tail := beBytes (64 * blocks - part.length - 1) (8 * n)
  (shaChain shaConstants blocks h (part ++ 0x80 :: tail)).flatMap (fun w => beBytes 4 w.toNat)

/-- SHA-256 of a message: 32 bytes. -/
def sha256 (m : List Byte) : List Byte := shaFinish m.length shaStart m

/-! ### AES-256 -/

def xtime (b : Nat) : Nat := if b < 128 then 2 * b else (2 * b - 256) ^^^ 0x1b

/-- Product in GF(2^8) with the AES polynomial. -/
def aesMul : Nat → Nat → Nat → Nat
  | 0, _, _ => 0
  | n + 1, a, b => (if b % 2 = 1 then a else 0) ^^^ aesMul n (xtime a) (b / 2)

def gmul (a b : Nat) : Nat := aesMul 8 a b

/-- a^254, the inverse of a (0 for 0). -/
def ginv (a : Nat) : Nat :=
  let a2 := gmul a a
  let a4 := gmul a2 a2
  let a8 := gmul a4 a4
  let a16 := gmul a8 a8
  let a32 := gmul a16 a16
  let a64 := gmul a32 a32
  let a128 := gmul a64 a64
  gmul a2 (gmul a4 (gmul a8 (gmul a16 (gmul a32 (gmul a64 a128)))))

def rol8 (b n : Nat) : Nat := (b <<< n ||| b >>> (8 - n)) % 256

def sbox (b : Nat) : Nat :=
  let x := ginv b
  x ^^^ rol8 x 1 ^^^ rol8 x 2 ^^^ rol8 x 3 ^^^ rol8 x 4 ^^^ 0x63

def sboxInv (b : Nat) : Nat := ginv (rol8 b 1 ^^^ rol8 b 3 ^^^ rol8 b 6 ^^^ 0x05)

/-- Key schedule words (4 bytes each), newest first; i counts words made. -/
def aesExpand : Nat → Nat → Nat → List (List Nat) → List (List Nat)
  | 0, _, _, l => l
  | n + 1, i, rc, l =>
    let prev := (l[0]?).getD []
    let back := (l[7]?).getD []
    let t :=
      if i % 8 = 0 then
        match (prev.drop 1 ++ prev.take 1).map sbox with
        | a :: r => (a ^^^ rc) :: r
        | [] => []
      else if i % 8 = 4 then prev.map sbox else prev
    aesExpand n (i + 1) (if i % 8 = 0 then xtime rc else rc) (List.zipWith (· ^^^ ·) back t :: l)

def chunk4 : Nat → List Nat → List (List Nat)
  | 0, _ => []
  | n + 1, l => l.take 4 :: chunk4 n (l.drop 4)

/-- The fifteen round keys of a 32 B key, 16 bytes each. -/
def aesKeys (key : List Byte) : List (List Nat) :=
  let ws := (aesExpand 52 8 1 (chunk4 8 (key.map BitVec.toNat)).reverse).reverse
  (upTo 15).map (fun r => ((ws.drop (4 * r)).take 4).flatten)

def xorL (a b : List Nat) : List Nat := List.zipWith (· ^^^ ·) a b

def permute (p : List Nat) (s : List Nat) : List Nat := p.map (lget s)

def shiftRowsP : List Nat := [0, 5, 10, 15, 4, 9, 14, 3, 8, 13, 2, 7, 12, 1, 6, 11]
def shiftRowsInvP : List Nat := [0, 13, 10, 7, 4, 1, 14, 11, 8, 5, 2, 15, 12, 9, 6, 3]

def mixColumn (m : List Nat) (c : List Nat) : List Nat :=
  (upTo 4).map (fun r => (upTo 4).foldl (fun x k => x ^^^ gmul (lget m ((k + 4 - r) % 4)) (lget c k)) 0)

def mixColumns (m : List Nat) (s : List Nat) : List Nat := (chunk4 4 s).flatMap (mixColumn m)

def aesEncRound (s k : List Nat) : List Nat :=
  xorL (mixColumns [2, 3, 1, 1] (permute shiftRowsP (s.map sbox))) k

def aesDecRound (s k : List Nat) : List Nat :=
  mixColumns [14, 11, 13, 9] (xorL ((permute shiftRowsInvP s).map sboxInv) k)

/-- AES-256 of one 16 B block under expanded keys. -/
def aesEnc (ks : List (List Nat)) (b : List Nat) : List Nat :=
  let s := ((ks.drop 1).take 13).foldl aesEncRound (xorL b ((ks[0]?).getD []))
  xorL (permute shiftRowsP (s.map sbox)) ((ks[14]?).getD [])

def aesDec (ks : List (List Nat)) (b : List Nat) : List Nat :=
  let s := ((ks.drop 1).take 13).reverse.foldl aesDecRound (xorL b ((ks[14]?).getD []))
  xorL ((permute shiftRowsInvP s).map sboxInv) ((ks[0]?).getD [])

def toBytes (l : List Nat) : List Byte := l.map (BitVec.ofNat 8)
def ofBytes (l : List Byte) : List Nat := l.map BitVec.toNat

/-! ### XTS: one data unit of 256 B (R553) -/

/-- The tweak times α, little-endian, polynomial x^128 + x^7 + x^2 + x + 1. -/
def xtsMul (t : Nat) : Nat := if t < 2 ^ 127 then 2 * t else (2 * t - 2 ^ 128) ^^^ 0x87

def xtsBlocks (f : List Nat → List Nat) : Nat → Nat → List Byte → List Byte
  | 0, _, _ => []
  | n + 1, t, l =>
    let tb := ofBytes (leBytes 16 t)
    toBytes (xorL (f (xorL (ofBytes (l.take 16)) tb)) tb) ++ xtsBlocks f n (xtsMul t) (l.drop 16)

def xts (enc : Bool) (k1 k2 : List Byte) (tweak : Nat) (m : List Byte) : List Byte :=
  let t := leNat (toBytes (aesEnc (aesKeys k2) (ofBytes (leBytes 16 tweak))))
  let ks := aesKeys k1
  xtsBlocks (if enc then aesEnc ks else aesDec ks) (m.length / 16) t m

/-! ### CMAC (R557) -/

def cmacDouble (x : Nat) : Nat := if x < 2 ^ 127 then 2 * x else (2 * x - 2 ^ 128) ^^^ 0x87

def cmacChain (ks : List (List Nat)) : Nat → List Nat → List Byte → List Nat
  | 0, x, _ => x
  | n + 1, x, l => cmacChain ks n (aesEnc ks (xorL x (ofBytes (l.take 16)))) (l.drop 16)

/-- AES-CMAC of a message of whole 16 B blocks. -/
def cmac (key : List Byte) (m : List Byte) : List Byte :=
  let ks := aesKeys key
  let k1 := cmacDouble (beNat (toBytes (aesEnc ks (List.replicate 16 0))))
  let n := m.length / 16
  let x := cmacChain ks (n - 1) (List.replicate 16 0) m
  let last := xorL (ofBytes (m.drop (16 * (n - 1)))) (ofBytes (beBytes 16 k1))
  toBytes (aesEnc ks (xorL x last))

/-! ### AES Key Wrap (R564, KWK record) -/

/-- Unwrap steps t = 6n down to 1: A, and the registers R[1..n]. -/
def unwrapSteps (ks : List (List Nat)) (n : Nat) : Nat → List Byte → List (List Byte) →
    List Byte × List (List Byte)
  | 0, a, r => (a, r)
  | t + 1, a, r =>
    let i := t % n
    let ax := beBytes 8 (beNat a ^^^ (t + 1))
    let b := toBytes (aesDec ks (ofBytes (ax ++ (r[i]?).getD [])))
    unwrapSteps ks n t (b.take 8) (r.set i (b.drop 8))

def chunk8 : Nat → List Byte → List (List Byte)
  | 0, _ => []
  | n + 1, l => l.take 8 :: chunk8 n (l.drop 8)

/-- RFC 3394 unwrap; `none` when the integrity check fails. -/
def keyUnwrap (kek : List Byte) (c : List Byte) : Option (List Byte) :=
  let n := c.length / 8 - 1
  let (a, r) := unwrapSteps (aesKeys kek) n (6 * n) (c.take 8) (chunk8 n (c.drop 8))
  if a = List.replicate 8 (0xA6 : Byte) then some r.flatten else none

def wrapSteps (ks : List (List Nat)) (n : Nat) : Nat → Nat → List Byte → List (List Byte) →
    List Byte × List (List Byte)
  | 0, _, a, r => (a, r)
  | m + 1, t, a, r =>
    let i := t % n
    let b := toBytes (aesEnc ks (ofBytes (a ++ (r[i]?).getD [])))
    wrapSteps ks n m (t + 1) (beBytes 8 (beNat (b.take 8) ^^^ (t + 1))) (r.set i (b.drop 8))

/-- RFC 3394 wrap. -/
def keyWrap (kek : List Byte) (p : List Byte) : List Byte :=
  let n := p.length / 8
  let (a, r) := wrapSteps (aesKeys kek) n (6 * n) 0 (List.replicate 8 0xA6) (chunk8 n p)
  a ++ r.flatten

/-! ### ECDSA over P-256 (R580) -/

def p256p : Nat := 0xffffffff00000001000000000000000000000000ffffffffffffffffffffffff
def p256n : Nat := 0xffffffff00000000ffffffffffffffffbce6faada7179e84f3b9cac2fc632551
def p256b : Nat := 0x5ac635d8aa3a93e7b3ebbd55769886bc651d06b0cc53b0f63bce3c3e27d2604b
def p256g : Nat × Nat :=
  (0x6b17d1f2e12c4247f8bce6e563a440f277037d812deb33a0f4a13945d898c296,
   0x4fe342e2fe1a7f9b8ee7eb4a7c0f9e162bce33576b315ececbb6406837bf51f5)

def powMod (m : Nat) : Nat → Nat → Nat → Nat → Nat
  | 0, _, _, acc => acc
  | fuel + 1, b, e, acc =>
    if e = 0 then acc
    else powMod m fuel (b * b % m) (e / 2) (if e % 2 = 1 then acc * b % m else acc)

def invMod (m a : Nat) : Nat := powMod m 256 (a % m) (m - 2) 1

/-- Affine addition on the curve; `none` is the point at infinity. -/
def ecAdd : Option (Nat × Nat) → Option (Nat × Nat) → Option (Nat × Nat)
  | none, q => q
  | p, none => p
  | some (x1, y1), some (x2, y2) =>
    let p := p256p
    if x1 = x2 ∧ (y1 + y2) % p = 0 then none
    else
      let l :=
        if x1 = x2 then (3 * x1 * x1 + (p - 3)) * invMod p (2 * y1) % p
        else (y2 + (p - y1)) * invMod p (x2 + (p - x1)) % p
      let x := (l * l + (p - x1) + (p - x2)) % p
      some (x, (l * (x1 + (p - x)) + (p - y1)) % p)

def ecMul : Nat → Nat → Option (Nat × Nat) → Option (Nat × Nat) → Option (Nat × Nat)
  | 0, _, _, acc => acc
  | fuel + 1, k, q, acc =>
    if k = 0 then acc
    else ecMul fuel (k / 2) (ecAdd q q) (if k % 2 = 1 then ecAdd acc q else acc)

def onCurve (x y : Nat) : Bool :=
  decide (x < p256p) && decide (y < p256p) &&
  decide (y * y % p256p = (x * x * x + (p256p - 3) * x + p256b) % p256p)

/-- Verify signature (r, s) by public key (x, y) over a message. -/
def ecdsaVerify (x y r s : Nat) (msg : List Byte) : Bool :=
  let z := beNat (sha256 msg)
  if r = 0 ∨ s = 0 ∨ p256n ≤ r ∨ p256n ≤ s ∨ onCurve x y = false then false
  else
    let w := invMod p256n s
    let u1 := z * w % p256n
    let u2 := r * w % p256n
    match ecAdd (ecMul 256 u1 (some p256g) none) (ecMul 256 u2 (some (x, y)) none) with
    | none => false
    | some (px, _) => decide (px % p256n = r)

end Sys2Proof.Machine
end

