-- ==== Sys2Proof/Machine/Lines.lean ====
section
/-!
DEFINITION. One line on the medium: expected key and tweak (15), the image a write commits (04 R143), the
confirmation of a sensed image (03 R108), reconstruction (07 R274), and a whole read with its passes as one
operation, for the work that is not a host read (03 R98-R107).
-/

namespace Sys2Proof.Machine

/-! ### Keys (R553-R557, R560, R568) -/

def slotFree : KeySlot := { state := .free, key := 0, check := 0 }

/-- The fused root key, gated to zero once TEST_UNLOCK has run (R588). -/
def Dev.rootKey (d : Dev) : List Byte := leBytes 32 (if d.sec.testUnlocked then 0 else Config.rootKey.toNat)

def Dev.slot (d : Dev) (k : Nat) : KeySlot := tget slotFree d.sec.slots k

/-- Key ID k can encrypt and decrypt: plaintext, LOADED, or CLOSING while it still serves reads. -/
def Dev.keyUsable (d : Dev) (k : Nat) : Bool :=
  decide (k = 0) || decide ((d.slot k).state = .loaded) || decide ((d.slot k).state = .closing)

def Dev.keyLoaded (d : Dev) (k : Nat) : Bool := decide (k = 0) || decide ((d.slot k).state = .loaded)

/-- K1, K2 and K3 of a slot: bytes 0-31, 32-63, 64-95. -/
def Dev.keyPart (d : Dev) (k i : Nat) : List Byte := leBytes 32 (fld (d.slot k).key.toNat (256 * i) 256)

/-- The tweak of a line (R554). -/
def tweakOf (region line : Nat) : Nat := pack [(37, line), (10, region)]

def Dev.encrypt (d : Dev) (k region line : Nat) (x : LineData) : LineData :=
  if k = 0 then x
  else if d.keyUsable k = false then Config.noKeyCells k region line
  else bytesLine (xts true (d.keyPart k 0) (d.keyPart k 1) (tweakOf region line) (lineBytes x))

def Dev.decrypt (d : Dev) (k region line : Nat) (x : LineData) : LineData :=
  if k = 0 then x
  else bytesLine (xts false (d.keyPart k 0) (d.keyPart k 1) (tweakOf region line) (lineBytes x))

/-- Line MAC over the stored cells (R557). -/
def Dev.lineMac (d : Dev) (k region line : Nat) (cells : LineData) : Nat :=
  let m := leBytes 2 region ++ leBytes 5 line ++ leBytes 1 k ++ leBytes 8 0 ++ lineBytes cells
  leNat ((cmac (d.keyPart k 2) m).take 7)

/-- The key IDs a line may carry. -/
inductive KeyExpect where
  | any
  | one (k : Nat)
  | two (o n : Nat)
  deriving DecidableEq, Repr

/-- Line index i lies in the crossing range of a rekey (R569). -/
def crossing (r : Region) (q : Rekey) (i : Nat) : Bool :=
  if q.resumed then decide (q.persist ≤ i) && decide (i < q.limit)
  else decide (q.boundary ≤ i) && decide (i < q.boundary + stripeLines r.prot)

def Region.expect (r : Region) (i : Nat) : KeyExpect :=
  match r.rekey with
  | none => .one r.keyId
  | some q =>
    if crossing r q i then .two q.oldKey q.newKey
    else if i < q.boundary then .one q.newKey
    else .one q.oldKey

/-- Key ID that a write of line i takes at commit (R572, log entry 15). -/
def Region.writeKey (r : Region) (i : Nat) : Nat :=
  match r.rekey with
  | none => r.keyId
  | some q => if i < q.boundary then q.newKey else q.oldKey

def keyMatches (x : KeyExpect) (k : Nat) : Bool :=
  match x with
  | .any => true
  | .one j => decide (j = k)
  | .two o n => decide (k = o) || decide (k = n)

/-! ### What a place of a stripe should hold -/

/-- Expected contents of one physical line; line: its index in the region, none for parity and copies. -/
structure LineCtx where
  pla    : Pla
  prot   : Prot
  prof   : Profile
  lz     : Nat
  s      : Nat
  role   : Role
  slot   : Nat
  region : Nat
  line   : Option Nat
  /-- Index that the tweak and the MAC take: a copy's is its primary's. -/
  idx    : Nat
  key    : KeyExpect
  mac    : Bool
  deriving DecidableEq, Repr

/-- Index of all ones, for a parity line or a copy (R521). -/
def noLine : Nat := 2 ^ 37 - 1

def LineCtx.lineNo (c : LineCtx) : Nat := c.line.getD noLine

/-- The context of a place of stripe s of zone k of a region; e: the ZT entry. -/
def mkCtx (region : Nat) (r : Region) (k e lz s : Nat) (q : Place) : LineCtx :=
  let i := lineIndex r.prot k s q.slot
  { pla := placePla e s q, prot := r.prot, prof := zProfile e, lz := lz, s := s, role := q.role,
    slot := q.slot, region := region,
    line := if q.role = .data ∨ q.role = .primary then some i else none, idx := i,
    key := if q.role = .parity then .any else r.expect i,
    mac := r.mac && q.role != .parity }

/-- Everything the device needs to name a stripe. -/
structure StripeCtx where
  region : Nat
  r      : Region
  k      : Nat
  lz     : Nat
  e      : Nat
  s      : Nat
  deriving DecidableEq, Repr

def StripeCtx.ctx (t : StripeCtx) (q : Place) : LineCtx := mkCtx t.region t.r t.k t.e t.lz t.s q

def StripeCtx.data (t : StripeCtx) : List LineCtx := (dataPlaces t.r.prot t.s t.lz).map t.ctx

def StripeCtx.check (t : StripeCtx) : List LineCtx := (checkPlaces t.r.prot t.s t.lz).map t.ctx

def StripeCtx.all (t : StripeCtx) : List LineCtx := t.data ++ t.check

/-- Stripe s of a logical zone that belongs to a region. -/
def Dev.stripe (d : Dev) (lz s : Nat) : Option StripeCtx :=
  (d.zoneOwner lz).map (fun p =>
    { region := p.1, r := p.2.1, k := p.2.2, lz := lz, e := d.zte lz, s := s })

/-! ### Confirmation (R58, R108, R109, R273) -/

/-- The outcome of the checks of R108. -/
inductive Verdict where
  | good (cells : LineData) (m : Meta) (corrected : Nat)
  | macFail
  | bad
  deriving DecidableEq, Repr

/-- What a sensed line decodes to; a wrong profile bit or tag is as a failed decode (R58). -/
def LineCtx.reads (c : LineCtx) (img : Image) : Option (LineData × Meta × Nat) :=
  match decodeSensed c.prof img with
  | none => none
  | some (cells, m, n) =>
    if m.light ≠ decide (c.prof = .light) ∨ m.tag ≠ mkTag c.lz c.s c.role then none else some (cells, m, n)

/-- A sensed line is BLANK (R62): it does not decode, and 632 of its cells or more read L15. -/
def LineCtx.blank (c : LineCtx) (img : Image) : Bool := looksBlank img && (c.reads img).isNone

/-- Decode, tag and profile, key ID, MAC, in that order; macOn: a MAC decision is made (R316). -/
def Dev.confirm (d : Dev) (c : LineCtx) (macOn : Bool) (img : Image) : Verdict :=
  match c.reads img with
  | none => .bad
  | some (cells, m, n) =>
    if keyMatches c.key m.keyId = false then .bad
    else if macOn && c.mac && d.keyUsable m.keyId && decide (m.keyId ≠ 0) &&
        decide (d.lineMac m.keyId c.region c.idx cells ≠ m.mac) then .macFail
    else .good cells m n

/-! ### Lines pinned in the Bench (R41) -/

/-- The staging entry of a line pinned under R41. -/
def Dev.pinnedEntry (d : Dev) (c : LineCtx) : Option Entry :=
  (d.bench.ofLine (.user c.region c.lineNo)).find? (fun e => decide (e.state = .pinned) && e.image.isSome)

/-- The program of a line's place has failed with no spare line left (R41). -/
def Dev.placeFailed (d : Dev) (p : Pla) : Bool := d.medium.failed.contains p.toNat

/-- Zeros in the sectors of a mask: what the medium holds of poisoned sectors (R174). -/
def zeroSecs (m : BitVec 4) (x : LineData) : LineData := (secs m).foldl (fun x s => setSector x s 0) x

/-! ### Images (R143, R270-R275, R320) -/

/-- The image of a LIGHT line keeps cells 536 to 607 at L15 (R270). -/
def fixLight (p : Profile) (img : Image) : Image :=
  match p with
  | .strong => img
  | .light =>
    let x := img.toNat
    BitVec.ofNat 2592 (x - fld x 2144 288 * 2 ^ 2144 + l15Cells 72 * 2 ^ 2144)

/-- K of R271: the codeword whose only message bit is metadata bit 0. -/
def imageK (p : Profile) : Image := encodeBits p 0 1

def xorAll (l : List Image) : Image := l.foldl (fun a b => a ^^^ b) 0

/-- The parity image of the data images (R271), or the copy of a primary (R272). -/
def parityOf (p : Profile) (l : List Image) : Image := fixLight p (imageK p ^^^ xorAll l)

/-- A line's metadata as written at issue. -/
def metaFor (c : LineCtx) (wseq key mac dstamp : Nat) (full : Bool) : Meta :=
  { tag := mkTag c.lz c.s c.role, wseq := wseq, keyId := key, light := decide (c.prof = .light),
    mac := mac, dstamp := dstamp, full := full }

/-- FLIP_LINE is armed for this line at a stage. -/
def Dev.lineArmed (d : Dev) (c : LineCtx) (stage : Nat) : Bool :=
  match c.line with
  | some i =>
    flipMatches d c.region i && d.sec.flipLine.toNat.testBit 20
      && decide (fld d.sec.flipLine.toNat 0 2 = stage)
  | none => false

/-- COUNT consecutive bits from BIT, below a limit. -/
def flipRun (f : BitVec 32) (limit : Nat) : Nat :=
  (upTo (fld f.toNat 14 6)).foldl (fun a i =>
    if fld f.toNat 2 12 + i < limit then a ^^^ 2 ^ (fld f.toNat 2 12 + i) else a) 0

/-- Bits of an image that FLIP_LINE at STAGE IMAGE inverts: none of cells 536-607 of a LIGHT line. -/
def imageFlips (p : Profile) (f : BitVec 32) : Image :=
  let m := flipRun f 2592
  match p with
  | .strong => BitVec.ofNat 2592 m
  | .light => BitVec.ofNat 2592 (m - fld m 2144 288 * 2 ^ 2144)

def Dev.lineFire (d : Dev) : Dev :=
  ({ d with sec := { d.sec with flipLine := fired d.sec.flipLine 20 21 } }).flipHit 3

/-- Data cells and metadata of a line at issue. -/
def Dev.lineParts (d : Dev) (c : LineCtx) (wseq key : Nat) (full : Bool) (plain : LineData) : LineData × Meta :=
  let cells := d.encrypt key c.region c.idx plain
  let mac :=
    if c.mac && decide (key ≠ 0) then
      if d.keyUsable key then d.lineMac key c.region c.idx cells else (Config.noKeyMac key c.region c.idx).toNat
    else 0
  (cells, metaFor c wseq key mac (dstampOf (d.ep (plaDie c.pla))) full)

/-- The image of a line that no flip mask meets: a move's copy of it (R319). -/
def Dev.plainImage (d : Dev) (c : LineCtx) (wseq key : Nat) (full : Bool) (plain : LineData) : Image :=
  let (cells, m) := d.lineParts c wseq key full plain
  encodeLine c.prof cells m

/-- Build a line at issue: the image programmed and the image its parity or copy is formed from. -/
def Dev.build (d : Dev) (c : LineCtx) (wseq key : Nat) (full : Bool) (plain : LineData) :
    Image × Image :=
  let (cells, m) := d.lineParts c wseq key full plain
  let cells :=
    if d.lineArmed c 2 then cells ^^^ BitVec.ofNat 2048 (flipRun d.sec.flipLine 2048) else cells
  let m := if d.lineArmed c 3 then { m with tag := m.tag ^^^ flipRun d.sec.flipLine 36 } else m
  let img := encodeLine c.prof cells m
  (if d.lineArmed c 1 then img ^^^ imageFlips c.prof d.sec.flipLine else img, img)

def Dev.buildFired (d : Dev) (c : LineCtx) : Dev :=
  if d.lineArmed c 1 || d.lineArmed c 2 || d.lineArmed c 3 then d.lineFire else d

/-- The image of a copied line: its cells, key, MAC and tag kept, WSEQ and DSTAMP fresh (R234, R558). -/
def Dev.restamp (d : Dev) (target : Pla) (p : Profile) (cells : LineData) (m : Meta) (wseq : Nat) : Image :=
  encodeLine p cells { m with
    wseq := wseq, dstamp := dstampOf (d.ep (plaDie target)), light := decide (p = .light), full := false }

/-! ### Sensing -/

/-- Stored bits of a physical line. -/
def Dev.stored (d : Dev) (p : Pla) : Image := tget blankImage d.medium.lines (d.cellOf p).toNat

def Dev.store (d : Dev) (p : Pla) (img : Image) : Dev :=
  { d with medium := { d.medium with lines := tset blankImage d.medium.lines (d.cellOf p).toNat img } }

def noiseOf (ans : Answers) (p : Pla) (pass : Nat) : Image :=
  ((ans.noise.find? (fun n => n.pla == p && n.pass == pass)).map Noise.bits).getD 0

def silentDie (ans : Answers) (p : Pla) : Bool :=
  ans.silent.any (fun q => q.1.val == plaLane p && q.2.val == plaDie p)

/-- The line's own program is in flight (R52). -/
def Dev.programming (d : Dev) (p : Pla) : Bool := d.bench.progs.any (fun x => x.spec.pla == p)

/-- The device may sense a line: its program is not in flight (R52), and it does not lie at an offset whose
program failed with no spare line left (R41). -/
def Dev.maySense (d : Dev) (p : Pla) : Bool :=
  !d.programming p && !d.placeFailed p

/-- What pass n returns for a line; none: the lane is out, the line is not to be sensed, or the die does not
answer. -/
def Dev.sensed (d : Dev) (ans : Answers) (p : Pla) (pass : Nat) : Option Image :=
  if d.isOut (plaLane p) (plaZone p) || !d.maySense p || silentDie ans p then none
  else some (d.stored p ^^^ noiseOf ans p pass)

/-- First pass of a list that confirms, with the pass; or a MAC failure. -/
def Dev.tryPasses (d : Dev) (ans : Answers) (c : LineCtx) (macOn : Bool) :
    List Nat → Option (Verdict × Image × Nat)
  | [] => none
  | n :: l =>
    match d.sensed ans c.pla n with
    | none => d.tryPasses ans c macOn l
    | some img =>
      match d.confirm c macOn img with
      | .bad => d.tryPasses ans c macOn l
      | v => some (v, img, n)

/-- A line that senses BLANK in pass 1 (R62). -/
def Dev.isBlank (d : Dev) (ans : Answers) (c : LineCtx) : Bool :=
  match d.sensed ans c.pla 1 with
  | none => false
  | some img => c.blank img

/-- Every line of a PARITY stripe that can be sensed reads BLANK (06 R219). -/
def Dev.stripeBlank (d : Dev) (ans : Answers) (t : StripeCtx) : Bool :=
  t.all.all (fun c => d.isOut (plaLane c.pla) (plaZone c.pla) || d.isBlank ans c)

/-- The corrected image of a confirmed line: the codeword itself, not the sensed bits. -/
def goodImage (c : LineCtx) (cells : LineData) (m : Meta) : Image := encodeLine c.prof cells m

/-- Lines from which a missing line is rebuilt (R274). -/
def StripeCtx.siblings (t : StripeCtx) (c : LineCtx) : List LineCtx :=
  match t.r.prot with
  | .parity => t.all.filter (fun x => x.pla != c.pla)
  | .mirror => t.all.filter (fun x => x.pla != c.pla && x.slot == c.slot)
  | .none => []

/-- Lines of the stripe lie on two out lanes or dies (07 R284). -/
def Dev.twoOut (d : Dev) (t : StripeCtx) : Bool :=
  decide (2 ≤ (t.all.filter (fun x => d.isOut (plaLane x.pla) (plaZone x.pla))).length)

/-- The difference that an update still has to merge into its parity line. -/
def Update.delta (u : Update) : Image :=
  xorAll (((u.wait ++ u.next.flatten).filter (fun s => decide (s.role = .merge))).map ProgSpec.image)

/-- What a program leaves in its line: a merge XORs the difference onto the stored symbols (07 R275). -/
def Dev.progImage (d : Dev) (s : ProgSpec) : Image :=
  match s.role with
  | .merge => d.stored s.pla ^^^ s.noise ^^^ s.image
  | _ => s.image

/-- The image that an update in flight gives for a line of its stripe in place of a sense (R52, R141): that of the
line's program, or of its ISSUED entry; a data line whose difference the parity line does not carry yet counts with
its old image. DESIGN CHOICE: the manual does not say what a reconstruction takes while an update of the stripe is
in flight (log entry 122). -/
def Dev.flightImage (d : Dev) (c : LineCtx) : Option Image :=
  let old (id : Nat) : Image := ((d.bench.updates.find? (fun u => u.id == id)).map Update.delta).getD 0
  match d.bench.progs.find? (fun x => x.spec.pla == c.pla) with
  | some p => some (d.progImage p.spec ^^^ (if p.spec.role = .data then old p.update else 0))
  | none =>
    match c.line with
    | none => none
    | some i =>
      match (d.bench.entries.find? (fun e =>
          decide (e.key = .user c.region i) && decide (e.state = .issued) && decide (e.kind ≠ .delta))) with
      | none => none
      | some e => e.image.map (fun img => img ^^^
          ((d.bench.updates.find? (fun u => u.entries.contains e.id)).map Update.delta).getD 0)

/-- How a line reads as the sibling of another. -/
inductive SibRead where
  | good (img : Image) (pass corrected : Nat)
  | blank
  | macFail (pass : Nat)
  | bad
  deriving DecidableEq, Repr

/-- A sibling sensed by the given passes, and confirmed as any line (R102-R104, R108). -/
def Dev.sibling (d : Dev) (ans : Answers) (macOn : Bool) (passes : List Nat) (c : LineCtx) : SibRead :=
  match if d.isOut (plaLane c.pla) (plaZone c.pla) then none else d.flightImage c with
  | some img => .good img 1 0
  | none =>
    if d.isBlank ans c then .blank
    else match d.tryPasses ans c macOn passes with
      | some (.good cells m n, _, pass) => .good (goodImage c cells m) pass n
      | some (.macFail, _, pass) => .macFail pass
      | _ => .bad

/-- A sibling's confirmed image. -/
def SibRead.image : SibRead → Option Image
  | .good img _ _ => some img
  | _ => none

def allSome {α : Type} : List (Option α) → Option (List α)
  | [] => some []
  | none :: _ => none
  | some a :: l => (allSome l).map (a :: ·)

/-- Rebuild a line from its siblings' images and confirm it (R104, R274). -/
def Dev.rebuild (d : Dev) (c : LineCtx) (macOn : Bool) (imgs : List Image) : Verdict × Image :=
  let img := parityOf c.prof imgs
  (d.confirm c macOn img, img)

def Dev.reconstruct (d : Dev) (ans : Answers) (t : StripeCtx) (c : LineCtx) (macOn : Bool)
    (passes : List Nat) : Verdict × Image :=
  if t.r.prot = .none then (.bad, 0)
  else match allSome ((t.siblings c).map (fun y => (d.sibling ans macOn passes y).image)) with
    | none => (.bad, 0)
    | some imgs => d.rebuild c macOn imgs

/-! ### A whole read (R98-R107, R124) -/

/-- How a read of a line ends; pass 6 stands for reconstruction. -/
inductive ReadEnd where
  | line (cells : LineData) (m : Meta) (img : Image) (pass corrected : Nat)
  | zeros
  | poison (cause last : Nat)
  deriving DecidableEq, Repr

def ofVerdict (c : LineCtx) (pass : Nat) : Verdict → Option ReadEnd
  | .good cells m n => some (.line cells m (goodImage c cells m) pass n)
  | .macFail => some (.poison 3 pass)
  | .bad => none

/-- Every other line of the stripe reads BLANK; one that cannot be sensed does not (R104, R107, 07 R284). -/
def Dev.restBlank (d : Dev) (ans : Answers) (t : StripeCtx) (c : LineCtx) : Bool :=
  (t.siblings c).all (d.isBlank ans)

/-- R107: a line that senses BLANK; the list holds NONE lines recorded torn. DESIGN CHOICE: the manual does not say
how many passes the siblings of a BLANK line get; they get pass 1 alone, as under R102 (log entry 123). -/
def Dev.blankEnd (d : Dev) (ans : Answers) (t : StripeCtx) (c : LineCtx) (macOn : Bool) : ReadEnd :=
  match t.r.prot with
  | .none =>
    match c.line with
    | some i => if (d.poisonRecs c.region i).any (fun p => p.cause == 6) then .poison 6 1 else .zeros
    | none => .zeros
  | _ =>
    match ofVerdict c 6 (d.reconstruct ans t c macOn [1]).1 with
    | some r => r
    | none => if d.restBlank ans t c then .zeros else .poison 2 6

/-- A line pinned under R41 reads as its entry has it, as if it had been written so (R141). -/
def Dev.pinnedRead (d : Dev) (t : StripeCtx) (c : LineCtx) (e : Entry) : ReadEnd :=
  let (cells, m) := d.lineParts c 0 (t.r.writeKey c.idx) false (zeroSecs e.poison e.data)
  .line cells m (goodImage c cells m) 1 0

/-- R98-R107 for one line: pass 1, reconstruction, passes 2 to 5 (log entry 16); Detour for a line that
is out. DESIGN CHOICE: a line that is out and has no protection carries last pass 1, though no pass was made (log
entry 124). -/
def Dev.readEnd (d : Dev) (ans : Answers) (t : StripeCtx) (c : LineCtx) (macOn : Bool) : ReadEnd :=
  if zMapped t.e = false then .zeros
  else match d.pinnedEntry c with
  | some e => d.pinnedRead t c e
  | none =>
  if d.isOut (plaLane c.pla) (plaZone c.pla) then
    match t.r.prot with
    | .none => .poison 5 1
    | _ =>
      if d.twoOut t then .poison 2 6
      else match ofVerdict c 6 (d.reconstruct ans t c macOn [1, 2, 3, 4, 5]).1 with
      | some r => r
      | none => if d.restBlank ans t c then .zeros else .poison 2 6
  else
    match d.tryPasses ans c macOn [1] with
    | some (v, _, _) => (ofVerdict c 1 v).getD (.poison 2 1)
    | none =>
      if d.isBlank ans c then d.blankEnd ans t c macOn
      else
        match ofVerdict c 6 (d.reconstruct ans t c macOn [1]).1 with
        | some r => r
        | none =>
          match d.tryPasses ans c macOn [2, 3, 4, 5] with
          | some (v, _, n) => (ofVerdict c n v).getD (.poison 2 5)
          | none => .poison (if t.r.prot = .none then 1 else 2) 5

/-- A media event for a line that reads as poison (R127, R314, R521). -/
def mediaDetail (c : LineCtx) (cause last key : Nat) : BitVec 256 :=
  detailOf [(32, c.pla.toNat), (40, c.region + c.lineNo * 1024), (48, cause), (49, last), (50, key)]

def expectedKey (x : KeyExpect) : Nat :=
  match x with
  | .any => 0
  | .one k => k
  | .two o _ => o

/-- The key ID of a line: the one expected of it, or in the crossing range of a rekey the new one where the line's metadata
carries it (08 R314, 15 R572). -/
def Dev.keyIdOf (d : Dev) (c : LineCtx) : Nat :=
  match c.key with
  | .two o n => if (metaOf (fld (d.stored c.pla).toNat 2432 160)).keyId = n then n else o
  | x => expectedKey x

/-- The DPA of a line of a DIRECT region; 0 for a line that lies in no window. -/
def Dev.lineDpa (d : Dev) (region line : Nat) : Nat :=
  match d.region region with
  | some r => if r.typ = .direct then r.dpaBase + 256 * line else 0
  | none => 0

/-- The MAC of a line has failed (15 R576). -/
def Dev.noteMac (d : Dev) (c : LineCtx) : Dev :=
  if d.sec.macLines.contains (c.region, c.lineNo) then d
  else { d with sec := { d.sec with macLines := (c.region, c.lineNo) :: d.sec.macLines } }

/-- Lines forget their MAC failure: they hold new data, or their region has gone. -/
def Dev.forgetMac (d : Dev) (p : Nat × Nat → Bool) : Dev :=
  { d with sec := { d.sec with macLines := d.sec.macLines.filter (fun x => !p x) } }

/-- A MAC failure posts a General Media Event to the Fatal log of each head, whoever read the line (09 R347; DEDUCED, log
entry 145). -/
def Dev.macRecords (d : Dev) (c : LineCtx) : Dev :=
  let d := d.noteMac c
  let dpa := d.lineDpa c.region c.lineNo
  (d.mediaRecord .a .fatal dpa 4 3 c.region c.lineNo).mediaRecord .b .fatal dpa 4 3 c.region c.lineNo

/-- The line stays poisoned in the cache since it was read as poison (03 R126). -/
def Dev.staysPoisoned (d : Dev) (c : LineCtx) : Bool :=
  match c.line, d.region c.region with
  | some i, some r => (d.findWay r c.region i).any (fun p => p.2.poison &&& ~~~p.2.dirty != 0)
  | _, _ => false

/-- The one event of a line read as poison; a line that stays poisoned in the cache has had its own (03 R127). -/
def Dev.poisonEvent (d : Dev) (c : LineCtx) (cause last : Nat) : Dev :=
  let det := mediaDetail c cause last (d.keyIdOf c)
  if d.staysPoisoned c then d
  else if cause = 3 then (d.event (evSecurity 0) det).macRecords c else d.event (evLane (plaLane c.pla) 4) det

/-- Metadata zones belong to no region. DESIGN CHOICE: the model numbers them as one past the region IDs; the number is on no
medium and no bus (log entry 139). -/
def metaId : Nat := 1024

/-- Early rewrite by corrected bits, pass or reconstruction (06 R255); a metadata zone takes no move (06 R224). -/
def Dev.earlyIf (d : Dev) (c : LineCtx) (pass corrected : Nat) : Dev :=
  let thr := match c.prof with
    | .strong => d.earlyS.toNat
    | .light => d.earlyL.toNat
  if c.region ≠ metaId ∧ (thr ≤ corrected ∨ 3 ≤ pass) then d.queueEarly c.lz else d

/-- Counters of a whole read: senses by class, bytes from the dies, reconstructions (14 R528); a MAC failure starts no
further pass and no reconstruction (08 R315). -/
def Dev.countRead (d : Dev) (t : StripeCtx) (c : LineCtx) (r : ReadEnd) : Dev :=
  let lane := plaLane c.pla
  let own (n : Nat) (d : Dev) : Dev :=
    if d.isOut lane (plaZone c.pla) then d
    else ((d.count (cntLane lane 0) 1).count (cntLane lane 1) (n - 1)).laneBytes lane (324 * n) 0
  let sibs (d : Dev) : Dev :=
    ((t.siblings c).foldl (fun d x =>
      (d.count (cntLane (plaLane x.pla) 1) 1).laneBytes (plaLane x.pla) 324 0) d).count
        (cntLane lane 10) 1
  let ends (n : Nat) : Dev :=
    if n = 1 then own 1 d
    else (own (if n = 6 then 1 else n) d).when (decide (t.r.prot ≠ .none)) sibs
  if zMapped t.e = false || (d.pinnedEntry c).isSome then d
  else match r with
  | .line _ _ _ n _ | .poison _ n => ends n
  | .zeros => ends (if t.r.prot = .none then 1 else 6)

/-- A MAC failure locks a region whose lock-on-MAC is set (08 R316, 09 R347). -/
def Dev.lockRegion (d : Dev) (region : Nat) : Dev :=
  match d.region region with
  | none => d
  | some r =>
    if r.lockOnMac && !r.locked then
      ((d.sysPut (.region region (some { r with locked := true }))).event (evSecurity 1)).moduleEventBoth
        .warning
    else d

/-- A line whose MAC check fails when it is read as a sibling: R124 and R314 apply to it as to any line that fails
the check (DEDUCED, log entry 125). -/
def Dev.siblingMac (d : Dev) (r : Region) (y : LineCtx) (pass : Nat) : Dev :=
  let d := (d.poisonEvent y 3 pass).lockRegion y.region
  match y.line with
  | some i => d.fill r y.region i 0 0xF (sameCause 3)
  | none => d

/-- The passes by which a read senses its siblings; none: it starts no reconstruction. -/
def Dev.sibPasses (d : Dev) (ans : Answers) (t : StripeCtx) (c : LineCtx) (macOn : Bool) : List Nat :=
  if zMapped t.e = false ∨ t.r.prot = .none then []
  else if d.isOut (plaLane c.pla) (plaZone c.pla) then [1, 2, 3, 4, 5]
  else match d.tryPasses ans c macOn [1] with
    | some _ => []
    | none => [1]

/-- Each sibling that a read has confirmed is reported with its pass and its corrected bits (R106, 06 R255). -/
def Dev.noteSiblings (d : Dev) (ans : Answers) (t : StripeCtx) (c : LineCtx) (macOn : Bool) (passes : List Nat) :
    Dev :=
  if passes.isEmpty then d
  else d.each (t.siblings c) (fun d y =>
    match d.sibling ans macOn passes y with
    | .good _ pass n => d.earlyIf y pass n
    | .macFail pass => d.siblingMac t.r y pass
    | _ => d)

/-- The line lies on a scope that is being restored. -/
def Dev.restoringTile (d : Dev) (p : Pla) : Bool :=
  decide ((d.lane1 (plaLane p)).lstate = .restoring) ||
  decide (vget .absent (d.lane1 (plaLane p)).dies (plaDie p) = .restoring)

/-- Senses of a line that its die has not answered (07 R278). -/
def Dev.missSenses (d : Dev) (ans : Answers) (p : Pla) (n : Nat) : Dev :=
  if silentDie ans p && (!d.isOut (plaLane p) (plaZone p) || d.restoringTile p) then
    { d with lane := { d.lane with missed := d.lane.missed ++ List.replicate n (plaLane p, plaDie p) } }
  else d

/-- The senses of a read that silent dies have not answered: the line's own, and those of its siblings. -/
def Dev.missRead (d : Dev) (ans : Answers) (t : StripeCtx) (c : LineCtx) (r : ReadEnd) : Dev :=
  if ans.silent.isEmpty || zMapped t.e = false || (d.pinnedEntry c).isSome then d
  else
    let n := match r with
      | .line _ _ _ k _ | .poison _ k => if k = 6 then 1 else k
      | .zeros => 1
    (t.siblings c).foldl (fun d y => d.missSenses ans y.pla 1) (d.missSenses ans c.pla n)

/-- What a read leaves behind: counters, an early rewrite, a media or security event. -/
def Dev.noteRead (d : Dev) (ans : Answers) (macOn : Bool) (t : StripeCtx) (c : LineCtx) (r : ReadEnd) : Dev :=
  let d := ((d.noteSiblings ans t c macOn (d.sibPasses ans t c macOn)).countRead t c r).missRead ans t c r
  match r with
  | .line _ _ _ pass n => d.earlyIf c pass n
  | .zeros => d
  | .poison cause last => d.poisonEvent c cause last

/-- The payload of a line from its stored cells. -/
def Dev.payload (d : Dev) (c : LineCtx) (cells : LineData) (m : Meta) : LineData :=
  d.decrypt m.keyId c.region c.idx cells

/-! ### Programs made within a step (R146, R148, R39-R41) -/

/-- Cells outside their windows that a profile accepts (R148). -/
def outsideLimit : Profile → Nat
  | .strong => 8
  | .light => 2

/-- A program of the line starts with one verify sense in place of the reset steps: its zone is recorded as pre-cleared.
DEDUCED: the record holds for a line whose own cells nothing has programmed since, nor any spare line (log entry 163). -/
def Dev.preCleared (d : Dev) (p : Pla) : Bool :=
  (match d.boundTo (plaZone p) with
    | some lz => zPclr (d.zte lz)
    | none => false) && looksBlank (d.stored p) && decide (d.cellOf p = p)

/-- A program's count of cells outside their windows lies within its profile's limit; a repeat always resets (R148). -/
def Dev.accepts (d : Dev) (p : Profile) (pla : Pla) (img : Image) (again : Bool) (senses : List (List CellCode)) : Bool :=
  decide (outsideCount img (programCells (d.preCleared pla && !again) img senses) ≤ outsideLimit p)

/-- The n-th attempt to program a line leaves few enough cells outside their windows (R146, R148). -/
def Dev.takes (d : Dev) (ans : Answers) (p : Profile) (pla : Pla) (img : Image) (again : Bool) (n : Nat) : Bool :=
  d.accepts p pla img again (attemptSenses ans pla n)

/-- A line is given the lowest free spare of its tile, once the reset steps have been applied to its cells (R39, R40,
R263). -/
def Dev.respare (d : Dev) (p : Pla) (residue : Bool) : Dev :=
  ((if residue then d else d.store p blankImage).noteReset (d.cellOf p) residue).addRemap (plaTile p) (plaOff p)

/-- A spare line of the tile is free (R41). -/
def Dev.spareFree (d : Dev) (p : Pla) : Bool := decide ((d.remapsOf (plaTile p)).length < 63)

/-- How a program made within a step ends: verified; kept pinned (R41); its copy does not confirm; no spare line left; its die
does not answer. -/
inductive ProgEnd where
  | took | pinned | unconfirmed | noSpare | silent
  deriving DecidableEq, Repr

/-- The line's work is done. -/
def ProgEnd.kept : ProgEnd → Bool
  | .took | .pinned => true
  | _ => false

/-- How two programs end together. -/
def ProgEnd.join : ProgEnd → ProgEnd → ProgEnd
  | .took, x => x
  | .pinned, .took => .pinned
  | .pinned, x => x
  | x, _ => x

/-- Two attempts at each place, then the next spare line, while the tile has one (R39, R41, R148). -/
def progTries (ans : Answers) (p : Profile) (pla : Pla) (img : Image) : Nat → Nat → Dev → Dev × ProgEnd
  | 0, _, d => (d, .noSpare)
  | k + 1, n, d =>
    if d.takes ans p pla img false n || d.takes ans p pla img true (n + 1) then
      ((d.store pla img).noteReset (d.cellOf pla) (ans.residue.contains pla), .took)
    else if d.spareFree pla then progTries ans p pla img k (n + 2) (d.respare pla (ans.residue.contains pla))
    else (d.failPlace pla, .noSpare)

/-- One program-and-verify within a step, from attempt n of those that the step's answers give for the line. A line
that stays blank is reset. On a die that does not answer, four verify senses time out (07 R744). -/
def Dev.progLine (d : Dev) (ans : Answers) (p : Profile) (pla : Pla) (img : Image) (n : Nat := 0) : Dev × ProgEnd :=
  if img = blankImage then (d.store pla img, .took)
  else if silentDie ans pla then (d.missSenses ans pla 4, .silent)
  else progTries ans p pla img 64 n ((d.count (cntLane (plaLane pla) 7) 1).laneBytes (plaLane pla) 0 324)

end Sys2Proof.Machine
end

