-- ==== Sys2Proof/Machine/Meta.lean ====
section
/-!
DEFINITION. Metadata zones (06 R224-R230, R746, R747): their lines, the journal's records in them, the copy of the Zone
Table that a checkpoint keeps, and the reading of both at a start.
-/

namespace Sys2Proof.Machine

/-! ### Lines of a metadata zone (R224, R746) -/

def metaRegion : Region :=
  { typ := .system, prot := .parity, profile := .strong, mac := false, keyId := 0, lockOnMac := false, owner := .both,
    rclass := 0, xovr := false, locked := false, extents := [(0, 2 ^ 21)], dpaBase := 0, dpaSize := 0, rekey := none }

/-- The layout of a metadata zone in the form of a ZT entry: START 0, GAP 4,096, MSTAMP for ZSTAMP. -/
def metaEntry (pz mstamp : Nat) : Nat := mkZte pz 0 4096 mstamp false 1 false

/-- Stripe s of a metadata zone: its lines carry the PZONE for LZONE, KEY_ID 0 and no MAC. -/
def metaStripe (pz mstamp s : Nat) : StripeCtx :=
  { region := metaId, r := metaRegion, k := 0, lz := pz, e := metaEntry pz mstamp, s := s }

/-- MSTAMP of a metadata zone in use. -/
def Dev.metaStamp (d : Dev) (pz : Nat) : Option Nat :=
  ((d.zt.jzones.map (fun z => (z.pzone, z.mstamp)) ++
    d.zt.ckpts.flatMap (fun c => [(c.zone0, c.mstamp0), (c.zone1, c.mstamp1)])).find? (fun p => p.1 == pz)).map Prod.snd

/-- The stamp that a start takes for a metadata zone: its age is the larger of that under its MSTAMP and OFF_CHARGE, at
most 32,768 eq-h (R224). -/
def Dev.agedStamp (d : Dev) (pz mstamp : Nat) : Nat :=
  let ep := d.ep (zoneDie pz)
  let age := min 32768 (max (zoneAge ep mstamp) d.therm.offCharge)
  (ep / eqh 16 + 4096 - age / 16) % 4096

/-- References of a pass-1 sense of a line, predicted from its zone's age (02 R72). -/
def Dev.metaRefs (d : Dev) (t : StripeCtx) (c : LineCtx) : List Nat :=
  references (d.ageOf t.e) ((d.nuOf (plaLane c.pla) (plaDie c.pla)).map Int.ofNat)

/-- Read a data line of a metadata zone, by every pass and reconstruction (R229): its payload, and its metadata where it
is not BLANK; none where it reads as poison. -/
def Dev.metaRead (d : Dev) (ans : Answers) (t : StripeCtx) (c : LineCtx) : Dev × Option (LineData × Option Meta) :=
  let r := d.readEnd ans t c false
  let d := (d.send (.sense c.pla (d.metaRefs t c))).countRead t c r
  match r with
  | .line cells m _ _ _ => (d, some (cells, some m))
  | .zeros => (d, some (0, none))
  | .poison _ _ => (d, none)

/-- Program a line of a metadata zone, within the step (log entry 20), with the attempts and remaps of any line (R39,
R148). -/
def Dev.storeMeta (d : Dev) (ans : Answers) (c : LineCtx) (img : Image) : Dev :=
  (d.progLine ans c.prof c.pla img).1

/-- The same, where its tile is in service. -/
def Dev.progMeta (d : Dev) (ans : Answers) (c : LineCtx) (img : Image) : Dev :=
  if d.isOut (plaLane c.pla) (plaZone c.pla) then d else d.storeMeta ans c img

/-- The image of a data line as its stripe has it. -/
def Dev.metaImage (d : Dev) (ans : Answers) (t : StripeCtx) (c : LineCtx) : Image :=
  match d.readEnd ans t c false with
  | .line _ _ img _ _ => img
  | _ => 0

/-- Write data lines of one stripe, by slot, each with the next WSEQ, then the parity line; of a BLANK stripe the other data
lines take zeros (R219). With the WSEQ after them. -/
def Dev.putMeta (d : Dev) (ans : Answers) (t : StripeCtx) (wseq : Nat) (new : List (Nat × LineData)) : Dev × Nat :=
  let d := d.markOutage t.lz
  let old := d
  let blank := d.stripeBlank ans t
  let (d, wseq, imgs) := t.data.foldl (fun (acc : Dev × Nat × List Image) c =>
    let (d, w, imgs) := acc
    match (new.find? (fun p => p.1 == c.slot)).map Prod.snd, blank with
    | none, false => (d, w, imgs ++ [old.metaImage ans t c])
    | x, _ =>
      let (img, _) := d.build c w 0 false (x.getD 0)
      (d.progMeta ans c img, w + 1, imgs ++ [img])) (d, wseq, [])
  (t.check.foldl (fun d p => d.progMeta ans p (parityOf .strong imgs)) d, wseq)

/-! ### Journal records (R225) -/

def jtypes : List JType :=
  [.bind, .unbind, .gap, .moveStart, .switch, .moveAbort, .pclrDone, .retire, .stamp, .link]

/-- TYPE of a record: 0x01 to 0x0A. -/
def jtypeCode (t : JType) : Nat := (jtypes.idxOf t) + 1

def jtypeOf (n : Nat) : Option JType := if n = 0 then none else jtypes[n - 1]?

/-- The 32 B of a record. -/
def recBytes (r : JRec) : List Byte :=
  let b := leBytes 4 r.jseq.toNat ++ leBytes 1 (jtypeCode r.typ) ++ leBytes 1 r.reason.toNat ++ leBytes 2 0 ++
    leBytes 4 r.zone.toNat ++ leBytes 4 r.arg.toNat ++ leBytes 8 r.image.toNat ++ leBytes 4 0
  b ++ leBytes 4 (crc32c b)

/-- The record of 32 B, where its TYPE is not reserved and its CRC holds. -/
def recOf (b : List Byte) : Option JRec :=
  let x := leNat b
  match jtypeOf (fld x 32 8) with
  | none => none
  | some t =>
    if crc32c (b.take 28) = fld x 224 32 then
      some { jseq := BitVec.ofNat 32 (fld x 0 32), typ := t, reason := BitVec.ofNat 8 (fld x 40 8),
             zone := BitVec.ofNat 21 (fld x 64 21), arg := BitVec.ofNat 21 (fld x 96 21),
             image := BitVec.ofNat 64 (fld x 128 64) }
    else none

/-- The eight record places of a line. -/
def recsOf (x : LineData) : List (Option JRec) := (upTo 8).map (fun i => recOf (((lineBytes x).drop (32 * i)).take 32))

/-- A line with a record in one of its places. -/
def putRec (x : LineData) (p : Nat × JRec) : LineData :=
  let b := lineBytes x
  bytesLine (b.take (32 * p.1) ++ recBytes p.2 ++ b.drop (32 * p.1 + 32))

def onJZone (pz : Nat) (f : JZone → JZone) (l : List JZone) : List JZone :=
  l.map (fun z => if z.pzone = pz then f z else z)

/-- Program records of one line of a journal zone, beside those that it holds. -/
def Dev.progRecs (d : Dev) (ans : Answers) (pz line : Nat) (l : List (Nat × JRec)) : Dev :=
  match d.zt.jzones.find? (fun z => z.pzone == pz) with
  | none => d
  | some z =>
    let t := metaStripe pz z.mstamp (line / 15)
    let c := t.ctx (dataPlace .parity t.s t.lz (line % 15))
    let held := match d.readEnd ans t c false with
      | .line cells _ _ _ _ => cells
      | _ => 0
    let (d, w) := d.putMeta ans t z.wseq [(line % 15, l.foldl putRec held)]
    { d with zt := { d.zt with jzones := onJZone pz (fun z => { z with wseq := w }) d.zt.jzones } }

/-- Program the journal records of one line. -/
def Dev.progJournal (d : Dev) (ans : Answers) (recs : List SysRec) : Dev :=
  let l := recs.filterMap (fun r => match r with
    | .journal place x => some (place, x)
    | _ => none)
  match l with
  | [] => d
  | (p, _) :: _ => d.progRecs ans (p / journalPlaces) (p % journalPlaces / 8) (l.map (fun q => (q.1 % 8, q.2)))

/-! ### Writing the journal (R224, R226, R747) -/

/-- A record place of the newest zone is used. -/
def useJournal : List JZone → List JZone
  | [] => []
  | z :: l => { z with used := z.used + 1 } :: l

/-- A record at the next place of the newest zone. -/
def Dev.journalPut (d : Dev) (typ : JType) (reason zone arg image : Nat) : Dev :=
  let r : JRec :=
    { jseq := d.zt.jseqNext, typ := typ, reason := BitVec.ofNat 8 reason,
      zone := BitVec.ofNat 21 zone, arg := BitVec.ofNat 21 arg, image := BitVec.ofNat 64 image }
  let x : SysRec := .journal d.jPlace r
  let k := sysKey x
  let d :=
    if d.programFirst then { d with bench := d.bench.dropSys k }.progJournal noAnswers (d.bench.recsOf k ++ [x])
    else d.sysPut x
  { d with zt := { d.zt with
      jseqNext := d.zt.jseqNext + 1, recsSince := d.zt.recsSince + 1,
      jzones := useJournal d.zt.jzones } }

/-- A new journal zone, named by a LINK record in the zone before it. -/
def Dev.journalLink (d : Dev) : Dev :=
  match leastWorn d.freeTargets with
  | none => d
  | some pz =>
    let ms := d.mstampOf pz
    let d := (d.journalPut .link 0 pz ms 0).takeMeta pz
    { d with zt := { d.zt with
        jzones := { pzone := pz, mstamp := ms, first := d.zt.jseqNext, used := 0, wseq := 0 } :: d.zt.jzones } }

/-- The last record place that an action's record may take in a zone. -/
def jLimit (t : JType) : Nat := if jReserved t then journalPlaces - 1 else journalPlaces - 1024

/-- A record finds a place: in the newest zone, or in a zone to be had. -/
def Dev.journalTakes (d : Dev) (t : JType) : Bool := decide (d.jUsed < jLimit t) || !d.freeTargets.isEmpty

/-- Write a journal record, starting a new zone where R747 keeps the rest for PCLR_DONE and LINK; what asks for one waits
while no zone could be had (R231). -/
def Dev.journal (d : Dev) (typ : JType) (reason zone arg image : Nat) : Dev :=
  let d := if d.jUsed < jLimit typ then d else d.journalLink
  if d.jUsed < jLimit typ then d.journalPut typ reason zone arg image else d

/-! ### The copy of the Zone Table (R228) -/

/-- Line l of the copy: 32 entries. -/
def ztLine (zt : Sparse (BitVec 64)) (l : Nat) : LineData :=
  zt.foldl (fun x p =>
    if p.1 / 32 = l then x ||| BitVec.ofNat 2048 (p.2.toNat * 2 ^ (64 * (p.1 % 32))) else x) 0

/-- Lines of the copy that hold an entry, and the stripes that hold them, counted through both zones. DESIGN CHOICE: the
manual gives the copy no layout; the model puts entry n in the n-th 8 B of the two zones' data lines, and leaves a stripe
without an entry BLANK, which reads as zeros (log entry 140). -/
def ztLines (zt : Sparse (BitVec 64)) : List Nat := (zt.map (fun p => p.1 / 32)).eraseDups

def ztStripes (zt : Sparse (BitVec 64)) : List Nat := ((ztLines zt).map (fun l => l / 15)).eraseDups

/-- Copy the Zone Table into one of a checkpoint's zones, the first or the second. -/
def Dev.copyZtZone (d : Dev) (ans : Answers) (i pz mstamp : Nat) : Dev :=
  let zt := d.zt.entries
  (((ztStripes zt).filter (fun g => g / 4096 == i)).foldl (fun (acc : Dev × Nat) g =>
    acc.1.putMeta ans (metaStripe pz mstamp (g % 4096)) acc.2
      (((ztLines zt).filter (fun l => l / 15 == g)).map (fun l => (l % 15, ztLine zt l)))) (d, 0)).1

def Dev.copyZt (d : Dev) (ans : Answers) (c : Ckpt) : Dev :=
  (d.copyZtZone ans 0 c.zone0 c.mstamp0).copyZtZone ans 1 c.zone1 c.mstamp1

/-! ### Reading at a start (R230) -/

/-- The entries of a line of the copy, from entry n on. -/
def ztEntries (x : LineData) (n : Nat) : List (Nat × BitVec 64) :=
  (upTo 32).filterMap (fun i =>
    let e := fld x.toNat (64 * i) 64
    if e = 0 then none else some (n + i, BitVec.ofNat 64 e))

/-- The entries of a stripe of the copy; none where a line of it reads as poison. -/
def Dev.readZtStripe (d : Dev) (ans : Answers) (t : StripeCtx) (first : Nat) : Dev × Option (List (Nat × BitVec 64)) :=
  if d.stripeBlank ans t then (d, some [])
  else t.data.foldl (fun (acc : Dev × Option (List (Nat × BitVec 64))) c =>
    match acc with
    | (d, none) => (d, none)
    | (d, some l) =>
      match d.metaRead ans t c with
      | (d, some (x, _)) => (d, some (l ++ ztEntries x (first + 32 * c.slot)))
      | (d, none) => (d, none)) (d, some [])

/-- The Zone Table that a checkpoint holds; none where it fails to read. -/
def Dev.readZt (d : Dev) (ans : Answers) (c : Ckpt) : Dev × Option (Sparse (BitVec 64)) :=
  (upTo 8192).foldl (fun (acc : Dev × Option (Sparse (BitVec 64))) g =>
    match acc with
    | (d, none) => (d, none)
    | (d, some l) =>
      let t := if g < 4096 then metaStripe c.zone0 c.mstamp0 g else metaStripe c.zone1 c.mstamp1 (g - 4096)
      match d.readZtStripe ans t (480 * g) with
      | (d, some x) => (d, some (l ++ x))
      | (d, none) => (d, none)) (d, some [])

/-- What the journal has given: its records, oldest first, the zones they lie in, newest first, and the next JSEQ. -/
structure JRead where
  recs  : List JRec
  zones : List JZone
  next  : BitVec 32
  deriving DecidableEq, Repr

/-- Records in sequence from a JSEQ on, the JSEQ after them, and whether they go on to the end of the list. -/
def seqRecs : BitVec 32 → List (Option JRec) → List JRec × BitVec 32 × Bool
  | n, [] => ([], n, true)
  | n, none :: _ => ([], n, false)
  | n, some r :: l =>
    if r.jseq = n then
      let (rs, m, whole) := seqRecs (n + 1) l
      (r :: rs, m, whole)
    else ([], n, false)

/-- Records of a line that come before a JSEQ. -/
def beforeSeq (n : BitVec 32) (l : List (Option JRec)) : Nat :=
  (l.takeWhile (fun r => match r with
    | some x => decide (x.jseq ≠ n)
    | none => false)).length

/-- The zone being read after one more line of it. -/
def JZone.readTo (z : JZone) (used : Nat) (next : BitVec 32) : JZone :=
  { z with used := used, first := next - BitVec.ofNat 32 used }

/-- Records line by line, from one zone to the next by LINK, up to the first that R230 step 3 stops at. -/
def readRecs (ans : Answers) : Nat → Nat → JRead → Dev → Dev × JRead
  | 0, _, x, d => (d, x)
  | n + 1, line, x, d =>
    match x.zones with
    | [] => (d, x)
    | z :: older =>
      if 61440 ≤ line then (d, x)
      else
        let t := metaStripe z.pzone z.mstamp (line / 15)
        match d.metaRead ans t (t.ctx (dataPlace .parity t.s t.lz (line % 15))) with
        | (d, none) => (d, x)
        | (d, some (data, _)) =>
          let slots := recsOf data
          let skip := beforeSeq x.next slots
          let (rs, next, whole) := seqRecs x.next (slots.drop skip)
          let x : JRead :=
            { recs := x.recs ++ rs, next := next, zones := z.readTo (8 * line + skip + rs.length) next :: older }
          match rs.getLast? with
          | none => (d, x)
          | some r =>
            if r.typ = .link then
              let pz := r.zone.toNat
              let new : JZone :=
                { pzone := pz, mstamp := d.agedStamp pz (r.arg.toNat % 4096), first := next, used := 0, wseq := 0 }
              readRecs ans n 0 { x with zones := new :: x.zones } d
            else if whole then readRecs ans n (line + 1) x d
            else (d, x)

/-- One past the highest WSEQ of a stripe's data lines. -/
def Dev.nextMetaSeq (d : Dev) (ans : Answers) (t : StripeCtx) : Nat :=
  (t.data.map (fun c => match d.readEnd ans t c false with
    | .line _ m _ _ _ => m.wseq + 1
    | _ => 0)).foldl max 0

/-- The newest zone goes on after the highest WSEQ that its last stripe holds. -/
def Dev.resumeSeq (d : Dev) (ans : Answers) (l : List JZone) : List JZone :=
  match l with
  | [] => []
  | z :: older =>
    { z with wseq := if z.used = 0 then 0 else d.nextMetaSeq ans (metaStripe z.pzone z.mstamp ((z.used - 1) / 120)) } ::
      older

/-- One past the WSEQ of a programmed data line of a zone. -/
def lineSeq (pz : Nat) (img : Image) : Nat :=
  match decodeSensed .strong img with
  | some (_, m, _) => if m.tag / 2 ^ 15 % 2 ^ 21 = pz then m.wseq + 1 else 0
  | none => 0

/-- The WSEQ of the next program in a metadata zone: the journal's own count, or one past what the zone's lines hold. -/
def Dev.zoneSeq (d : Dev) (pz : Nat) : Nat :=
  match d.zt.jzones.find? (fun z => z.pzone == pz) with
  | some z => z.wseq
  | none => ((d.medium.lines.filter (fun p => plaZone (BitVec.ofNat 38 p.1) == pz)).map
      (fun p => lineSeq pz p.2)).foldl max 0

/-- Program a data line of a metadata zone anew, and its stripe's parity line from all images. -/
def Dev.rewriteMeta (d : Dev) (ans : Answers) (t : StripeCtx) (c : LineCtx) (cells : LineData) (m : Meta) : Dev :=
  let w := d.zoneSeq t.lz
  let img := d.restamp c.pla c.prof cells m w
  let imgs := t.data.map (fun x => if x.pla = c.pla then img else d.metaImage ans t x)
  let d := t.check.foldl (fun d p => d.progMeta ans p (parityOf .strong imgs)) (d.storeMeta ans c img)
  { d with zt := { d.zt with jzones := onJZone t.lz (fun z => { z with wseq := w + 1 }) d.zt.jzones } }

/-- Lines that a journal can hold: more than the metadata zones of a device. -/
def journalLines : Nat := 2 ^ 40

/-- The journal from a checkpoint's JSEQ_START on. -/
def Dev.readJournal (d : Dev) (ans : Answers) (c : Ckpt) : Dev × JRead :=
  let z : JZone :=
    { pzone := c.jzone, mstamp := c.jmstamp, first := c.jseqStart, used := 8 * c.joffset, wseq := 0 }
  let (d, x) := readRecs ans journalLines c.joffset { recs := [], zones := [z], next := c.jseqStart } d
  (d, { x with zones := d.resumeSeq ans x.zones })

end Sys2Proof.Machine
end

