-- ==== Sys2Proof/Machine/Operands.lean ====
section
/-!
DEFINITION. Operand forms: address words and the memories they name (11 R398, R399), bytes of host memory,
scratch and device memory as an agent inside the device loads and stores them (10), and dead, refused and
missing-key stores.
-/

namespace Sys2Proof.Machine

/-! ### Device memory by address (09 R337, R339, R340) -/

/-- Region whose window holds a DPA, and the offset in it. -/
def Dev.window (d : Dev) (dpa : Nat) : Option (Nat × Region × Nat) :=
  (d.regionsL.find? (fun p => decide (p.2.typ = .direct) && decide (p.2.dpaBase ≤ dpa)
    && decide (dpa < p.2.dpaBase + p.2.dpaSize))).map (fun p => (p.1, p.2, dpa - p.2.dpaBase))

/-- A live DPA of a head: inside a window, below the region's size, owned. -/
def Dev.resolve (d : Dev) (h : Head) (dpa : Nat) : Option (Nat × Region × Nat) :=
  match d.window dpa with
  | some (id, r, off) => if off < r.size ∧ ownsRegion h r then some (id, r, off) else none
  | none => none

/-- Every byte of [dpa, dpa + n) is live to the head, in one region. -/
def Dev.liveRange (d : Dev) (h : Head) (dpa n : Nat) : Option (Nat × Region × Nat) :=
  match d.resolve h dpa with
  | some (id, r, off) => if off + n ≤ r.size then some (id, r, off) else none
  | none => none

/-! ### Address words (11 R398) -/

def mtype (w : Word) : Nat := fld w.toNat 62 2
def addrOf (w : Word) : Nat := fld w.toNat 0 62

/-- Bytes of scratch in effect, outside a group being converted (05 R195, R200). -/
def Dev.scratchSize (d : Dev) : Nat :=
  match d.cache.conv with
  | some c => min c.target d.cache.steps.toNat * 2 ^ 22
  | none => d.cache.steps.toNat * 2 ^ 22

/-- A buffer of n bytes that an address word names may be used by a head (R399). -/
def Dev.bufferOk (d : Dev) (h : Head) (w : Word) (n : Nat) : Bool :=
  match mtype w with
  | 0 => true
  | 1 => (d.liveRange h (addrOf w) n).isSome
  | 2 => decide (addrOf w + n ≤ d.scratchSize)
  | _ => false

/-! ### Bytes with their poison -/

/-- Bytes read, with the ranges (offset, length) that are poisoned, and whether a MAC check failed. -/
structure Buf where
  bytes   : List Byte
  bad     : List (Nat × Nat)
  macFail : Bool
  deriving DecidableEq, Repr

def Buf.empty : Buf := { bytes := [], bad := [], macFail := false }

def Buf.append (a b : Buf) : Buf :=
  { bytes := a.bytes ++ b.bytes,
    bad := a.bad ++ b.bad.map (fun p => (p.1 + a.bytes.length, p.2)), macFail := a.macFail || b.macFail }

/-- First poisoned offset. -/
def Buf.firstBad (b : Buf) : Option Nat :=
  match b.bad with
  | [] => none
  | p :: l => some (l.foldl (fun m q => min m q.1) p.1)

/-- Offset o of the buffer lies in a poisoned range. -/
def Buf.badAt (b : Buf) (o : Nat) : Bool := b.bad.any (fun p => decide (p.1 ≤ o) && decide (o < p.1 + p.2))

/-! ### Host memory -/

def hostLookup : List HostBytes → Nat → Option Byte
  | [], _ => none
  | b :: l, a =>
    if b.addr ≤ a ∧ a < b.addr + b.bytes.length then b.bytes[a - b.addr]? else hostLookup l a

/-- n bytes of host memory from a: those the command's operand supplies; the others are free values. -/
def Dev.hostLoad (d : Dev) (host : List HostBytes) (a n : Nat) : List Byte :=
  (upTo n).map (fun i =>
    (hostLookup host (a + i)).getD (Config.hostByte (d.now * 2 ^ 64 + a + i)))

/-- Ranges of n bytes from a that the link marked as poisoned (08 R312). -/
def hostBad (host : List HostBytes) (a n : Nat) : List (Nat × Nat) :=
  host.filterMap (fun b =>
    let lo := max a b.addr
    let hi := min (a + n) (b.addr + b.bytes.length)
    if b.poisoned ∧ lo < hi then some (lo - a, hi - lo) else none)

def Dev.hostBuf (d : Dev) (host : List HostBytes) (a n : Nat) : Buf :=
  { bytes := d.hostLoad host a n, bad := hostBad host a n, macFail := false }

/-! ### Lines of a region as an agent loads them -/

/-- A line's four sectors: data, poisoned sectors each with its cause, MAC failure. -/
structure Loaded where
  data    : LineData
  poison  : BitVec 4
  cause   : List Nat
  macFail : Bool
  deriving DecidableEq, Repr

/-- A line with no poisoned sector. -/
def Loaded.whole (data : LineData) : Loaded := ⟨data, 0, sameCause 0, false⟩

/-- Lay the copies that the Bench and the cache hold over a line from the medium. -/
def Dev.overCopies (d : Dev) (r : Region) (region line : Nat) (x : Loaded) : Loaded :=
  (upTo 4).foldl (fun x s =>
    match d.sectorCopy r region line s with
    | some c =>
      { x with
        data := setSector x.data s c.data
        poison := if c.poison then addSec x.poison s else delSec x.poison s
        cause := if c.poison then x.cause.set s c.cause else x.cause }
    | none => x) x

/-- The stripe context of a line of a region. -/
def Dev.lineStripe (d : Dev) (region : Nat) (r : Region) (line : Nat) : Option (StripeCtx × LineCtx) :=
  (r.locate line).map (fun l =>
    let t : StripeCtx :=
      { region := region, r := r, k := line / zoneLines r.prot, lz := l.lz, e := d.zte l.lz, s := l.s }
    (t, t.ctx (dataPlace r.prot l.s l.lz l.slot)))

/-- A recovered line enters the Bench (03 R105): into the entry that the Bench holds for the line, as its old value, or
as an entry of its own, once a staging entry is free beyond those reserved (04 R130, R133); none: it waits. Its listed sectors
hold no recovered data (04 R173). -/
def Dev.enterBack (d : Dev) (r : Region) (region line : Nat) (data : LineData) : Option Dev :=
  let sound := ~~~d.listed region line
  let own : Option Dev :=
    if d.stagingFree then some (d.addEntry (mkEntry region line .recovered data sound 0 (sameCause 0))) else none
  match d.bench.ofLine (.user region line) with
  | [] =>
    match d.findWay r region line with
    | some (k, w) =>
      if w.dirty = 0 then own
      else
        let missing := ~~~w.valid &&& sound
        some (d.setWay k (some { w with data := overlay missing data w.data, valid := w.valid ||| missing }))
    | none => own
  | e :: _ =>
    let missing := ~~~e.valid &&& sound
    some (d.setEntry { e with data := overlay missing data e.data, valid := e.valid ||| missing })

/-- A line recovered by reconstruction returns to its lane through the Bench, unless that lane is out (03 R105). DESIGN
CHOICE: where no staging entry is free it waits for one (log entry 170). -/
def Dev.recoverBack (d : Dev) (c : LineCtx) (r : Region) (region line pass : Nat) (data : LineData) : Dev :=
  if pass = 6 ∧ d.isOut (plaLane c.pla) (plaZone c.pla) = false then
    match d.enterBack r region line data with
    | some d => d
    | none =>
      let e := mkEntry region line .recovered data 0xF 0 (sameCause 0)
      { d with bench := { d.bench with backs := d.bench.backs.filter (fun x => decide (x.key ≠ e.key)) ++ [e] } }
  else d

/-- Recovered lines that wait enter the Bench as room comes; one whose lane has gone out, or whose region, is left out. -/
def Dev.pumpBacks (d : Dev) : Dev :=
  d.each d.bench.backs (fun d e =>
    let gone (d : Dev) : Dev :=
      { d with bench := { d.bench with backs := d.bench.backs.filter (fun x => decide (x.key ≠ e.key)) } }
    match e.key with
    | .sys _ _ => gone d
    | .user region line =>
      match (d.region region).bind (fun r => (d.lineStripe region r line).map (fun p => (r, p.2))) with
      | none => gone d
      | some (r, c) =>
        if d.isOut (plaLane c.pla) (plaZone c.pla) then gone d
        else match d.enterBack r region line e.data with
          | some d => gone d
          | none => d)

/-- What the medium gives for a line that misses, before listed sectors and copies. A line whose program is in
flight and that no entry carries is one that its update writes as zeros (02 R52, 06 R219). -/
def Dev.mediaLine (d : Dev) (ans : Answers) (r : Region) (region line : Nat) : Dev × Loaded :=
  match d.lineStripe region r line with
  | none => (d, ⟨0, 0xF, sameCause 2, false⟩)
  | some (t, c) =>
    let d := d.checkZte t.lz
    if d.zt.lost.contains t.lz then (d, ⟨0, 0xF, sameCause 0, false⟩)
    else if d.programming c.pla then (d, .whole 0)
    else
      let e := d.readEnd ans t c true
      let d := d.noteRead ans true t c e
      match e with
      | .zeros => (d, .whole 0)
      | .line cells m _ pass _ =>
        let x := d.payload c cells m
        (d.recoverBack c r region line pass x, .whole x)
      | .poison cause _ =>
        let d := if cause = 3 then d.lockRegion region else d
        (d, ⟨0, 0xF, sameCause cause, decide (cause = 3)⟩)

/-- Sectors in the poisoned-line list read as poison, each under the cause of the record that holds it, whatever the line
itself reads as (04 R171, R173). -/
def Dev.withListed (d : Dev) (region line : Nat) (x : Loaded) : Loaded :=
  let m := d.listed region line
  if m = 0 then x
  else
    { x with
      poison := x.poison ||| m
      data := (secs m).foldl (fun y s => setSector y s 0) x.data
      cause := (upTo 4).map (fun s =>
        if hasSec m s then d.listedCause region line s else lget x.cause s) }

/-- A confirmed side-buffer line, for an agent that is not a host read (05 R194). -/
def CacheBlock.sideConfirmed (c : CacheBlock) (region line : Nat) : Option LineData :=
  ((c.side.find? (fun e => e.region == region && e.line == line && decide (e.state = .confirmed)))).map
    SideEntry.data

/-- The read that makes the Verge copy of a line in the side buffer, and the copy. -/
def CacheBlock.sideVerge (c : CacheBlock) (region line : Nat) : Option (Nat × LineData) :=
  (c.side.find? (fun e => e.region == region && e.line == line && decide (e.state = .verge))).map
    (fun e => (e.read, e.data))

/-- A hit on a line's way turns the tree of its set away from it (05 R181). -/
def Dev.touchLine (d : Dev) (r : Region) (region line : Nat) : Dev :=
  match d.findWay r region line with
  | some (k, _) => d.touch k
  | none => d

/-- Load sectors of one line for an agent inside the device (04 R141, 05 R183, 03 R126): from the copies when each
sector asked for has one, else the line. A Verge copy waits for its line, which is sensed here and not promoted (05
R194, log entry 126). -/
def Dev.loadLine (d : Dev) (ans : Answers) (r : Region) (region line : Nat) (need : BitVec 4) : Dev × Loaded :=
  let d := d.checkLine r region line
  if d.hasCopies r region line need then
    ((d.touchLine r region line).count (cntCache 0) 1, d.overCopies r region line (.whole 0))
  else
    match d.cache.sideConfirmed region line with
    | some x =>
      let d := { d with cache := (d.cache.takeSide region line).2 }
      (d.count (cntCache 3) 1, d.overCopies r region line (.whole x))
    | none =>
      let (d, x) := (d.count (cntCache 1) 1).mediaLine ans r region line
      let x := d.withListed region line x
      let d :=
        if (x.poison ≠ 0 ∧ x.cause = sameCause 0) ∨ (d.cache.sideVerge region line).isSome = true then d else d.fill r region line x.data x.poison x.cause
      (d, d.overCopies r region line x)

/-! ### Byte ranges of a region -/

/-- Bytes off to off + n of one line, as a buffer. -/
def lineSlice (x : Loaded) (off n : Nat) : Buf :=
  { bytes := ((lineBytes x.data).drop off).take n,
    bad := (secs x.poison).filterMap (fun s =>
      let lo := max off (64 * s)
      let hi := min (off + n) (64 * s + 64)
      if lo < hi then some (lo - off, hi - lo) else none),
    macFail := x.macFail }

/-- Pieces of a byte range, cut at line boundaries: line, offset in it, bytes. -/
def cutLines : Nat → Nat → Nat → List (Nat × Nat × Nat)
  | 0, _, _ => []
  | fuel + 1, off, n =>
    if n = 0 then []
    else
      let k := min n (256 - off % 256)
      (off / 256, off % 256, k) :: cutLines fuel (off + k) (n - k)

def linePieces (off n : Nat) : List (Nat × Nat × Nat) := cutLines (n / 256 + 2) off n

/-- Sectors that n bytes at offset off of a line touch. -/
def sectorsOf (off n : Nat) : BitVec 4 :=
  (upTo 4).foldl (fun m s => if off < 64 * s + 64 ∧ 64 * s < off + n then addSec m s else m) 0

/-- Some key the line may carry is not LOADED (15 R566). -/
def Dev.keyMissing (d : Dev) (r : Region) (line : Nat) : Bool :=
  match r.expect line with
  | .any => false
  | .one k => !d.keyLoaded k
  | .two o n => !(d.keyLoaded o && d.keyLoaded n)

/-- A host read of a line is refused: locked region, or a key that can decrypt none of it; a CLOSING slot
still serves reads (R316, R566, 15 R578). -/
def Dev.readLocked (d : Dev) (r : Region) (line : Nat) : Bool :=
  r.locked || (match r.expect line with
    | .any => false
    | .one k => !d.keyUsable k
    | .two o n => !(d.keyUsable o && d.keyUsable n))

/-- A store of a line is dropped: locked region, or a key that is not LOADED (R316, R566). -/
def Dev.writeLocked (d : Dev) (r : Region) (line : Nat) : Bool := r.locked || d.keyMissing r line

/-- A line that is not read: every sector poisoned (08 R316). -/
def Loaded.locked : Loaded := ⟨0, 0xF, sameCause 0, false⟩

/-- Load n bytes at a byte offset of a region; a line of a region that is locked down, or whose key is not LOADED, reads as
poison, and no sense of it is made (08 R316, 15 R566). -/
def Dev.loadRegion (d : Dev) (ans : Answers) (r : Region) (region off n : Nat) : Dev × Buf :=
  (linePieces off n).foldl (fun (acc : Dev × Buf) p =>
    let (d, x) :=
      if acc.1.readLocked r p.1 then (acc.1, Loaded.locked)
      else acc.1.loadLine ans r region p.1 (sectorsOf p.2.1 p.2.2)
    (d, acc.2.append (lineSlice x p.2.1 p.2.2))) (d, Buf.empty)

/-- A line lies on an out lane or die: where its zone is, or, of a zone not placed yet, at every position in use
(07 R286). -/
def Dev.placeOut (d : Dev) (e : Nat) (c : LineCtx) : Bool :=
  if zMapped e then d.isOut (plaLane c.pla) (plaZone c.pla)
  else
    let l := (upTo 8).filter d.posUsed
    !l.isEmpty && l.all (fun p => d.isOut (plaLane c.pla) (p * 2 ^ 18))

/-- A store of a line is refused in EXPOSED (04 R167, R175, 07 R286). -/
def Dev.writeRefused (d : Dev) (r : Region) (region line : Nat) : Bool :=
  d.bench.exposed &&
  (match d.lineStripe region r line with
   | none => false
   | some (t, c) =>
     match r.prot with
     | .none =>
       (!r.xovr) || d.poisonFull || d.placeOut t.e c
     | _ => t.all.any (d.placeOut t.e))

/-- Store the bytes of one sector, keeping the sector's other bytes; a part of a poisoned sector leaves it
poisoned (08 R307). -/
def Dev.storeSector (d : Dev) (ans : Answers) (r : Region) (region line s off : Nat)
    (bytes : List Byte) (poison : Bool) : Dev :=
  if bytes.length = 64 then d.accept r region line s ⟨bytesSector bytes, poison, 1⟩
  else
    let (d, old) :=
      match d.sectorCopy r region line s with
      | some c => (d, c)
      | none =>
        let (d, x) := d.loadLine ans r region line (addSec 0 s)
        (d, ⟨sectorOf x.data s, hasSec x.poison s, lget x.cause s⟩)
    let o := sectorBytes old.data
    let new := o.take off ++ bytes ++ o.drop (off + bytes.length)
    d.accept r region line s ⟨bytesSector new, old.poison || poison, if old.poison then old.cause else 1⟩

/-- Pieces of a byte range, cut at sector boundaries: line, sector, offset in it, bytes. -/
def cutSectors : Nat → Nat → List Byte → List (Nat × Nat × Nat × List Byte)
  | 0, _, _ => []
  | fuel + 1, off, bs =>
    if bs.isEmpty then []
    else
      let k := 64 - off % 64
      (off / 256, off % 256 / 64, off % 64, bs.take k) :: cutSectors fuel (off + k) (bs.drop k)

/-- Store bytes at a byte offset of a region; refused and locked lines drop their sectors. -/
def Dev.storeRegion (d : Dev) (ans : Answers) (r : Region) (region off : Nat) (bs : List Byte) : Dev :=
  (cutSectors (bs.length / 64 + 2) off bs).foldl (fun d p =>
    if d.writeLocked r p.1 || d.writeRefused r region p.1 then d
    else d.storeSector ans r region p.1 p.2.1 p.2.2.1 p.2.2.2 false) d

/-! ### Units of a heap line (12 R425, R432) -/

/-- Put a unit into its line's staging entry: the newest that is not issued, else a fresh one. -/
def Dev.stageUnit (d : Dev) (region unit : Nat) (x : Sector) : Dev :=
  let line := unit / 4
  let c : Copy := ⟨x, false, 0⟩
  match d.bench.ofLine (.user region line) with
  | e :: _ =>
    if e.state = .issued then
      d.addEntry (writeEntry (mkEntry region line .victim e.data e.valid e.poison e.cause) (unit % 4) c)
    else d.setEntry (writeEntry e (unit % 4) c)
  | [] => d.addEntry (writeEntry (mkEntry region line .victim 0 0 0 (sameCause 0)) (unit % 4) c)

/-- Put consecutive units from a place of the region. -/
def Dev.stageUnits (d : Dev) (region : Nat) : Nat → List Sector → Dev
  | _, [] => d
  | u, x :: l => (d.stageUnit region u x).stageUnits region (u + 1) l

/-! ### Scratch (05 R196, R200, R307) -/

/-- The part of sector s that n bytes at offset off of a memory cover: offset and length in those bytes. -/
def sectorPart (off n s : Nat) : Option (Nat × Nat) :=
  let lo := max off (64 * s)
  let hi := min (off + n) (64 * s + 64)
  if lo < hi then some (lo - off, hi - lo) else none

/-- Scratch sectors that a consumer takes as poison: those stored so, and those with a byte of two bit errors
(05 R187, R200). -/
def CacheBlock.scratchBad (c : CacheBlock) : List Nat :=
  c.scratchPoison ++ (doubleBytes c.scratchFlips).map (fun b => b / 64)

/-- Bytes of scratch: single-bit errors read corrected; what lies outside the groups in effect reads as poison
(05 R200). -/
def Dev.scratchLoad (d : Dev) (off n : Nat) : Buf :=
  let inside := min n (d.scratchSize - off)
  { bytes := readBytes d.cache.scratch off inside ++ List.replicate (n - inside) 0,
    bad := d.cache.scratchBad.filterMap (sectorPart off inside) ++
      (if inside < n then [(inside, n - inside)] else []),
    macFail := false }

/-- Scratch bytes that a read covers are corrected where they hold a single-bit error; one event per second for each 256 B of
scratch, which lie in one way (05 R187). -/
def Dev.scratchCorrect (d : Dev) (off n : Nat) : Dev :=
  let ones := (singleBytes d.cache.scratchFlips).filter (fun b => decide (off ≤ b) && decide (b < off + n))
  if ones.isEmpty then d
  else
    let d := { d.count (cntCache 6) ones.length with cache := { d.cache with
      scratchFlips := d.cache.scratchFlips.filter (fun f => !ones.contains f.1) } }
    d.each (ones.map (· / 256)).eraseDups (fun d k =>
      let (ok, last) := onceEvery d.cache.lastCorr (16 * 12288 + k) d.now secNs
      { d with cache := { d.cache with lastCorr := last } }.when ok (·.event (evPlatform 11)))

/-- Read scratch. -/
def Dev.scratchRead (d : Dev) (off n : Nat) : Dev × Buf := (d.scratchCorrect off n, d.scratchLoad off n)

/-- Store the bytes that lie inside the groups in effect; the others are discarded. -/
def Dev.scratchPut (d : Dev) (off : Nat) (bytes : List Byte) : Dev :=
  let bs := bytes.take (d.scratchSize - off)
  { d with cache := { d.cache with
      scratch := writeBytes d.cache.scratch off bs
      scratchFlips := d.cache.scratchFlips.filter (fun f => !(decide (off ≤ f.1) && decide (f.1 < off + bs.length)))
      scratchPoison := d.cache.scratchPoison.filter (fun s =>
        !(decide (off ≤ 64 * s) && decide (64 * s + 64 ≤ off + bs.length))) } }

/-- A command's store to scratch; what lies outside is logged. -/
def Dev.scratchStore (d : Dev) (off : Nat) (bs : List Byte) : Dev :=
  (d.scratchPut off bs).when (decide (d.scratchSize < off + bs.length)) (·.event (evEngine 5))

/-! ### Address words as sources and destinations of a command -/

/-- Load n bytes through an address word of a head; a dead DPA or scratch outside the groups reads as
poison. -/
def Dev.load (d : Dev) (host : List HostBytes) (ans : Answers) (h : Head) (w : Word) (n : Nat) : Dev × Buf :=
  match mtype w with
  | 0 => (d, d.hostBuf host (addrOf w) n)
  | 1 =>
    match d.liveRange h (addrOf w) n with
    | some (id, r, off) => d.loadRegion ans r id off n
    | none => (d, { bytes := List.replicate n 0, bad := [(0, n)], macFail := false })
  | 2 =>
    let (d, b) := d.scratchRead (addrOf w) n
    (if addrOf w + n ≤ d.scratchSize then d else d.event (evEngine 5), b)
  | _ => (d, { bytes := List.replicate n 0, bad := [(0, n)], macFail := false })

/-- A command's destination region refuses its stores in EXPOSED (R167). -/
def Dev.saveRefused (d : Dev) (h : Head) (w : Word) (n : Nat) : Bool :=
  match mtype w with
  | 1 =>
    match d.liveRange h (addrOf w) n with
    | some (id, r, off) => (linePieces off n).any (fun p => d.writeRefused r id p.1)
    | none => false
  | _ => false

end Sys2Proof.Machine
end

