-- ==== Sys2Proof/Machine/Queue.lean ====
section
/-!
DEFINITION. Shared operations of the command interface (11) and of the tracer (14 R535-R537): completion
entries and MSI-X, queue errors, deletion of pairs, WATCH, drawn requests and their stages.
-/

namespace Sys2Proof.Machine

/-! ### Status codes (R402) -/

def stSuccess : Nat := 0x000
def stInvalidOpcode : Nat := 0x101
def stInvalidField : Nat := 0x102
def stInvalidQueue : Nat := 0x103
def stCidInUse : Nat := 0x104
def stInvalidRegion : Nat := 0x105
def stBadRange : Nat := 0x106
def stNotSupported : Nat := 0x107
def stInvalidAddress : Nat := 0x108
def stRegionIdUnavailable : Nat := 0x109
def stBarrierLostStore : Nat := 0x204
def stPoisonConsumed : Nat := 0x205
def stMediaResidue : Nat := 0x206
def stObjNotFound : Nat := 0x301
def stObjExists : Nat := 0x302
def stEcUnrecoverable : Nat := 0x303
def stVerifyMismatch : Nat := 0x304
def stObjTruncated : Nat := 0x305
def stChecksumMismatch : Nat := 0x306
def stMacFail : Nat := 0x401
def stKeyNotLoaded : Nat := 0x402
def stRegionLocked : Nat := 0x403
def stAuthFail : Nat := 0x404
def stPartitionLocked : Nat := 0x405
def stKeyInUse : Nat := 0x406
def stPlaintextDisabled : Nat := 0x407
def stSignatureFail : Nat := 0x408
def stNoRegionId : Nat := 0x501
def stNoKeySlot : Nat := 0x502
def stIndexFull : Nat := 0x503
def stNoSpareZones : Nat := 0x504
def stExtentLimit : Nat := 0x505
def stHeapFull : Nat := 0x506
def stWatchLimit : Nat := 0x507
def stDpaSpaceFull : Nat := 0x508
def stBusyInService : Nat := 0x601
def stRekeyActive : Nat := 0x602
def stNotReady : Nat := 0x603
def stShuttingDown : Nat := 0x604
def stLaneOpRefused : Nat := 0x605
def stExposedReadOnly : Nat := 0x606
def stNotOwner : Nat := 0x607
def stTakeoverRefused : Nat := 0x608
def stInternalUnavailable : Nat := 0x701
def stCommandInterrupted : Nat := 0x702
def stInternalError : Nat := 0x703

/-! ### Line writes of agents inside the device (04 R133, 10 R373, R376) -/

/-- Bench lines and staging entries for n line writes, under the conditions of R132. -/
def Dev.roomFor (d : Dev) (n : Nat) : Bool :=
  decide (n = 0) ||
  (decide (d.occupancy + d.reservedLines + n ≤ d.bench.cap)
    && decide (d.stagingUsed + d.reservedLines + n ≤ 8192))

/-- A line write goes at once: none waits before it, and its line and entry are free. -/
def Dev.storeReady (d : Dev) : Bool := d.bench.later.isEmpty && d.roomFor 1

def Dev.addLater (d : Dev) (x : Later) : Dev :=
  { d with bench := { d.bench with later := d.bench.later ++ [x] } }

/-- A dead store of a head: the next barrier reports it (R373, R374). -/
def Dev.lostStore (d : Dev) (h : Head) (n : Nat) : Dev :=
  (d.onHead h (fun x => { x with lost := min (x.lost + n) 65535 })).count (cntHead h 8) n

def Dev.refusedStore (d : Dev) (h : Head) (n : Nat) : Dev :=
  d.onHead h (fun x => { x with refused := min (x.refused + n) 65535 })

/-- The status of a command whose stores were made. -/
def lostStatus (dead : Bool) : Nat := if dead then stBarrierLostStore else stSuccess

/-- A command whose end waits ends with another status, if it was to end with SUCCESS. -/
def endAs (order status : Nat) : Later → Later
  | .ends o st res => if o = order ∧ st = stSuccess then .ends o status 0 else .ends o st res
  | x => x

def Dev.endAs (d : Dev) (order status : Nat) : Dev :=
  { d with bench := { d.bench with later := d.bench.later.map (Machine.endAs order status) } }

/-- A dead line write: a command's is reported at the next barrier of its head and by its own end (R373, R376). -/
def Dev.deadStore (d : Dev) (who : StoreFor) (h : Head) : Dev :=
  match who with
  | .cmd o => (d.lostStore h 1).endAs o stBarrierLostStore
  | .ring => d.lostStore h 1

/-- A line write that EXPOSED refuses (04 R167, R374). -/
def Dev.refusedPiece (d : Dev) (who : StoreFor) (h : Head) : Dev :=
  match who with
  | .cmd o => (d.refusedStore h 1).endAs o stExposedReadOnly
  | .ring => d.refusedStore h 1

/-- The region takes stores of the line at a byte offset. -/
def Dev.storeLives (d : Dev) (region off : Nat) : Bool :=
  match d.region region with
  | some r => !d.writeLocked r (off / 256)
  | none => false

/-- Make one line write. -/
def Dev.storePiece (d : Dev) (ans : Answers) (who : StoreFor) (h : Head) (region off : Nat) (bs : List Byte) : Dev :=
  match d.region region with
  | some r =>
    if d.writeLocked r (off / 256) then d.deadStore who h
    else if d.writeRefused r region (off / 256) then d.refusedPiece who h
    else d.storeRegion ans r region off bs
  | none => d.deadStore who h

/-- The line writes of a store at a byte offset of a region: offset and bytes of each. -/
def storePieces (off : Nat) (bs : List Byte) : List (Nat × List Byte) :=
  (linePieces off bs.length).map (fun p =>
    let o := 256 * p.1 + p.2.1
    (o, (bs.drop (o - off)).take p.2.2))

/-- Line writes in order, each as its line and entry are free; whether one of those made was dead. -/
def Dev.storeAll (d : Dev) (ans : Answers) (who : StoreFor) (h : Head) (region off : Nat) (bs : List Byte) : Dev × Bool :=
  (storePieces off bs).foldl (fun (acc : Dev × Bool) p =>
    let (d, dead) := acc
    if d.storeReady then (d.storePiece ans who h region p.1 p.2, dead || !d.storeLives region p.1)
    else (d.addLater (.store who h region p.1 p.2), dead)) (d, false)

/-- Line writes of a command wait. -/
def Dev.waits (d : Dev) (x : Exec) : Bool :=
  d.bench.later.any (fun y => match y with
    | .store (.cmd o) _ _ _ _ => o == x.order
    | .units o _ _ _ => o == x.order
    | _ => false)

/-- A command's end waits for its line writes. -/
def Dev.ending (d : Dev) (x : Exec) : Bool :=
  d.bench.later.any (fun y => match y with
    | .ends o _ _ => o == x.order
    | _ => false)

/-- Drop what a command has not written yet. -/
def Dev.dropLater (d : Dev) (x : Exec) : Dev :=
  { d with bench := { d.bench with later := d.bench.later.filter (fun y => match y with
      | .store (.cmd o) _ _ _ _ => o != x.order
      | .units o _ _ _ => o != x.order
      | .ends o _ _ => o != x.order
      | _ => true) } }

/-! ### The tracer (14 R535-R537) -/

def notReached : Nat := 0xFFFF

/-- The lowest free tag. -/
def freeTag (l : List Trace) : Option Nat := (upTo 64).find? (fun t => !l.any (fun x => x.tag == t))

def mkTrace (tag kind start : Nat) (h : Head) (who : Nat) : Trace :=
  { tag := tag, kind := kind, head := h, start := start, who := BitVec.ofNat 64 who,
    stages := List.replicate 8 notReached, poison := false, path := 0 }

/-- Draw a request of a kind; a drawn request takes a free tag or counts as missed. -/
def Dev.draw (d : Dev) (kind : Nat) (h : Head) (who : Nat) : Dev × Option Nat :=
  if d.ev.trEn && d.ev.trKinds.toNat.testBit kind then
    let n := d.ev.trDraws
    let d := { d with ev := { d.ev with trDraws := n + 1 } }
    let rate := d.ev.trRate.toNat
    if rate = 0 ∨ Config.traceDraw rate n = true then
      match freeTag d.ev.traces with
      | some t =>
        ({ d with ev := { d.ev with traces := d.ev.traces ++ [mkTrace t kind d.now h who] } }, some t)
      | none => ({ d with ev := { d.ev with trMissed := min (d.ev.trMissed + 1) (2 ^ 32 - 1) } }, none)
    else (d, none)
  else (d, none)

/-- The first time a stage is reached, in units of 5 ns after START. -/
def markStage (now k : Nat) (t : Trace) : Trace :=
  if lget t.stages k = notReached then
    { t with stages := t.stages.set k (min ((now - t.start) / 5) 0xFFFE) }
  else t

def Dev.stageIf (d : Dev) (p : Trace → Bool) (k : Nat) : Dev :=
  { d with ev := { d.ev with
      traces := d.ev.traces.map (fun t => if p t then markStage d.now k t else t) } }

/-- A trace record (R537). -/
def traceBytes (seq : BitVec 32) (timeout : Bool) (t : Trace) : List Byte :=
  leBytes 4 seq.toNat ++ leBytes 1 (t.tag + 64 * t.kind) ++
  leBytes 1 (bool01 timeout + 2 * bool01 t.poison + 4 * headNum t.head) ++ leBytes 2 t.path ++
  leBytes 8 t.start ++ leBytes 8 t.who.toNat ++ leBytes 8 0 ++ t.stages.flatMap (leBytes 2) ++
  leBytes 16 0

/-- Write bytes at an offset from a base word of a head; whether they are written: the head's link is up, or the address is
live and its region takes stores. In device memory each line write goes, or waits, as R133 says. DESIGN CHOICE: a write
that a locked or read-only region drops, and one over a link that is down, count as one that the ring cannot take (log
entries 74, 174). -/
def Dev.ringWrite (d : Dev) (h : Head) (base : Word) (off : Nat) (bs : List Byte) : Dev × Bool :=
  match mtype base with
  | 0 => if (d.head h).linkUp then (d.send (.hostWrite h (addrOf base + off) bs), true) else (d, false)
  | 1 =>
    match d.liveRange h (addrOf base + off) bs.length with
    | some (id, r, o) =>
      let (d', dead) := d.storeAll noAnswers .ring h id o bs
      (d', !dead && !d.writeRefused r id (o / 256))
    | none => (d.lostStore h 1, false)
  | _ => (d, false)

/-- Write a trace's record and free its tag; a write that fails stops the tracer. -/
def Dev.traceEnd (d : Dev) (t : Trace) (timeout ok : Bool) : Dev :=
  let d := { d with ev := { d.ev with traces := d.ev.traces.filter (fun x => x.tag != t.tag) } }
  let e := d.ev
  let slot := e.trSeq.toNat % (e.trDepth.toNat + 1)
  let (d', live) := d.ringWrite (headOfBit e.trHead) e.trBase (64 * slot) (traceBytes e.trSeq timeout t)
  if live && ok then { d' with ev := { d'.ev with trSeq := d'.ev.trSeq + 1 } }
  else { d with ev := { d.ev with trEn := false, trErr := true, traces := [] } }

/-- Every trace of a class has reached its last stage. -/
def Dev.traceEndIf (d : Dev) (p : Trace → Bool) : Dev :=
  d.each (d.ev.traces.filter p) (fun d t => d.traceEnd t false true)

/-- Traces of one kind for a line. -/
def traceOf (kind region line : Nat) (t : Trace) : Bool :=
  decide (t.kind = kind) && decide (t.who.toNat = region + line * 1024)

def traceTag (tag : Option Nat) (t : Trace) : Bool :=
  match tag with
  | some n => decide (t.tag = n)
  | none => false

/-! ### Queue pairs -/

def headOfQid (qid : Nat) : Head := if qid < 64 then .a else .b

def adminQid (h : Head) : Nat := 64 * headNum h

def Dev.adm (d : Dev) : Head → AdmQ
  | .a => d.q.admA
  | .b => d.q.admB

def Dev.setAdm (d : Dev) (h : Head) (x : AdmQ) : Dev :=
  match h with
  | .a => { d with q := { d.q with admA := x } }
  | .b => { d with q := { d.q with admB := x } }

/-- QP_ERROR and CPL_DISCARDED carry queue, cause and command (14 R521). -/
def qpDetail (qid cause cid : Nat) : BitVec 256 := detailOf [(32, qid), (33, cause), (34, cid)]

/-- A pair enters ERROR (R396). -/
def Dev.pairError (d : Dev) (qid cause : Nat) : Dev :=
  if (d.pair qid).state = .active then
    (d.onPair qid (fun p => { p with state := .error, errCause := cause })).event
      (evHead (headOfQid qid) 2) (qpDetail qid cause 0)
  else d

/-- A completion that no ring takes (R333, R416). -/
def Dev.cplDiscarded (d : Dev) (qid cid : Nat) : Dev :=
  d.event (evHead (headOfQid qid) 3) (qpDetail qid (d.pair qid).errCause cid)

/-- The 16 B completion entry (R400-R402). -/
def Dev.cplBytes (d : Dev) (qid cid status result : Nat) (sqIdx : Option Nat) : List Byte :=
  let p := d.pair qid
  let e := d.ev
  let word := status + 4096 * bool01 e.toggle + 8192 * e.attnLevel (.head (headOfQid qid))
  leBytes 6 result ++ leBytes 2 e.headSeq.toNat ++ leBytes 2 cid ++ leBytes 2 word ++
  leBytes 2 (sqIdx.getD p.sqHead) ++ leBytes 2 (qid + 32768 * bool01 p.phase)

/-- The CQ moves past an entry; PHASE inverts at each wrap (R395). -/
def advanceCq (p : QPair) : QPair :=
  if p.cqTail + 1 = p.cqDepth then { p with cqTail := 0, phase := !p.phase }
  else { p with cqTail := p.cqTail + 1 }

def releaseSlot (p : QPair) : QPair := { p with slots := p.slots - 1 }

/-- MSI-X after an entry (R414). -/
def Dev.interrupt (d : Dev) (qid : Nat) (urgent : Bool) : Dev :=
  let p := d.pair qid
  if p.ien then
    if urgent || decide (max p.icount 1 ≤ p.posted + 1) then
      (d.setPair qid { p with posted := 0 }).send (.msix (headOfQid qid) p.vector)
    else
      d.setPair qid { p with posted := p.posted + 1,
                             oldestAt := if p.posted = 0 then d.now else p.oldestAt }
  else d

/-- Post a completion entry at once; sqIdx names the entry answered when the CID is 0xFFFF. -/
def Dev.postNow (d : Dev) (qid cid status result : Nat) (sqIdx : Option Nat) (urgent : Bool) : Dev :=
  let p := d.pair qid
  match p.state with
  | .absent => d
  | .deleting => (d.onPair qid releaseSlot).cplDiscarded qid cid
  | _ =>
    let (d', live) :=
      d.ringWrite (headOfQid qid) p.cqBase (16 * p.cqTail) (d.cplBytes qid cid status result sqIdx)
    if live then
      (d'.onPair qid (fun p => advanceCq (releaseSlot p))).interrupt qid
        (urgent || decide (status / 256 ≠ 0))
    else (d'.pairError qid 4).onPair qid releaseSlot

/-- A completion entry for a ring in device memory waits for its line and entry (04 R133). -/
def Dev.postWaits (d : Dev) (qid : Nat) : Bool :=
  let p := d.pair qid
  decide (p.state = .active ∨ p.state = .error) && decide (mtype p.cqBase = 1) && !d.storeReady &&
  (d.liveRange (headOfQid qid) (addrOf p.cqBase + 16 * p.cqTail) 16).isSome

/-- Post a completion entry. -/
def Dev.post (d : Dev) (qid cid status result : Nat) (sqIdx : Option Nat) (urgent : Bool) : Dev :=
  if d.postWaits qid then d.addLater (.post qid cid status result sqIdx urgent)
  else d.postNow qid cid status result sqIdx urgent

/-- Completion entries of a pair that still wait are discarded (R333, R416). -/
def Dev.dropPosts (d : Dev) (qid : Nat) : Dev :=
  let mine (y : Later) : Option Nat := match y with
    | .post q cid _ _ _ _ => if q = qid then some cid else none
    | _ => none
  let cids := d.bench.later.filterMap mine
  let d := { d with bench := { d.bench with later := d.bench.later.filter (fun y => (mine y).isNone) } }
  d.each cids (fun d cid => d.cplDiscarded qid cid)

/-! ### Commands (R403-R406) -/

def Dev.dropExec (d : Dev) (x : Exec) : Dev :=
  { d with q := { d.q with exec := d.q.exec.filter (fun y => y != x) } }

/-- A command that reaches an engine (14 R528). -/
def engineOp (op : Nat) : Bool := decide (0x30 ≤ op) && decide (op ≤ 0x3B)

/-- No command of a pair is executing or being fetched. -/
def Dev.pairIdle (d : Dev) (qid : Nat) : Bool :=
  !d.q.exec.any (fun x => x.qid == qid && !x.orphan) && (d.pair qid).fetching.isEmpty

/-- Post a command's completion and free it; the completion of a command whose pair has gone is
discarded (R333). -/
def Dev.complete1 (d : Dev) (x : Exec) (status result : Nat) : Dev :=
  let d := d.dropExec x
  let d := d.when (engineOp x.opcode) (·.count (cntEngine 4) 1)
  let d := d.stageIf (traceTag x.tag) 2
  let d :=
    if x.orphan then d.cplDiscarded x.qid x.cid
    else d.post x.qid x.cid status result none (x.opcode == 5)
  (d.stageIf (traceTag x.tag) 3).traceEndIf (traceTag x.tag)

/-- ADMQ_CFG holds no reserved value. -/
def cfgOk (cfg : Nat) : Bool := decide (fld cfg 0 12 ≠ 0) && decide (fld cfg 12 12 ≠ 0)

/-- With EN = 1, a reserved value in ADMQ_CFG leaves RDY at 0 and sets the admin pair's ERR_CAUSE to SQ_TAIL_RANGE (R419). -/
def Dev.noteCfg (d : Dev) (h : Head) : Dev :=
  let a := d.adm h
  if a.en && !a.rdy && !cfgOk a.cfg.toNat then d.onPair (adminQid h) (fun p => { p with errCause := 1 }) else d

/-- A pair that is being deleted and has no command left goes; the deleting command completes on its own
queue (R416). -/
def Dev.finishPair (d : Dev) (qid : Nat) : Dev :=
  let p := d.pair qid
  if p.state = .deleting ∧ d.pairIdle qid = true then
    let d := (d.setPair qid Reset.qpair).noteCfg (headOfQid qid)
    match p.deleter with
    | none => d
    | some (aq, cid) =>
      match d.q.exec.find? (fun x => x.qid == aq && x.cid == cid && x.opcode == 3) with
      | some x => d.complete1 x stSuccess 0
      | none => d
  else d

/-- The deletion of a pair ends, and so may the deletion of the admin pair that carried it. -/
def Dev.finishDelete (d : Dev) (qid : Nat) : Dev := (d.finishPair qid).finishPair (adminQid (headOfQid qid))

/-- Complete a command, once its line writes are made. A deletion that waited for it ends. -/
def Dev.complete (d : Dev) (x : Exec) (status result : Nat) : Dev :=
  if d.waits x then d.addLater (.ends x.order status result)
  else (d.complete1 x status result).finishDelete x.qid

/-- A command that would write what EXPOSED keeps read-only (04 R167). DESIGN CHOICE: it counts as one refused store of its
head (log entry 173). -/
def Dev.refuse (d : Dev) (x : Exec) : Dev := (d.refusedStore (headOfQid x.qid) 1).complete x stExposedReadOnly 0

/-- A stream that no command uses any more. -/
def Stream.idle (x : Stream) : Stream :=
  { x with
    en := false, mark := x.write, read := x.write, free := x.write, handed := x.write, poison := [], slots := [],
    ends := [x.write], writer := none, reader := none }

def EngJob.uses (j : EngJob) (s : Nat) : Bool := j.inputs.any (fun i => i.stream == s)

/-- A command leaves its engine, and its streams are free again. -/
def Dev.dropJob (d : Dev) (order : Nat) : Dev :=
  match d.eng.jobs.find? (fun j => j.order == order) with
  | none => d
  | some j =>
    let d := { d with eng := { d.eng with jobs := d.eng.jobs.filter (fun y => y.order != order) } }
    d.each ((upTo 48).filter j.uses) (fun d s => d.onStream s Stream.idle)

/-- The in-service test of a command is given up (19 R694). -/
def Dev.dropTest (d : Dev) (x : Exec) : Dev :=
  { d with
    cache := { d.cache with testing := d.cache.testing.filter (fun y => !(y.qid == x.qid && y.cid == x.cid)) }
    life := { d.life with clusterTest := d.life.clusterTest.filter (fun y => !(y.qid == x.qid && y.cid == x.cid)) } }

/-- A command that is cut off: what it has not written is dropped. -/
def Dev.interruptCmd (d : Dev) (x : Exec) : Dev :=
  (((d.dropJob x.order).dropLater x).dropTest x).complete x stCommandInterrupted 0

/-- Stop fetching from a pair and end its WATCHes; it goes when no command of it remains (R416). -/
def Dev.deletePair (d : Dev) (qid : Nat) (deleter : Option (Nat × Nat)) : Dev :=
  let d := { d with q := { d.q with
    exec := d.q.exec.filter (fun x => !(x.qid == qid && x.opcode == 5)) } }.dropPosts qid
  (d.onPair qid (fun p => { p with state := .deleting, fetching := [], deleter := deleter })).finishDelete
    qid

/-- Delete a pair at a head's reset: its commands run on without a completion (R332, R333). -/
def Dev.resetPair (d : Dev) (qid : Nat) : Dev :=
  let kept := d.q.exec.filter (fun (x : Exec) => !(x.qid == qid && x.opcode == 5))
  let gone := kept.map (fun (x : Exec) => if x.qid = qid then { x with orphan := true } else x)
  ({ d with q := { d.q with exec := gone } }.dropPosts qid).setPair qid Reset.qpair

/-- The command of an opcode that a queue and a command ID name, once it has started and until its end only waits for
its line writes. -/
def Dev.executing (d : Dev) (op qid cid : Nat) : Option Exec :=
  d.q.exec.find? (fun x => x.qid == qid && x.cid == cid && x.opcode == op && x.started && !d.ending x)

/-- Commands that need cluster 0, whose platform work cluster 1 takes over from memory ready on (08 R309). -/
def needsPlatform (op : Nat) : Bool := [0x08, 0x20, 0x21, 0x22, 0x23].contains op

def Dev.platformDown (d : Dev) : Bool :=
  d.sec.halted.toNat.testBit 0 && (d.sec.halted.toNat.testBit 1 || !d.ready)

/-- Queues are served (08 R310). -/
def Dev.queuesServed (d : Dev) : Bool := !(d.clusterDown 2 && d.clusterDown 3)

/-- A command needs a cluster that is halted (08 R309). -/
def Dev.unavailable (d : Dev) (op : Nat) : Bool := needsPlatform op && d.platformDown

/-- Run a command's work when its occasion holds: it has started, and a cluster serves queues (08 R310). One that needs a
halted cluster ends (08 R309). -/
def Dev.command (d : Dev) (op : Nat) (qid : BitVec 7) (cid : BitVec 16) (f : Dev → Exec → Dev) : Dev :=
  match d.executing op qid.toNat cid.toNat with
  | some x =>
    if d.life.running && d.queuesServed then
      if d.unavailable op then d.complete x stInternalUnavailable 0 else f d x
    else d
  | none => d

/-- A command that has checked its buffers, and waits. -/
def Dev.hold (d : Dev) (x : Exec) : Dev :=
  { d with q := { d.q with exec := d.q.exec.map (fun (y : Exec) => if y = x then { x with checked := true } else y) } }

/-- A command may use a buffer: it could when it started, and what has gone since is dead to its stores and poison to its
loads (R399, 10 R373). -/
def Dev.usable (d : Dev) (x : Exec) (w : Word) (n : Nat) : Bool := x.checked || d.bufferOk (headOfQid x.qid) w n

/-- Parameter word i. -/
def Exec.p (x : Exec) (i : Nat) : Word := (x.params[i]?).getD 0

def Exec.pn (x : Exec) (i lo w : Nat) : Nat := fld (x.p i).toNat lo w

/-- The head whose queue issued a command. -/
def issuer (x : Exec) : Head := headOfQid x.qid

/-- A command whose first part is done, with words kept behind its parameters for the next. -/
def Exec.kept (x : Exec) (l : List Nat) : Exec :=
  { x with parked := true, params := (upTo 7).map x.p ++ l.map (BitVec.ofNat 64) }

def Dev.keep (d : Dev) (x : Exec) (l : List Nat) : Dev :=
  { d with q := { d.q with exec := d.q.exec.map (fun (y : Exec) => if y = x then x.kept l else y) } }

/-- Store a command's bytes through an address word; whether one of the stores made was dead. -/
def Dev.saveCmd (d : Dev) (ans : Answers) (x : Exec) (w : Word) (bs : List Byte) : Dev × Bool :=
  let h := issuer x
  match mtype w with
  | 0 => (d.send (.hostWrite h (addrOf w) bs), false)
  | 1 =>
    match d.liveRange h (addrOf w) bs.length with
    | some (id, _, off) => d.storeAll ans (.cmd x.order) h id off bs
    | none => (d.lostStore h (linePieces (addrOf w % 256) bs.length).length, true)
  | 2 => (d.scratchStore (addrOf w) bs, false)
  | _ => (d, false)

/-- Units of one heap line for a command: staged, or waiting. -/
def Dev.lineUnits (d : Dev) (x : Exec) (region unit : Nat) (l : List Sector) : Dev :=
  if d.storeReady then d.stageUnits region unit l else d.addLater (.units x.order region unit l)

/-- Consecutive units cut at heap lines: the first unit of each piece, and its units. -/
def unitPieces : Nat → Nat → List Sector → List (Nat × List Sector)
  | 0, _, _ => []
  | n + 1, u, l =>
    if l.isEmpty then [] else (u, l.take (4 - u % 4)) :: unitPieces n (u + (4 - u % 4)) (l.drop (4 - u % 4))

/-- Consecutive units of a command's record, line by line. -/
def Dev.saveUnits (d : Dev) (x : Exec) (region unit : Nat) (l : List Sector) : Dev :=
  d.each (unitPieces (l.length + 1) unit l) (fun d p => d.lineUnits x region p.1 p.2)

/-! ### Line writes that waited -/

/-- What waits needs a line of its own. -/
def Later.needsLine : Later → Bool
  | .ends _ _ _ => false
  | _ => true

/-- A line of units of a command's record finds no region that takes it (10 R373, R376). -/
def Dev.lostUnits (d : Dev) (order : Nat) : Dev :=
  match d.q.exec.find? (fun x => x.order == order) with
  | some x => (d.lostStore (issuer x) 1).endAs order stBarrierLostStore
  | none => d

/-- Do what waited. Old bytes of a sector that is stored in part come from a sense without noise (log entry 138). -/
def Dev.runLater (d : Dev) : Later → Dev
  | .store who h region off bs => d.storePiece noAnswers who h region off bs
  | .units o region unit l =>
    match d.region region with
    | some r => if d.writeLocked r (unit / 4) then d.lostUnits o else d.stageUnits region unit l
    | none => d.lostUnits o
  | .post qid cid st res idx urgent => d.postNow qid cid st res idx urgent
  | .ends o st res =>
    match d.q.exec.find? (fun x => x.order == o) with
    | some x => d.complete x st res
    | none => d

/-- Waiting line writes, in order, while lines and entries are free. -/
def pumpLater : Nat → Dev → Dev
  | 0, d => d
  | n + 1, d =>
    match d.bench.later with
    | [] => d
    | x :: l =>
      if x.needsLine && !d.roomFor 1 then d
      else pumpLater n ({ d with bench := { d.bench with later := l } }.runLater x)

def Dev.pumpStores (d : Dev) : Dev := pumpLater d.bench.later.length d

/-! ### WATCH (R411) -/

/-- A record of level 1 or above has been logged after a sequence. -/
def EventBlock.loggedSince (e : EventBlock) (seq : BitVec 32) : Bool :=
  e.log.any (fun r => decide (1 ≤ r.level) && seqLater r.seq seq)

/-- Something has changed for a WATCH since its fetch. -/
def Dev.watchChanged (d : Dev) (x : Exec) : Bool :=
  decide (d.ev.attnLevel (.head (issuer x)) ≠ x.pn 0 0 3) || (x.toggleAt != (x.p 0).toNat.testBit 3)
    || d.ev.loggedSince x.seqAt

def watchResult (d : Dev) (timedOut : Bool) : Nat := bool01 timedOut + 65536 * d.ev.headSeq.toNat

/-- Parked WATCHes that a change ends. -/
def Dev.settleWatch (d : Dev) : Dev :=
  d.each (d.q.exec.filter (fun x => x.opcode == 5 && x.parked && d.watchChanged x))
    (fun d x => d.complete x stSuccess (watchResult d false))

/-- WATCH commands of a head held by the device. -/
def Dev.watches (d : Dev) (h : Head) : Nat :=
  (d.q.exec.filter (fun x => x.opcode == 5 && x.parked && decide (issuer x = h))).length

end Sys2Proof.Machine
end

