-- ==== Sys2Proof/Machine/Run.lean ====
section
/-!
DEFINITION. What surrounds every command: the clocks move to its time stamp (log entry 1), level counters
and the event log run up to it, the command's work is done, and then the conditions that level sources,
parked WATCHes, BENCH_CAP and the heads' event logs follow are settled.
-/

namespace Sys2Proof.Machine

/-! ### Time passes -/

/-- Program tokens of a pool in hand: pool 0 serves lanes 0-7, pool 1 lanes 8-15 (17 R632). -/
def poolOf (lane : Nat) : Nat := lane / 8

def Dev.tokensHeld (d : Dev) (pool : Nat) : Nat :=
  (d.bench.progs.filter (fun p => poolOf (plaLane p.spec.pla) == pool)).length

/-- Programs that wait for a token or a tile. -/
def Dev.programsWaiting (d : Dev) : Nat := d.bench.updates.foldl (fun n u => n + u.wait.length) 0

/-- Head h withholds write credits (04 R132, R162, R176); none before the device runs. -/
def Dev.creditHold (d : Dev) (h : Head) : Bool :=
  d.life.running && decide ((d.head h).credits < 256) && (!d.roomForLine || d.bench.draining || !d.bench.capGiven)

/-- Level counters over a number of 5 ns ticks (14 R528). -/
def Dev.levelCounters (d : Dev) (ticks : Nat) : EventBlock :=
  let lanes := (upTo 16).foldl (fun (e : EventBlock) i =>
    let n := (d.lane1 i).queue.length
    if n = 0 then e else e.bump (cntLane i 8) (n * ticks)) d.ev
  let add (e : EventBlock) (c n : Nat) : EventBlock := if n = 0 then e else e.bump c (n * ticks)
  let heads := add (add lanes (cntHead .a 4) d.headA.readsOut) (cntHead .b 4) d.headB.readsOut
  let holds := add (add heads (cntHead .a 5) (bool01 (d.creditHold .a)))
    (cntHead .b 5) (bool01 (d.creditHold .b))
  let occ := add holds (cntCache 5) d.occupancy
  add (add occ (cntToll 0) (d.tokensHeld 0 + d.tokensHeld 1)) (cntToll 1) d.programsWaiting

/-- Whole hours in ON that end between two instants of the always-on clock (18 R668). -/
def hoursPassed (p : PowerBlock) (a b : Nat) : Nat :=
  if p.state = .on then (b - p.onAt) / hourNs - (a - p.onAt) / hourNs else 0

/-- Milestone counter 6 after n more hours. -/
def CabBlock.addHours (c : CabBlock) (n : Nat) : List Nat :=
  c.milestone.modify 6 (fun m => min milestoneMax (m + n))

/-- The device at a later instant: counters, hours and the event log have run; nothing else moves by itself. -/
def Dev.elapse (d : Dev) (now aon : Nat) : Dev :=
  let e := if d.life.running then d.levelCounters ((now - d.now) / 5) else d.ev
  { d with
    now := now, aon := aon, ev := d.ev.keepCfg (drainIntake now 257 e)
    cab := { d.cab with milestone := d.cab.addHours (hoursPassed d.pwr d.aon aon) } }

/-! ### Conditions that level sources follow (14 R511, R512) -/

def lanePresent (st : ScopeState) : Bool := decide (st ≠ .inService) && decide (st ≠ .absent)

def stageNum : Stage → Nat
  | .repair => 0
  | .bist => 1
  | .boot => 2
  | .media => 3
  | .keys => 4
  | .zt => 5
  | .resync => 6
  | .checks => 7
  | .energy => 8
  | .ready => 9
  | .shutdown => 10
  | .halted => 11

/-- The Zone Table is loaded, so that spare zones are known. -/
def Dev.zonesKnown (d : Dev) : Bool :=
  decide (6 ≤ stageNum d.life.stage) && decide (stageNum d.life.stage ≤ 10) && d.life.formatted

/-- Level sources with their conditions. -/
def laneLevels (d : Dev) : List (Nat × Bool) :=
  (upTo 16).flatMap (fun i =>
    (evLane i 0, lanePresent (d.lane1 i).lstate) ::
    (upTo 8).map (fun p =>
      (evDie i p 1, d.posUsed p && lanePresent (vget .absent (d.lane1 i).dies p))))

def railLevels (d : Dev) : List (Nat × Bool) :=
  (upTo 12).map (fun r => (evRail r 2, decide ((vget Reset.rail d.pwr.rails r).step ≠ 0)))

def Dev.sensor (d : Dev) (i : Nat) : Sensor := vget Reset.sensor d.therm.sensors i

def thermalLevels (d : Dev) : List (Nat × Bool) :=
  (upTo 16).map (fun i => (evSensor i 0, (d.sensor i).warn)) ++
  [(evThermal 0, decide (d.therm.factor < 256)),
   (evThermal 1, d.therm.sampled && decide (degC 120 ≤ d.therm.tmax) && d.therm.tmaxSrc != 0xFF),
   (evThermal 3, d.therm.sensors.any (fun s => s.cold))]

def coreLevels (d : Dev) : List (Nat × Bool) :=
  (upTo 16).map (fun c => (evCore c 2, d.sec.halted.toNat.testBit (c / 4)))

def otherLevels (d : Dev) : List (Nat × Bool) :=
  let k := d.zonesKnown
  [(evBank 1, d.pwr.chgFault),
   (evSecurity 9, (upTo 3).any d.cab.lostPassword),
   (evHead .a 7, !d.headA.linkUp), (evHead .b 7, !d.headB.linkUp),
   (evPlatform 0, d.overCap), (evPlatform 1, d.bench.exposed), (evPlatform 2, d.bench.draining),
   (evPlatform 4, !d.zt.overdue.isEmpty),
   (evPlatform 6, k && decide (d.spare < 16384)), (evPlatform 7, k && decide (d.spare < 4096)),
   (evPlatform 14, d.poisonFull)]

def Dev.levelConds (d : Dev) : List (Nat × Bool) :=
  laneLevels d ++ railLevels d ++ thermalLevels d ++ coreLevels d ++ otherLevels d

/-- Assert and deassert every level source whose condition has changed. -/
def Dev.settleLevels (d : Dev) : Dev := d.each d.levelConds (fun d p => d.level p.1 p.2)

/-- A count of zones, a level source that also takes an occurrence at every multiple of 1,024 crossed
(07 R297). -/
def Dev.settleCount (d : Dev) (src old new : Nat) : Dev :=
  let det := detailOf [(32, new)]
  if old = 0 ∨ new = 0 then d.level src (decide (0 < new)) det
  else
    let crossed := max (old / 1024) (new / 1024) - min (old / 1024) (new / 1024)
    d.each (upTo crossed) (fun d _ => d.levelAgain src det)

/-- DEFICIT and RESIDENT against their values before the step. -/
def Dev.settleSpare (d : Dev) (deficit resident : Nat) : Dev :=
  if d.zonesKnown then
    (d.settleCount (evPlatform 8) deficit d.deficit).settleCount (evPlatform 9) resident d.resident
  else d

/-- A rise of a head's ATTN level to 3, 4, 5 or 7 posts a Memory Module Event (09 R347). -/
def Dev.settleAttn (d : Dev) (h : Head) (old : Nat) : Dev :=
  let new := d.ev.attnLevel (.head h)
  if old < new then
    if new = 7 then d.moduleEvent h .fatal
    else if 3 ≤ new ∧ new ≤ 5 then d.moduleEvent h .warning else d
  else d

/-- Sideband ATTN changes raise an in-band interrupt in I3C mode (20 R718). -/
def Dev.settleIbi (d : Dev) : Dev :=
  let new := d.ev.attnLevel .sideband
  if d.life.ibiLevel = new then d
  else
    let d := { d with life := { d.life with ibiLevel := new } }
    if d.life.smbus then d else d.send .ibi

/-! ### Traces (14 R536) -/

/-- Host writes whose line has been selected for write-back reach stage 3. -/
def Dev.settleTraces (d : Dev) : Dev :=
  if d.ev.traces.any (fun t => decide (t.kind = 1)) then
    let hit (region line : Nat) (t : Trace) : Bool := traceOf 1 region line t
    let picked (t : Trace) : Bool :=
      d.cache.ways.any (fun p => match p.2 with
        | some w => w.selected.isSome && hit w.region w.line t
        | none => false) ||
      d.bench.entries.any (fun e => match e.key with
        | .user r l => hit r l t
        | .sys _ _ => false)
    d.stageIf picked 3
  else d

/-! ### Key slots (15 R561, R562) -/

/-- Lines of a region that expect key k; lines of a crossing stripe count for the old key. -/
def Region.keyLines (r : Region) (k : Nat) : Nat :=
  match r.rekey with
  | none => if r.keyId = k then r.lines else 0
  | some q =>
    (if q.newKey = k then q.boundary else 0) + (if q.oldKey = k then r.lines - q.boundary else 0)

/-- LINES of a key: lines that expect it, and Bench entries that carry it. -/
def Dev.keyLines (d : Dev) (k : Nat) : Nat :=
  d.regionsL.foldl (fun n p => n + p.2.keyLines k) 0 +
  (d.bench.entries.filter (fun e => decide (e.state ≠ .staged) && e.keyId == k)).length

/-- An ABSENT or RETIRED slot with no line left becomes FREE, and its record is erased. -/
def Dev.freeSlot (d : Dev) (k : Nat) : Dev :=
  let x := d.slot k
  if (x.state = .absent ∨ x.state = .retired) ∧ d.keyLines k = 0 then
    ({ d with sec := { d.sec with slots := tdel d.sec.slots k } }).cabErasePair (202 + k)
  else d

/-- A line of a region may carry key k. -/
def Region.carries (r : Region) (k line : Nat) : Bool :=
  match r.expect line with
  | .any => false
  | .one j => j == k
  | .two o n => o == k || n == k

def Dev.carriesKey (d : Dev) (k region line : Nat) : Bool :=
  match d.region region with
  | some r => r.carries k line
  | none => false

/-- No Bench entry and no dirty line carries k (R578 step 3). -/
def Dev.keyDrained (d : Dev) (k : Nat) : Bool :=
  !d.bench.entries.any (fun e => match e.key with
    | .user r l => d.carriesKey k r l
    | .sys _ _ => false) &&
  !d.cache.ways.any (fun p => match p.2 with
    | some w => w.dirty != 0 && d.carriesKey k w.region w.line
    | none => false)

/-- Every cached copy of a line under k leaves the cache and the side buffer. -/
def Dev.dropKeyed (d : Dev) (k : Nat) : Dev :=
  { d with cache := { d.cache with
      ways := d.cache.ways.filter (fun p => match p.2 with
        | some w => !d.carriesKey k w.region w.line
        | none => true)
      side := d.cache.side.filter (fun e => !d.carriesKey k e.region e.line) } }

/-! ### Work of the maintenance engine (05 R202, R206) -/

/-- Line of a region in an operation's range. -/
def MaintOp.covers (m : MaintOp) (region line : Nat) : Bool :=
  m.region == region && decide (m.first ≤ line) && decide (line < m.first + m.count)

/-- Select the dirty lines of a range. -/
def Dev.selectRange (d : Dev) (m : MaintOp) : Dev :=
  d.cache.ways.foldl (fun d p =>
    match p.2 with
    | some w => if w.dirty ≠ 0 ∧ m.covers w.region w.line = true then d.selectWay p.1 else d
    | none => d) d

/-- Ways 12 to 15 of the sets that a conversion takes or gives back. -/
def convKey (steps target key : Nat) : Bool :=
  decide (12 ≤ key % 16) && decide (4096 * min steps target ≤ key / 16) &&
  decide (key / 16 < 4096 * max steps target)

/-- Dirty lines in the ways being added are written back. -/
def Dev.convSelect (d : Dev) (steps target : Nat) : Dev :=
  d.cache.ways.foldl (fun d p => if convKey steps target p.1 then d.selectWay p.1 else d) d

/-- A FLUSH of the lines that carry key k: clean copies go, dirty lines are written back. -/
def Dev.flushKey (d : Dev) (k : Nat) : Dev :=
  let mine := d.cache.ways.filter (fun p => match p.2 with
    | some w => d.carriesKey k w.region w.line
    | none => false)
  d.each mine (fun d p => match p.2 with
    | some w => if w.dirty = 0 then d.setWay p.1 none else d.selectWay p.1
    | none => d)

/-- Places of a way in a block of 1,024 sets. -/
def inBlock (way block key : Nat) : Bool := decide (key % 16 = way) && decide (key / 16 / 1024 = block)

/-- Dirty lines of a way in a block are written back. -/
def Dev.blockSelect (d : Dev) (way block : Nat) : Dev :=
  d.cache.ways.foldl (fun d p => if inBlock way block p.1 then d.selectWay p.1 else d) d

/-- The engine begins the first of its work. -/
def Dev.beginWork (d : Dev) : Dev :=
  match d.cache.work, d.cache.maint, d.cache.conv with
  | .register :: _, some m, _ => if m.op = 2 then d else d.selectRange m
  | .conversion :: _, _, some c =>
    if d.cache.steps.toNat < c.target then d.convSelect d.cache.steps.toNat c.target else d
  | .keyFlush k _ :: _, _, _ => d.flushKey k
  | .wayFlush w b :: _, _, _ => d.blockSelect w b
  | _, _, _ => d

/-- Work is taken up in order of arrival (R206). -/
def Dev.addWork (d : Dev) (w : MaintWork) : Dev :=
  let idle := d.cache.work.isEmpty
  ({ d with cache := { d.cache with work := d.cache.work ++ [w] } }).when idle Dev.beginWork

/-- The engine runs this work now. -/
def Dev.working (d : Dev) (w : MaintWork) : Bool := decide (d.cache.work.head? = some w)

def Dev.nextWork (d : Dev) : Dev := { d with cache := { d.cache with work := d.cache.work.tail } }.beginWork

/-- The FLUSH of a test that was given up ends. -/
def Dev.settleTest (d : Dev) : Dev :=
  match d.cache.work, d.cache.testing with
  | .wayFlush _ _ :: _, none => d.nextWork
  | _, _ => d

/-- A slot's key is destroyed. -/
def Dev.endSlot (d : Dev) (k : Nat) (st : KState) : Dev :=
  { d with sec := { d.sec with slots := tset slotFree d.sec.slots k { d.slot k with state := st, key := 0 } } }

/-- The last slot that ZEROISE closes has closed (R579). -/
def Dev.zeroiseEnds (d : Dev) : Dev :=
  if d.cache.work.any (fun w => match w with
    | .keyFlush _ retire => !retire
    | _ => false) then d
  else { d with sec := { d.sec with zeroised := true } }

/-- The closing of slot k ends: RETIRED for KEY_RETIRE, which completes, or ABSENT for ZEROISE (R578). -/
def Dev.closeSlot (d : Dev) (k : Nat) : Dev :=
  if (d.slot k).state = .closing ∧ d.keyDrained k = true then
    if d.working (.keyFlush k true) then
      let d := ((d.dropKeyed k).nextWork).endSlot k .retired
      match d.q.exec.find? (fun y => y.opcode == 0x21 && y.parked && decide (y.pn 0 0 7 = k)) with
      | some y => d.complete y stSuccess 0
      | none => d
    else if d.working (.keyFlush k false) then (((d.dropKeyed k).nextWork).endSlot k .absent).zeroiseEnds
    else d
  else d

def Dev.settleKeys (d : Dev) : Dev :=
  if d.zonesKnown then d.each (d.sec.slots.map Prod.fst) (fun d k => (d.closeSlot k).freeSlot k) else d

/-! ### ENGINE tokens (17 R635, R637) -/

/-- Tokens of a consumer at full speed. -/
def engineCost (c : Nat) : Nat :=
  if c = 0 then 60 else if c = 1 then 15 else if c < 10 then 5 else if c = 10 then 10 else if c = 11 then 5 else 1

/-- Opcodes that the hash-index engine serves, and those that the heap manager serves with it. -/
def indexOp (op : Nat) : Bool := decide (0x30 ≤ op) && decide (op ≤ 0x34)

def heapOp (op : Nat) : Bool := decide (op = 0x30) || decide (op = 0x31) || decide (op = 0x33)

/-- A consumer has a command or a descriptor to run. -/
def Dev.engineActive (d : Dev) (c : Nat) : Bool :=
  if c < 10 then d.eng.jobs.any (fun j => j.engine == c)
  else if c = 10 then d.q.exec.any (fun x => x.started && indexOp x.opcode)
  else if c = 11 then d.q.exec.any (fun x => x.started && heapOp x.opcode)
  else (d.chan (c - 12)).en && decide ((d.chan (c - 12)).state = 1)

def Dev.activeEngines (d : Dev) : List Nat := (upTo 44).filter d.engineActive

def EngineBlock.held (e : EngineBlock) : Nat := e.tokens.foldl (fun n p => n + p.2) 0

/-- The consumer next in the round that holds less than its cost. -/
def EngineBlock.nextFor (e : EngineBlock) (act : List Nat) : Option Nat :=
  (act.filter (fun c => decide (e.turn ≤ c)) ++ act.filter (fun c => decide (c < e.turn))).find?
    (fun c => decide (tget 0 e.tokens c < engineCost c))

/-- Grants, one token a turn, while fewer than b tokens are held. -/
def grantTokens (b : Nat) (act : List Nat) : Nat → EngineBlock → EngineBlock
  | 0, e => e
  | n + 1, e =>
    if b ≤ e.held then e
    else match e.nextFor act with
      | none => e
      | some c => grantTokens b act n { e with tokens := tset 0 e.tokens c (tget 0 e.tokens c + 1), turn := c + 1 }

/-- An idle consumer releases its tokens, and the free ones are granted; more: consumers that begin work now. -/
def Dev.grant (d : Dev) (more : List Nat) : Dev :=
  let act := (upTo 44).filter (fun c => d.engineActive c || more.contains c)
  let e := { d.eng with tokens := d.eng.tokens.filter (fun p => act.contains p.1) }
  { d with eng := grantTokens d.therm.budgetE act 162 e }

/-- Work of consumers, which each hold a token for it, or wait (R635). -/
def Dev.withTokens (d : Dev) (l : List Nat) (f : Dev → Dev) : Dev :=
  let d := d.grant l
  if l.all (fun c => decide (0 < tget 0 d.eng.tokens c)) then f d else d

/-- Settling reads the registers of every block and changes none of them; nor does it touch the dies' cells, the
rails and the bank, the sensors, streams and channels, or the life cycle but for the sideband's last level. -/
def Dev.settleOnly (d x : Dev) : Dev :=
  { x with
    now := d.now, aon := d.aon, medium := d.medium, pwr := d.pwr, therm := d.therm, dma := d.dma, obj := d.obj
    life := { d.life with ibiLevel := x.life.ibiLevel }
    ev := d.ev.keepCfg x.ev
    cache := { x.cache with
      highWm := d.cache.highWm, pfDepth := d.cache.pfDepth, gather := d.cache.gather, ageLimit := d.cache.ageLimit,
      cfgSteps := d.cache.cfgSteps, mRegion := d.cache.mRegion, mFirst := d.cache.mFirst, mCount := d.cache.mCount,
      mOp := d.cache.mOp, refused := d.cache.refused, abandoned := d.cache.abandoned, steps := d.cache.steps,
      maint := d.cache.maint, conv := d.cache.conv, skipped := d.cache.skipped }
    lane := { x.lane with
      posMask := d.lane.posMask, ctrlLane := d.lane.ctrlLane, ctrlDie := d.lane.ctrlDie, ctrlScope := d.lane.ctrlScope,
      ctrlOp := d.lane.ctrlOp, lastStatus := d.lane.lastStatus, mergeGuard := d.lane.mergeGuard,
      autoRepair := d.lane.autoRepair, restoreDepth := d.lane.restoreDepth }
    sec := { d.sec with
      slots := x.sec.slots, zeroised := x.sec.zeroised, macLines := x.sec.macLines, flipSram := x.sec.flipSram, flipTag := x.sec.flipTag, flipLine := x.sec.flipLine }
    cab := { x.cab with milestone := d.cab.milestone, mileSel := d.cab.mileSel }
    wearDelta := d.wearDelta, moveMax := d.moveMax, moveMaxOd := d.moveMaxOd, earlyS := d.earlyS, earlyL := d.earlyL
    pclrTarget := d.pclrTarget, refresh := d.refresh, ztSel := d.ztSel, samples := d.samples }

/-- BENCH_CAP, waiting line writes, write-back, levels, keys, counts, WATCHes, ENGINE tokens, the heads' logs and the sideband's interrupt, in that
order. A drain has reported level 7 itself. -/
def Dev.settleAll (d0 d : Dev) : Dev :=
  let kept := decide (d0.life.resets = d.life.resets) && d0.life.running
  let old (h : Head) : Nat :=
    if kept = false then 0
    else if d.bench.draining && !d0.bench.draining then 7 else d0.ev.attnLevel (.head h)
  let d := d.setCap.pumpStores.selectDue.settleTraces.settleLevels.settleTest.settleKeys
  let d :=
    if kept && d0.zonesKnown then d.settleSpare d0.deficit d0.resident else d.settleSpare 0 0
  let d := d.settleWatch.grant []
  ((d.settleAttn .a (old .a)).settleAttn .b (old .b)).settleIbi

/-- What a step owes to the state it has reached; d0 is the device before its work. -/
def Dev.settle (d0 d : Dev) : Dev := if d.life.running then d.settleOnly (Dev.settleAll d0 d) else d

/-! ### A command -/

/-- The counter of R24 moves in steps of 5 ns, and never back. -/
def State.instant (s : State) (t : Nat) : Nat := max s.clock.now (t / 5 * 5)

/-- The device just before a command that comes at time stamp t; what the time that has passed raised has been reported (09
R347). -/
def State.before (s : State) (t : Nat) : Dev :=
  let d := s.dev.elapse (s.instant t) (s.clock.aon + (s.instant t - s.clock.now))
  if d.life.running then
    (d.settleAttn .a (s.dev.ev.attnLevel (.head .a))).settleAttn .b (s.dev.ev.attnLevel (.head .b))
  else d

/-- Run a command's work at its time stamp. A device reset restarts the counter (19 R678); a start takes its
time, and a VAUX power-on restarts the always-on clock. -/
def State.run (s : State) (t : Nat) (f : Dev → Dev) : State :=
  let d0 := s.before t
  let d := Dev.settle d0 (f d0)
  let now := if d.life.resets = d0.life.resets then d0.now else d.now / 5 * 5
  { s with clock := { now := now, aon := d.aon }, dev := d }

/-- The device that the clock and a command leave: the answer of every meaning. -/
def State.after (s : State) (t : Nat) (f : Dev → Dev) : Host.Outcome State Fault Refusal :=
  .next (s.run t f)

end Sys2Proof.Machine
end

