-- ==== Sys2Proof/Machine/Program.lean ====
section
/-!
DEFINITION. Line programs (04): tokens (17 R634-R636), the start of programs and their stages, issue of a
staging entry with its old value, the end of a program, remaps (02 R39-R41), torn lines.
-/

namespace Sys2Proof.Machine

/-! ### Tokens (17 R634, R636) -/

def Dev.budget (d : Dev) (pool : Nat) : Nat := if pool = 0 then d.therm.budget0 else d.therm.budget1

/-- A range rekey of the region goes on: it is neither paused by a lockdown nor by a key (15 R576). -/
def Dev.rekeyRuns (d : Dev) (r : Region) : Bool :=
  match r.rekey with
  | some q => !r.locked && d.keyLoaded q.oldKey && d.keyLoaded q.newKey
  | none => false

/-- Background programs wait: of a move, a gap move, a rekey, or pre-clears short of PCLR_TARGET. Each of them programs
lanes of both pools (log entry 22). -/
def Dev.backgroundWaits (d : Dev) : Bool :=
  !d.zt.moves.isEmpty || !d.zt.runs.isEmpty || d.zt.updates.any (fun p => p.2 == 64) ||
  d.regionsL.any (fun p => d.rekeyRuns p.2) ||
  (decide (d.freeClear.length < d.pclrTarget.toNat) && decide (0 < d.freeDirtyCount))

/-- Tokens that Bench programs may hold in a pool. -/
def Dev.benchLimit (d : Dev) (pool : Nat) : Nat :=
  let b := d.budget pool
  let share := d.therm.bgShare.toNat
  if d.bench.draining then 200
  else if d.overCap then b
  else if d.backgroundWaits then (if b < 2 * share then b / 2 else b - share)
  else b

/-- A token for one more Bench program on a lane. -/
def Dev.tokenFree (d : Dev) (lane : Nat) : Bool :=
  decide (d.tokensHeld (poolOf lane) < d.benchLimit (poolOf lane))

/-- Background programs may run: a token is left in each pool outside a drain and OVER_CAP. -/
def Dev.backgroundOk (d : Dev) : Bool :=
  !d.bench.draining && !d.overCap && decide (d.tokensHeld 0 < d.budget 0)
    && decide (d.tokensHeld 1 < d.budget 1)

/-! ### Tiles and suspension (02 R49, R50, 03 R94, R95) -/

/-- The tile takes no further program: one is in flight (R49), or its die programs 8 tiles already (R37). -/
def Dev.tileBusy (d : Dev) (p : Pla) : Bool :=
  d.bench.progs.any (fun x => plaTile x.spec.pla == plaTile p) ||
  decide (8 ≤ (d.bench.progs.filter (fun x => fld x.spec.pla.toNat 31 7 == fld p.toNat 31 7)).length)

/-- A sense to the tile is held by its lane. -/
def Dev.tileSensed (d : Dev) (tile lane : Nat) : Bool :=
  (d.lane1 lane).queue.any (fun s => plaTile s.pla == tile)

def suspendProg (now tile : Nat) (p : Prog) : Prog :=
  if plaTile p.spec.pla = tile ∧ p.suspAt.isNone = true then { p with suspAt := some now } else p

def resumeProg (now tile : Nat) (p : Prog) : Prog :=
  match p.suspAt with
  | some a => if plaTile p.spec.pla = tile then { p with suspAt := none, susp := p.susp + (now - a) } else p
  | none => p

def Dev.onProgs (d : Dev) (f : Prog → Prog) : Dev :=
  { d with bench := { d.bench with progs := d.bench.progs.map f } }

def Dev.suspendTile (d : Dev) (p : Pla) : Dev := d.onProgs (suspendProg d.now (plaTile p))

/-- The tile's program goes on when no sense to the tile remains. -/
def Dev.resumeTile (d : Dev) (p : Pla) : Dev :=
  if d.tileSensed (plaTile p) (plaLane p) then d else d.onProgs (resumeProg d.now (plaTile p))

/-! ### Starting programs -/

/-- A read of the line is in progress, or a sense of it is held by its lane: a program would meet it in flight (R52). -/
def Dev.lineRead (d : Dev) (p : Pla) : Bool :=
  d.lane.reads.any (fun x => x.pla == p) || (d.lane1 (plaLane p)).queue.any (fun s => s.pla == p)

/-- A program may start: its tile idle, no sense of its line under way, and a token free. -/
def Dev.canStart (d : Dev) (s : ProgSpec) : Bool :=
  !d.tileBusy s.pla && !d.lineRead s.pla && d.tokenFree (plaLane s.pla)

def Dev.startProg (d : Dev) (update : Nat) (s : ProgSpec) : Dev :=
  let lane := plaLane s.pla
  let p : Prog :=
    { id := d.bench.nextId, update := update, spec := s, attempt := 1, remapped := false,
      startAt := d.now, susp := 0,
      suspAt := if d.tileSensed (plaTile s.pla) lane then some d.now else none, longDone := false }
  ({ d with bench := { d.bench with progs := d.bench.progs ++ [p], nextId := d.bench.nextId + 1 } }.count
    (cntLane lane 7) 1).laneBytes lane 0 324

/-- Start what can start of a list; what is left. -/
def startList (update : Nat) : List ProgSpec → Dev → Dev × List ProgSpec
  | [], d => (d, [])
  | s :: l, d =>
    if d.canStart s then startList update l (d.startProg update s)
    else
      let (d, rest) := startList update l d
      (d, s :: rest)

def BenchBlock.update (b : BenchBlock) (id : Nat) : Option Update := b.updates.find? (fun u => u.id == id)

def Dev.setUpdate (d : Dev) (u : Update) : Dev :=
  { d with bench := { d.bench with
      updates := d.bench.updates.map (fun x => if x.id = u.id then u else x) } }

/-- Start the waiting programs of an update's present stage. -/
def Dev.startWaiting (d : Dev) (u : Update) : Dev :=
  let (d, rest) := startList u.id u.wait d
  d.setUpdate { u with wait := rest }

/-! ### Where a line program goes -/

/-- A line's tile is in service. -/
def Dev.inService (d : Dev) (p : Pla) : Bool := !d.isOut (plaLane p) (plaZone p)

def Dev.specIf (d : Dev) (p : Pla) (role : ProgRole) (img : Image) : List ProgSpec :=
  if d.inService p then [{ pla := p, role := role, image := img, noise := 0 }] else []

/-! ### The old value of a line (R144, R145) -/

/-- A line's old payload, its old image when one confirmed, and the cause when it reads as poison. -/
structure Old where
  data  : LineData
  image : Option Image
  cause : Option Nat
  deriving DecidableEq, Repr

def Dev.oldOf (d : Dev) (c : LineCtx) : ReadEnd → Old
  | .line cells m img _ _ => { data := d.payload c cells m, image := some img, cause := none }
  | .zeros => { data := 0, image := none, cause := none }
  | .poison cause _ => { data := 0, image := none, cause := some cause }

/-- The old value from the payload of the superseded entry of the line, while the line still holds its image, or while its
place is out and the image stands in the parity line or the copy (R144, preference 1; R154). -/
def Dev.supersededOld (d : Dev) (c : LineCtx) (e : Entry) : Option Old :=
  match e.old with
  | some (x, img, p) =>
    if p == c.pla && (!d.inService c.pla || decide (d.stored c.pla = img)) then
      (c.reads img).map (fun r => { data := x, image := some (goodImage c r.1 r.2.1), cause := none })
    else none
  | none => none

/-- A line's old value: the superseded entry's payload, else read through the read path; a MAC failure locks its
region (R144, 08 R315). -/
def Dev.readOld (d : Dev) (ans : Answers) (t : StripeCtx) (c : LineCtx) (e : Entry) : Dev × Old :=
  match d.supersededOld c e with
  | some o => (d, o)
  | none =>
    let r := d.readEnd ans t c true
    let d := d.noteRead ans true t c r
    let o := d.oldOf c r
    (if o.cause = some 3 then d.lockRegion t.region else d, o)

/-- The entry with the sectors it does not hold taken from the old value; those of a poisoned old value, and
listed ones, are poisoned (R145, R173); poisoned sectors are programmed as zeros (R174). -/
def Dev.fillEntry (d : Dev) (e : Entry) (region line : Nat) (o : Old) : Entry :=
  let missing := ~~~e.valid
  let bad := match o.cause with
    | some _ => missing
    | none => d.listed region line &&& missing
  let poison := e.poison ||| bad
  { e with
    valid := 0xF, poison := poison
    cause := (upTo 4).map (fun s =>
      if hasSec bad s then o.cause.getD (d.listedCause region line s) else lget e.cause s)
    data := (secs poison).foldl (fun x s => setSector x s 0) (overlay missing o.data e.data) }

/-! ### Records of poisoned sectors (R173-R175) -/

/-- The causes of an entry's poisoned sectors, each with its sectors. -/
def Entry.causes (e : Entry) : List (Nat × BitVec 4) :=
  ((secs e.poison).map (lget e.cause)).eraseDups.map (fun k =>
    (k, (secs e.poison).foldl (fun m s => if lget e.cause s = k then addSec m s else m) 0))

/-- What an entry lists before its commit: the sectors it poisons itself, and those it does not hold when its old
value reads as poison (R145, R174); the other listed sectors stay under their records (R173). -/
def Entry.toList (e : Entry) (old : Option Nat) : List (Nat × BitVec 4) :=
  e.causes ++ (match old with
    | some k => if e.valid = 0xF then [] else [(k, ~~~e.valid)]
    | none => [])

def Dev.listEntry (d : Dev) (e : Entry) (old : Option Nat) : Dev :=
  match e.key with
  | .user region line => d.each (e.toList old) (fun d p => d.enterPoison region line p.1 p.2)
  | .sys _ _ => d

/-- Records that listing an entry adds to the poisoned-line list. -/
def Dev.recordsNeeded (d : Dev) (e : Entry) (old : Option Nat) : Nat :=
  match e.key with
  | .user region line =>
    (((e.toList old).map Prod.fst).eraseDups.filter (fun k => d.needsRecord region line k)).length
  | .sys _ _ => 0

/-- The list has room for n more records. -/
def Dev.recordRoom (d : Dev) (n : Nat) : Bool := decide (n = 0) || decide (d.sys.poison.length + n ≤ poisonMax)

/-- The list has room for what an entry needs; otherwise the entry is pinned (R175). -/
def Dev.poisonRoom (d : Dev) (e : Entry) (old : Option Nat) : Bool := d.recordRoom (d.recordsNeeded e old)

/-! ### Verifies, retirement and the next stage -/

/-- Traces of the host writes that an entry carries reach a stage (14 R536). -/
def Dev.writeStage (d : Dev) (region line k : Nat) : Dev := d.stageIf (traceOf 1 region line) k

def HeldWrite.onLine (w : HeldWrite) (region line : Nat) : Bool := w.region == region && w.line == line

/-- Complete held writes, counting those that complete more than 10 us after their last flit (04 R169). -/
def Dev.completeHeld (d : Dev) (mine : HeldWrite → Bool) : Dev :=
  let d := d.each (d.bench.held.filter mine) (fun d w =>
    let d := d.send (.writeDone w.head w.tag)
    if w.since + 10 * usNs < d.now then d.count (cntHead w.head 6) 1 else d)
  { d with bench := { d.bench with held := d.bench.held.filter (fun w => !mine w) } }

/-- Complete the writes of a line held until its verify (04 R166): those whose entry has issued, all once the line's
newest data are durable. -/
def Dev.releaseHeld (d : Dev) (region line : Nat) (all : Bool := false) : Dev :=
  d.completeHeld (fun w => w.onLine region line && (all || w.issued))

/-- Held writes of a line that its issue takes to the medium, or that a program cut short leaves to a later one; one whose
sector still lies in a dirty way waits for that way's issue. -/
def Dev.markHeld (d : Dev) (region line : Nat) (issued : Bool) : Dev :=
  let dirty := d.cache.ways.any (fun p => match p.2 with
    | some w => w.region == region && w.line == line && w.dirty != 0
    | none => false)
  if issued && dirty then d
  else { d with bench := { d.bench with held := d.bench.held.map (fun w =>
    if w.onLine region line then { w with issued := issued } else w) } }

def Dev.markEntry (d : Dev) (issued : Bool) (e : Entry) : Dev :=
  match e.key with
  | .user region line => d.markHeld region line issued
  | .sys _ _ => d

/-- An event at most once a second for a key: a region and head (R340, R316), or a region (R167). -/
def Dev.dropEvent (d : Dev) (last : Sparse Nat) (key src region dpa : Nat) : Bool × Sparse Nat × Dev :=
  let (ok, last') := onceEvery last key d.now secNs
  (ok, last', if ok then d.event src (detailOf [(32, dpa), (40, region)]) else d)

/-- A write that EXPOSED refuses (04 R167). -/
def Dev.refusedWrite (d : Dev) (h : Head) (region dpa : Nat) : Dev :=
  let (_, last, d) := d.dropEvent d.bench.refusedAt region (evHead h 1) region dpa
  { d with bench := { d.bench with refusedAt := last } }.refusedStore h 1

/-- Writes held for a line that can no longer verify are completed as refused (04 R166, R167, 07 R286). DEDUCED: their
data stay in the Bench (log entry 137). -/
def Dev.refuseHeld (d : Dev) (region line : Nat) : Dev :=
  let mine (w : HeldWrite) : Bool := w.onLine region line
  let dpa := match d.region region with
    | some r => r.dpaBase + 256 * line
    | none => 0
  (d.each (d.bench.held.filter mine) (fun d w => d.refusedWrite w.head region dpa)).completeHeld mine

/-- What the verify of a line's own program settles: held writes and listed sectors it replaced, and a recovered line that
waits, which it rewrites (03 R105). -/
def Dev.lineVerified (d : Dev) (e : Entry) : Dev :=
  match e.key with
  | .user region line =>
    let d := { d with bench := { d.bench with backs := d.bench.backs.filter (fun x => decide (x.key ≠ e.key)) } }
    (((d.removePoison region line (~~~e.poison)).forgetMac (fun x => x == (region, line))).releaseHeld region
      line).writeStage region line 5
  | .sys _ _ => d

def Dev.entriesOf (d : Dev) (u : Update) : List Entry :=
  d.bench.entries.filter (fun e => u.entries.contains e.id && decide (e.kind ≠ .delta))

/-- The place of an entry's line. -/
def Dev.placeOf (d : Dev) (e : Entry) : Option (StripeCtx × LineCtx) :=
  match e.key with
  | .user region line => (d.region region).bind (fun r => d.lineStripe region r line)
  | .sys _ _ => none

/-- A STAGED entry takes over the payload of the entry it superseded (R144). -/
def Dev.handOver (d : Dev) (e : Entry) : Dev :=
  match e.image, d.placeOf e with
  | some img, some (_, c) =>
    { d with bench := { d.bench with entries := d.bench.entries.map (fun x =>
        if x.key = e.key ∧ x.state = .staged ∧ x.kind ≠ .delta then { x with old := some (e.data, img, c.pla) }
        else x) } }
  | _, _ => d

/-- Entries of a line forget the payload they took over: the line's image is another from here on. -/
def Dev.forgetOld (d : Dev) (region line : Nat) : Dev :=
  { d with bench := { d.bench with entries := d.bench.entries.map (fun x =>
      if x.key = .user region line then { x with old := none } else x) } }

/-- Retire an update: its entries leave the Bench, and so does the intent record of a NONE line that has verified
(04 R158); a pinned entry stays. -/
def Dev.retireUpdate (d : Dev) (u : Update) : Dev :=
  let es := (d.entriesOf u).filter (fun e => decide (e.state ≠ .pinned))
  let d := d.each es Dev.handOver
  let d := { d with
    bench := { d.bench with
      entries := d.bench.entries.filter (fun (e : Entry) =>
        !(u.entries.contains e.id && decide (e.state ≠ EntryState.pinned)))
      updates := d.bench.updates.filter (fun x => x.id != u.id) } }
  let d := { d with zt := { d.zt with
    lastUpdate := tset 0 d.zt.lastUpdate (zPz (d.zte u.lzone)) (d.now + 1) } }
  d.each es (fun d e =>
    match e.key with
    | .user region line =>
      let d := (d.writeStage region line 6).traceEndIf (traceOf 1 region line)
      if d.sys.lineIntent.contains (region, line) then d.sysPut (.lineIntent region line false) else d
    | .sys _ _ => d)

/-- A data line of a BLANK stripe written line by line: built with the next WSEQ, and its program started at once
(06 R219, R143). -/
def Dev.startLate (d : Dev) (u : Update) (t : StripeCtx) (c : LineCtx) (e : Entry) : Dev :=
  let (d, wseq) := d.takeWseq t.lz
  let key := t.r.writeKey c.idx
  let d := d.listEntry e none
  let e := d.fillEntry e t.region c.lineNo ⟨0, none, none⟩
  let (img, clean) := d.build c wseq key false e.data
  let d := (d.buildFired c).setEntry { e with state := .issued, image := some img, keyId := key }
  let d := (d.markHeld t.region c.lineNo true).writeStage t.region c.lineNo 4
  let d := d.setUpdate { u with
    entries := u.entries ++ [e.id], late := u.late.filter (· != e.id), zeros := u.zeros ++ [clean] }
  d.each (d.specIf c.pla .data img) (fun d s => d.startProg u.id s)

/-- Lines of a BLANK stripe whose programs can start are built, now that its zeros have verified; the others wait for
their tile, a token, or the end of a read. -/
def Dev.buildLate (d : Dev) (id : Nat) (t : StripeCtx) : Dev :=
  d.each t.data (fun d c =>
    match d.bench.update id with
    | none => d
    | some u =>
      match d.bench.entries.find? (fun e => u.late.contains e.id && decide (e.key = .user t.region c.lineNo)) with
      | none => d
      | some e =>
        if e.state ≠ .staged then d.setUpdate { u with late := u.late.filter (· != e.id) }
        else if (d.specIf c.pla .data 0).all d.canStart then d.startLate u t c e
        else d)

/-- The late lines of an update that are still in the Bench. -/
def Dev.lateLeft (d : Dev) (u : Update) : List Nat :=
  u.late.filter (fun i => d.bench.entries.any (fun e => e.id == i))

/-- The next late lines of an update; after the last of them, the parity line from all the images (07 R277). -/
def Dev.lateStep (d : Dev) (u : Update) : Dev :=
  match d.stripe u.lzone u.lstripe with
  | none => d.setUpdate { u with late := [] }
  | some t =>
    let d := (d.setUpdate { u with late := d.lateLeft u }).buildLate u.id t
    match d.bench.update u.id with
    | some u =>
      if u.late.isEmpty then
        let par := parityOf (zProfile t.e) u.zeros
        d.setUpdate { u with next := [t.check.flatMap (fun p => d.specIf p.pla .parity par)] }
      else d
    | none => d

def nextStage (u : Update) : Option Update :=
  match u.next with
  | [] => none
  | l :: rest => some { u with wait := l, next := rest }

/-- The late lines of an update come next: its zeros have verified. -/
def Dev.lateTurn (d : Dev) (u : Update) : Bool :=
  u.next.isEmpty && !u.late.isEmpty && (!u.entries.isEmpty || !d.bench.progs.any (fun p => p.update == u.id))

/-- Go on with an update after one of its programs has ended: start what waits, else its late lines, else the next stage,
else retire it. -/
def advance : Nat → Nat → Dev → Dev
  | 0, _, d => d
  | n + 1, id, d =>
    match d.bench.update id with
    | none => d
    | some u =>
      if u.wait.isEmpty = false then d.startWaiting u
      else if d.lateTurn u then
        let d := d.lateStep u
        match d.bench.update id with
        | some v => if v.late.isEmpty then advance n id d else d
        | none => d
      else if d.bench.progs.any (fun p => p.update == id) then d
      else match nextStage u with
        | some u' => advance n id (d.setUpdate u')
        | none => d.retireUpdate u

def Dev.advance (d : Dev) (id : Nat) : Dev := Machine.advance 8 id d

/-- A token or a tile has become free: waiting programs start, oldest update first. -/
def Dev.pump (d : Dev) : Dev :=
  d.each (d.bench.updates.filter (fun u => !u.wait.isEmpty || !u.late.isEmpty)) (fun d u => d.advance u.id)

/-! ### Issue conditions (R142, R155-R158, R160) -/

/-- An update of the stripe is in flight. -/
def Dev.stripeBusy (d : Dev) (lz s : Nat) : Bool :=
  d.bench.updates.any (fun u => u.lzone == lz && u.lstripe == s)

/-- The line-intent log has room for a NONE line. -/
def Dev.lineIntentRoom (d : Dev) (region line : Nat) : Bool :=
  d.sys.lineIntent.contains (region, line) || decide (d.sys.lineIntent.length < 4096)

/-- The intent of an update is durable before its first commit (R155, R158), and a zone with a tile out is
marked in the outage map (07 R283). -/
def Dev.markIntent (d : Dev) (t : StripeCtx) (line : Nat) (full : Bool) : Dev :=
  let pz := zPz t.e
  let d := d.markOutage pz
  match t.r.prot with
  | .none =>
    if d.sys.lineIntent.contains (t.region, line) then d
    else d.sysPut (.lineIntent t.region line true)
  | .parity => d.mark pz full
  | .mirror => d.mark pz false

def Dev.intentOk (d : Dev) (t : StripeCtx) (line : Nat) : Bool :=
  match t.r.prot with
  | .none => d.lineIntentRoom t.region line
  | _ => d.canMark (zPz t.e)

/-- A staging entry waits for a bind of its zone: the zone joins the list (06 R260, R261). -/
def Dev.wantBind (d : Dev) (lz : Nat) : Dev :=
  if d.zt.binds.contains lz then d else { d with zt := { d.zt with binds := d.zt.binds ++ [lz] } }

/-- The move in progress of a zone. -/
def Dev.runOf (d : Dev) (lz : Nat) : Option MoveRun := d.zt.runs.find? (fun m => m.lzone == lz && !m.switched)

def Dev.setRun (d : Dev) (m : MoveRun) : Dev :=
  { d with zt := { d.zt with runs := d.zt.runs.map (fun x => if x.target = m.target then m else x) } }

/-- A write issued to a stripe that the zone's move has copied marks the stripe for copying again (06 R240). -/
def Dev.markCopied (d : Dev) (lz s : Nat) : Dev :=
  match d.runOf lz with
  | some m => if s < m.next ∧ m.marks.contains s = false then d.setRun { m with marks := m.marks ++ [s] } else d
  | none => d

/-- A drain or an orderly shut-down programs every Bench entry, whatever background work holds its zone (R162, 07 R285). -/
def Dev.mustProgram (d : Dev) : Bool := d.bench.draining || d.life.shutting.isSome

/-- The last copy pass of the zone's move holds its entries at issue (06 R240), but in a drain and a shut-down. -/
def Dev.moveHolds (d : Dev) (lz : Nat) : Bool :=
  match d.runOf lz with
  | some m => m.last && !d.mustProgram
  | none => false

/-- Restore is at a zone, some of whose stripes it has handled: the zone's entries wait at issue. DESIGN CHOICE: the
manual does not say how a write meets a zone that restore is in (log entry 132); a drain and a shut-down hold nothing. -/
def Dev.restoreHolds (d : Dev) (pz : Nat) : Bool :=
  !d.mustProgram && (upTo 16).any (fun i => decide (0 < (d.lane1 i).stripe) && decide ((d.lane1 i).cursor = pz))

/-- A gap move of the zone is due and can come: until it has, no further update of the zone is issued. DEDUCED: R233 makes
the move when the counter reaches 64, and R31 bounds the wear of a stripe by that count (log entry 169). -/
def Dev.gapWaits (d : Dev) (lz : Nat) : Bool :=
  decide (tget 0 d.zt.updates lz = 64) && decide (zState (d.zte lz) = 1) && d.ready && !d.bench.exposed &&
  !d.mustProgram && d.mediaUp && d.journalOk

/-- Stripe updates of a zone since its last gap move, holding at 64 (06 R233, R236). -/
def Dev.countUpdate (d : Dev) (lz : Nat) : Dev :=
  { d with zt := { d.zt with updates := tmod 0 d.zt.updates lz (fun n => min 64 (n + 1)) } }

/-! ### Images of a stripe (07 R277) -/

/-- The image of a data line of a stripe, for a parity computed from data (07 R277): 0 for a BLANK line, for one whose place
has failed for good (R41), and for one that does not confirm, which is listed RECON_FAIL (R276). -/
def Dev.dataImage (d : Dev) (ans : Answers) (t : StripeCtx) (c : LineCtx) : Dev × Image :=
  if d.placeFailed c.pla then (d, 0)
  else
    let r := d.readEnd ans t c false
    match r with
    | .line _ _ img _ _ => (d.noteRead ans false t c r, img)
    | .zeros => (d, 0)
    | .poison cause last =>
      ((d.poisonEvent c cause last).enterPoison t.region c.lineNo 2 0xF, 0)

/-- Data lines of a stripe that do not confirm, and would need a record of the poisoned-line list. -/
def Dev.unreadable (d : Dev) (ans : Answers) (t : StripeCtx) (own : Pla) (cause : Nat → Nat) : Nat :=
  (t.data.filter (fun c => c.pla != own && !d.placeFailed c.pla && (match d.readEnd ans t c false with
    | .poison k _ => d.needsRecord t.region c.lineNo (cause k)
    | _ => false))).length

/-- A zero line that R219 writes: the image programmed, and the one that parity takes (R320). -/
def Dev.zeroLine (d : Dev) (t : StripeCtx) (c : LineCtx) (wseq : Nat) (full : Bool) : Dev × Image × Image :=
  (d.buildFired c, d.build c wseq (t.r.writeKey c.idx) full 0)

/-- Parity image of a stripe from its data images, with one line's new image given (R277). -/
def Dev.parityFrom (d : Dev) (ans : Answers) (t : StripeCtx) (own : Pla) (img : Image) : Dev × Image :=
  let (d, l) := t.data.foldl (fun (acc : Dev × List Image) c =>
    if c.pla = own then (acc.1, img :: acc.2)
    else
      let (d, x) := acc.1.dataImage ans t c
      (d, x :: acc.2)) (d, [])
  (d, parityOf (zProfile t.e) l)

/-! ### Committing an update -/

/-- The parity-delta entry that a PARITY line's update holds until its parity line verifies (R129): what the parity
line's program takes. -/
def deltaEntry (id : Nat) (e : Entry) (img : Image) : Entry :=
  { e with
    id := id, kind := .delta, state := .issued, data := 0, valid := 0, poison := 0, cause := sameCause 0,
    image := some img, flips := [], old := none }

/-- The update of one PARITY line needs a parity-delta entry: it has a parity line to program. -/
def deltaImage (t : StripeCtx) (full : Bool) (stages : List (List ProgSpec)) : Option Image :=
  if t.r.prot = .parity ∧ full = false then
    (stages.flatten.find? (fun s => decide (s.role = .parity) || decide (s.role = .merge))).map ProgSpec.image
  else none

/-- Issue entries as one update with its stages of programs. Lines whose every place is out are listed
RECON_FAIL (07 R284). -/
def Dev.commit (d : Dev) (t : StripeCtx) (entries : List Entry) (full : Bool)
    (stages : List (List ProgSpec)) : Dev :=
  let id := d.bench.nextId
  let delta := match entries, deltaImage t full stages with
    | e :: _, some img => [deltaEntry (id + 1) e img]
    | _, _ => []
  let u : Update :=
    { id := id, lzone := t.lz, lstripe := t.s, full := full, entries := (entries ++ delta).map Entry.id,
      wait := [], next := stages.filter (fun l => !l.isEmpty), late := [], zeros := [] }
  let d := { d with bench := { d.bench with
    nextId := id + 2, updates := d.bench.updates ++ [u], entries := d.bench.entries ++ delta } }
  let d := if u.next.isEmpty then d.each entries (fun d e =>
      match e.key with
      | .user region line => d.enterPoison region line 2 0xF
      | .sys _ _ => d) else d
  let d := entries.foldl (fun d e => (d.setEntry { e with state := .issued }).markEntry true e) d
  let d := d.each entries (fun d e =>
    match e.key with
    | .user region line => d.writeStage region line 4
    | .sys _ _ => d)
  ((d.countUpdate t.lz).markCopied t.lz t.s).advance id

/-! ### One line's update -/

/-- A NONE line whose tile is in service. -/
def Dev.issueNone (d : Dev) (t : StripeCtx) (c : LineCtx) (e : Entry) (wseq : Nat) : Dev :=
  let key := t.r.writeKey c.idx
  let (img, _) := d.build c wseq key false e.data
  let d := d.buildFired c
  d.commit t [{ e with image := some img, keyId := key }] false [d.specIf c.pla .data img]

/-- A NONE line whose tile is out: listed LANE_OFFLINE and discarded, with no intent record (R154, 07 R282). -/
def Dev.discardNone (d : Dev) (t : StripeCtx) (c : LineCtx) (e : Entry) : Dev :=
  let d := ((d.enterPoison t.region c.lineNo 5 0xF).refuseHeld t.region c.lineNo).dropClean t.r t.region c.lineNo
  { d with bench := d.bench.dropEntry e.id }.event (evLane (plaLane c.pla) 6)

/-- The cause under which a line is listed at issue because no place of it is in service: LANE_OFFLINE without
protection (07 R282), else RECON_FAIL (07 R284). -/
def Dev.lostCause (d : Dev) (t : StripeCtx) (c : LineCtx) : Option Nat :=
  if d.inService c.pla then none
  else match t.r.prot with
    | .none => some 5
    | .parity => if t.check.any (fun p => d.inService p.pla) then none else some 2
    | .mirror => if t.check.any (fun p => p.slot == c.slot && d.inService p.pla) then none else some 2

/-- The poisoned-line list has room for what the issue of a line enters in it; otherwise its entry is pinned (R175). -/
def Dev.issueRoom (d : Dev) (t : StripeCtx) (c : LineCtx) (e : Entry) (old : Option Nat) : Bool :=
  match d.lostCause t c with
  | some k => d.recordRoom (if d.needsRecord t.region c.lineNo k then 1 else 0)
  | none => d.poisonRoom e old

/-- A MIRROR line: primary, then copy; a place that is out is left out (R152, R154, R281). -/
def Dev.issueMirror (d : Dev) (t : StripeCtx) (c : LineCtx) (e : Entry) (wseq : Nat) : Dev :=
  let key := t.r.writeKey c.idx
  let (img, clean) := d.build c wseq key false e.data
  let d := d.buildFired c
  let copies := (t.check.filter (fun x => x.slot == c.slot)).flatMap (fun x =>
    d.specIf x.pla .copy (parityOf c.prof [clean]))
  d.commit t [{ e with image := some img, keyId := key }] false [d.specIf c.pla .data img, copies]

/-- The parity stage of a PARITY line's update: a merge of the difference, or a parity computed from the data
images (07 R275, R277, R145). -/
def Dev.parityStage (d : Dev) (ans : Answers) (t : StripeCtx) (c : LineCtx) (o : Old) (clean : Image) :
    Dev × List ProgSpec :=
  match t.check with
  | [] => (d, [])
  | p :: _ =>
    if d.inService p.pla = false then (d, [])
    else
      match o.image with
      | some old =>
        if d.isBlank ans p || d.placeFailed p.pla then
          let (d, img) := d.parityFrom ans t c.pla clean
          (d, d.specIf p.pla .parity img)
        else (d, (d.specIf p.pla .merge (old ^^^ clean)).map (fun x => { x with noise := noiseOf ans p.pla 1 }))
      | none =>
        let (d, img) := d.parityFrom ans t c.pla clean
        (d, d.specIf p.pla .parity img)

/-- A line of a PARITY stripe alone: data line, then parity line (R151, R154, R281). -/
def Dev.issueParity (d : Dev) (ans : Answers) (t : StripeCtx) (c : LineCtx) (e : Entry) (o : Old)
    (wseq : Nat) : Dev :=
  let key := t.r.writeKey c.idx
  let (img, clean) := d.build c wseq key false e.data
  let d := d.buildFired c
  let (d, par) := d.parityStage ans t c o clean
  d.commit t [{ e with image := some img, keyId := key }] false [d.specIf c.pla .data img, par]

/-! ### A full-stripe update (R153, 06 R219) -/

/-- The STAGED entry of each data line of a stripe, where there is one. -/
def Dev.stagedFor (d : Dev) (c : LineCtx) : Option Entry :=
  match d.bench.ofLine (.user c.region c.lineNo) with
  | [e] => if e.state = .staged then some e else none
  | _ => none

/-- The poisoned-line list has room for every STAGED entry of a stripe. -/
def Dev.stripeRoom (d : Dev) (t : StripeCtx) : Bool :=
  d.recordRoom (t.data.foldl (fun n c => match d.stagedFor c with
    | some e => n + d.recordsNeeded e none
    | none => n) 0)

/-- Every data line of the stripe stands STAGED with four valid sectors. -/
def Dev.fullReady (d : Dev) (t : StripeCtx) : Bool :=
  decide (t.r.prot ≠ .none) && !d.bench.exposed && !d.bench.draining && d.stripeRoom t &&
  !t.all.any (fun c => d.placeFailed c.pla) &&
  t.data.all (fun c => match d.stagedFor c with
    | some e => e.valid == 0xF
    | none => false)

/-- Tokens and tiles for every data line of a full-stripe update. -/
def Dev.fullStart (d : Dev) (t : StripeCtx) : Bool :=
  t.data.all (fun c => !d.tileBusy c.pla && !d.lineRead c.pla) &&
  (upTo 2).all (fun pool =>
    decide (d.tokensHeld pool + (t.data.filter (fun c => poolOf (plaLane c.pla) == pool)).length
      ≤ d.benchLimit pool))

/-- Build every data line, then its checks; lines without an entry are zeros (R219). -/
def Dev.issueFull (d : Dev) (t : StripeCtx) : Dev :=
  let (d, wseq) := d.takeWseq t.lz
  let d := d.markIntent t 0 true
  let (d, es, specs, cleans) := t.data.foldl
    (fun (acc : Dev × List Entry × List ProgSpec × List Image) c =>
      let (d, es, specs, cleans) := acc
      let key := t.r.writeKey c.idx
      match d.stagedFor c with
      | some e =>
        let d := d.listEntry e none
        let e := d.fillEntry e t.region c.lineNo ⟨0, none, none⟩
        let (img, clean) := d.build c wseq key true e.data
        let d := d.buildFired c
        (d, es ++ [{ e with image := some img, keyId := key }],
         specs ++ d.specIf c.pla .data img, cleans ++ [clean])
      | none =>
        let (d, img, clean) := d.zeroLine t c wseq true
        (d, es, specs ++ d.specIf c.pla .data img, cleans ++ [clean])) (d, [], [], [])
  let checks := match t.r.prot with
    | .parity => t.check.flatMap (fun p => d.specIf p.pla .parity (parityOf (zProfile t.e) cleans))
    | .mirror => t.check.flatMap (fun p =>
        d.specIf p.pla .copy (parityOf (zProfile t.e) [(cleans[p.slot]?).getD 0]))
    | .none => []
  d.commit t es true [specs, checks]

/-- A BLANK PARITY stripe in EXPOSED or a drain, line by line as one update (R219): zeros into each data line that no
write supplies, then the written lines, then parity. -/
def Dev.issueBlank (d : Dev) (t : StripeCtx) : Dev :=
  let (d, wseq) := d.takeWseq t.lz
  let (d, stage, zeros) := (t.data.filter (fun c => (d.stagedFor c).isNone)).foldl
    (fun (acc : Dev × List ProgSpec × List Image) c =>
      let (d, img, clean) := acc.1.zeroLine t c wseq false
      (d, acc.2.1 ++ d.specIf c.pla .data img, acc.2.2 ++ [clean])) (d, [], [])
  let id := d.bench.nextId
  let u : Update :=
    { id := id, lzone := t.lz, lstripe := t.s, full := false, entries := [], wait := [],
      next := if stage.isEmpty then [] else [stage],
      late := (t.data.filterMap d.stagedFor).map Entry.id, zeros := zeros }
  let d := { d with bench := { d.bench with nextId := id + 1, updates := d.bench.updates ++ [u] } }
  ((d.countUpdate t.lz).markCopied t.lz t.s).advance id

/-! ### Lines pinned in the Bench (R41, R751) -/

/-- The pinned entry of a line, saved (R751). -/
def Dev.savePinned (d : Dev) (region line : Nat) : Dev :=
  match (d.bench.ofLine (.user region line)).find? (fun e => decide (e.state = .pinned)) with
  | some e =>
    d.sysPut (.saved region line (some
      { region := region, line := line, data := e.data, valid := e.valid, poison := e.poison }))
  | none => d

def Dev.pinned (d : Dev) (region line : Nat) : Bool :=
  (d.bench.ofLine (.user region line)).any (fun e => decide (e.state = .pinned))

/-- Pin an entry under R41. In EXPOSED its line is saved at once, which completes the writes held for it (R751). -/
def Dev.pinEntry (d : Dev) (e : Entry) : Dev :=
  let d := d.setEntry { e with state := .pinned, image := some (e.image.getD 0) }
  match e.key with
  | .user region line =>
    if d.bench.exposed then ((d.markHeld region line true).savePinned region line).releaseHeld region line else d
  | .sys _ _ => d

/-- The sectors of a line that a dirty way holds, laid over older data: its newest copies (R141). -/
def Dev.dirtyOver (d : Dev) (region line : Nat) (data : LineData) : LineData :=
  match (d.region region).bind (fun r => d.findWay r region line) with
  | some (_, w) => overlay w.dirty w.data data
  | none => data

/-- The staging store has room for a line that is to be pinned from its payload alone, or holds the line. -/
def Dev.pinRoom (d : Dev) (region line : Nat) : Bool :=
  !(d.bench.ofLine (.user region line)).isEmpty || decide (d.stagingUsed < 8192)

/-- A line kept pinned from its payload alone: one that an update writes as zeros, or that a copy carries; a STAGED entry
of the line takes the sectors it lacks, and merges where the line is programmed next (R41). -/
def Dev.pinData (d : Dev) (region line : Nat) (data : LineData) : Dev :=
  match d.bench.ofLine (.user region line) with
  | [] => (d.addEntry { mkEntry region line .victim (d.dirtyOver region line data) 0xF 0 (sameCause 0) with
      state := EntryState.pinned, image := some 0 }).when d.bench.exposed (·.savePinned region line)
  | e :: _ =>
    if e.state = .staged then d.setEntry { e with data := overlay (~~~e.valid) data e.data, valid := 0xF } else d

/-- A STAGED entry of a line that is pinned under R41 goes into the pinned entry: the line has no program of its own until
its zone has moved (R159). -/
def Dev.mergePinned (d : Dev) (e : Entry) (c : LineCtx) : Dev :=
  match d.pinnedEntry c with
  | none => d
  | some p =>
    let p := { p with
      data := overlay e.valid e.data p.data, valid := p.valid ||| e.valid
      poison := (p.poison &&& ~~~e.valid) ||| (e.poison &&& e.valid)
      cause := (upTo 4).map (fun s => if hasSec e.valid s then lget e.cause s else lget p.cause s) }
    let d := { d with bench := d.bench.dropEntry e.id }.setEntry p
    d.when d.bench.exposed (fun d => (d.savePinned c.region c.lineNo).releaseHeld c.region c.lineNo true)

/-- The poisoned-line list has room for the lines that a parity computed from data would find unreadable (R175, R276). -/
def Dev.parityRoom (d : Dev) (ans : Answers) (t : StripeCtx) (c : LineCtx) (o : Old) : Bool :=
  match t.check with
  | p :: _ =>
    decide (t.r.prot ≠ .parity) || !d.inService p.pla || (o.image.isSome && !d.isBlank ans p && !d.placeFailed p.pla) ||
    d.recordRoom (d.unreadable ans t c.pla (fun _ => 2))
  | [] => true

/-! ### Issue of an entry (R142, R143) -/

/-- The line and tile of an entry's first program can take it. -/
def Dev.firstStart (d : Dev) (t : StripeCtx) (c : LineCtx) : Bool :=
  let first := if d.inService c.pla then [c.pla] else
    (t.check.filter (fun x => (t.r.prot == .parity || x.slot == c.slot) && d.inService x.pla)).map LineCtx.pla
  first.all (fun p => !d.tileBusy p && !d.lineRead p && d.tokenFree (plaLane p))

/-- An old value is needed: a sector is missing, or the update is a PARITY line's own (R144). -/
def needsOld (t : StripeCtx) (e : Entry) : Bool := decide (t.r.prot = .parity) || e.valid != 0xF

/-- An entry that the poisoned-line list has no room for is pinned (R175). -/
def Dev.pinForRoom (d : Dev) (e : Entry) : Dev := d.setEntry { e with state := .pinned }

/-- A PARITY stripe that reads BLANK: a full-stripe update, or line by line in EXPOSED and a drain (R219). -/
def Dev.issueOnBlank (d : Dev) (t : StripeCtx) (e : Entry) : Dev :=
  if d.poisonRoom e none = false then d.pinForRoom e
  else if d.stripeRoom t = false then d
  else if d.bench.exposed || d.bench.draining then (d.markIntent t 0 false).issueBlank t
  else if d.fullStart t then d.issueFull t
  else d

/-- The issue of one line over its old value: WSEQ, intent, images, commit (R143). -/
def Dev.issueLine (d : Dev) (ans : Answers) (t : StripeCtx) (c : LineCtx) (own : Entry) (o : Old) : Dev :=
  let e := d.fillEntry own t.region c.lineNo o
  if d.placeFailed c.pla || t.check.any (fun p => (t.r.prot == .parity || p.slot == c.slot) && d.placeFailed p.pla) then
    d.pinEntry e
  else if d.issueRoom t c own o.cause = false || !d.parityRoom ans t c o then d.pinForRoom own
  else if t.r.prot = .none ∧ d.inService c.pla = false then d.discardNone t c e
  else
    let d := (d.markIntent t c.lineNo false).listEntry own o.cause
    let (d, wseq) := d.takeWseq t.lz
    match t.r.prot with
    | .none => d.issueNone t c e wseq
    | .mirror => d.issueMirror t c e wseq
    | .parity => d.issueParity ans t c e o wseq

/-- One line's own issue: over a BLANK stripe, or over its old value. -/
def Dev.issueOne (d : Dev) (ans : Answers) (t : StripeCtx) (c : LineCtx) (e : Entry) : Dev :=
  if decide (t.r.prot = .parity) && d.stripeBlank ans t then d.issueOnBlank t e
  else
    let (d, o) := if needsOld t e then d.readOld ans t c e else (d, ⟨0, none, none⟩)
    d.issueLine ans t c e o

/-- Everything R142 asks of a user line but its old value. -/
def Dev.issueOk (d : Dev) (t : StripeCtx) (c : LineCtx) : Bool :=
  !d.zt.lost.contains t.lz && zMapped t.e && !d.wseqStuck t.lz && !d.moveHolds t.lz && !d.restoreHolds (zPz t.e) &&
  !d.gapWaits t.lz && !d.stripeBusy t.lz t.s && (t.r.prot != .parity || decide (d.stagingUsed < 8192)) &&
  d.intentOk t c.lineNo && d.firstStart t c

/-- A heap line stays in its staging entry, outside EXPOSED and a drain: one of the partly filled last stripe of its zone,
and one of a complete stripe that cannot start its full-stripe update yet (12 R432, R433). -/
def Dev.heapHeld (d : Dev) (t : StripeCtx) (e : Entry) : Bool :=
  decide (e.kind = .victim) && !d.bench.exposed && !d.bench.draining &&
  (d.obj.parts.any (fun p => p.region == t.region && p.zone == t.k && p.stripe == t.s) ||
    (decide (t.r.typ = .heap) && d.fullReady t && !d.fullStart t))

/-- Issue the entry of a user line. -/
def Dev.issueUser (d : Dev) (ans : Answers) (e : Entry) (region line : Nat) : Dev :=
  match d.region region with
  | none => { d with bench := d.bench.dropEntry e.id }
  | some r =>
    match d.lineStripe region r line with
    | none => { d with bench := d.bench.dropEntry e.id }
    | some (t, _) =>
      let d := d.checkZte t.lz
      if d.zt.lost.contains t.lz then d
      else if zMapped t.e = false then d.wantBind t.lz
      else
        match d.lineStripe region r line with
        | none => d
        | some (t, c) =>
          if d.issueOk t c = false ∨ d.heapHeld t e = true then d
          else
            let (d, e) := d.checkEntry e
            let d := d.setEntry e
            if (d.pinnedEntry c).isSome then d.mergePinned e c
            else if d.fullReady t && d.fullStart t then d.issueFull t else d.issueOne ans t c e

/-- Every tile of a zone takes a program: none is in flight in it, and its die programs fewer than 8 tiles (R37,
R49). -/
def Dev.tilesFree (d : Dev) (pz : Nat) : Bool :=
  (upTo 16).all (fun i => d.isOut i pz || !d.tileBusy (mkPla i pz 0))

/-- The zone of a journal line takes a program. -/
def Dev.journalFree (d : Dev) : LineKey → Bool
  | .sys .journal i => d.tilesFree (8 * i / journalPlaces)
  | _ => true

/-- A SYSTEM line: staged, programmed and verified within the step (log entry 20), while a staging entry is free
(R130), and while the die of a journal line takes one more program (R37). -/
def Dev.issueSystem (d : Dev) (ans : Answers) (e : Entry) (recs : List SysRec) : Dev :=
  if d.stagingUsed < 8192 ∧ d.journalFree e.key = true then
    ({ d with nv := recs.foldl applySys d.nv, bench := d.bench.dropEntry e.id }).progJournal ans recs
  else d

/-- The journal's last line, partly filled, stays in the Bench and takes each later record until it fills (R749); a
drain, a shut-down and EXPOSED program it (R165). -/
def Dev.lineFills (d : Dev) (k : LineKey) : Bool :=
  decide (k = .sys .journal (d.jPlace / 8)) && !d.mustProgram && !d.bench.exposed

/-- Issue a STAGED entry; an entry that must wait stays as it is. -/
def Dev.issue (d : Dev) (ans : Answers) (id : Nat) : Dev :=
  match d.bench.entry id with
  | none => d
  | some e =>
    if e.state ≠ .staged then d
    else match e.kind, e.key with
      | .system recs, k => if d.lineFills k then d else d.issueSystem ans e recs
      | _, .user region line => d.issueUser ans e region line
      | _, .sys _ _ => d

/-! ### Ends of programs -/

/-- Profile of the zone a physical line lies in. -/
def Dev.profileAt (d : Dev) (p : Pla) : Profile :=
  match d.zt.entries.find? (fun x => zMapped x.2.toNat && zPz x.2.toNat == plaZone p) with
  | some x => zProfile x.2.toNat
  | none => .strong

def Dev.dropProg (d : Dev) (id : Nat) : Dev :=
  { d with bench := { d.bench with progs := d.bench.progs.filter (fun p => p.id != id) } }

/-- The entry of an update whose line lies at a physical place. -/
def Dev.entryAt (d : Dev) (u : Update) (p : Pla) : Option Entry :=
  (d.entriesOf u).find? (fun e => match d.placeOf e with
    | some (_, c) => c.pla == p
    | none => false)

/-- The entries of an update whose write a program carries: the line's own program, or that of the parity line or the
copy while the line's own place is out (R154, R173). -/
def Dev.carried (d : Dev) (u : Update) (s : ProgSpec) : List Entry :=
  match s.role with
  | .data => (d.entryAt u s.pla).toList
  | .system => []
  | _ => (d.entriesOf u).filter (fun e => match d.placeOf e with
    | some (t, c) => !d.inService c.pla && t.check.any (fun x => x.pla == s.pla && (t.r.prot == .parity || x.slot == c.slot))
    | none => false)

/-- A program has verified: its cells stand, the token is free, and its update goes on. -/
def Dev.verified (d : Dev) (p : Prog) (residue : Bool) : Dev :=
  let d := ((d.store p.spec.pla (d.progImage p.spec)).noteReset (d.cellOf p.spec.pla) residue).dropProg p.id
  let d := match d.bench.update p.update with
    | some u => d.each (d.carried u p.spec) Dev.lineVerified
    | none => d
  (d.advance p.update).pump

/-- Parity-delta entries of an update leave the Bench. -/
def Dev.dropDeltas (d : Dev) (u : Update) : Dev :=
  { d with bench := { d.bench with entries := d.bench.entries.filter (fun e =>
      !(u.entries.contains e.id && decide (e.kind = .delta))) } }

/-- The index of a data or primary line of a stripe that lies at a physical place. -/
def StripeCtx.lineAt (t : StripeCtx) (p : Pla) : Option Nat := (t.data.find? (fun c => c.pla == p)).bind LineCtx.line

/-- No spare line is free: the update's lines stay pinned in the Bench until the zone has moved, and no later program
of the update starts, since a line before it has not verified (R41, R151-R153). -/
def Dev.pinUpdate (d : Dev) (p : Prog) : Dev :=
  let d := (d.failPlace p.spec.pla).dropProg p.id
  match d.bench.update p.update with
  | some u =>
    let d := match d.stripe u.lzone u.lstripe, p.spec.role with
      | some t, .data =>
        match t.lineAt p.spec.pla with
        | some i => d.pinData t.region i 0
        | none => d
      | _, _ => d
    let d := d.each (d.entriesOf u) Dev.pinEntry
    let d := (d.setUpdate { u with wait := [], next := [], late := [] }).dropDeltas u
    (d.advance p.update).pump
  | none => d

def Dev.setProg (d : Dev) (p : Prog) : Dev :=
  d.onProgs (fun x => if x.id = p.id then p else x)

/-- A line that an update writes as zeros, and which a failure would pin, has room in the staging store. -/
def Dev.pinFits (d : Dev) (p : Prog) : Bool :=
  match (d.bench.update p.update).bind (fun u => d.stripe u.lzone u.lstripe), p.spec.role with
  | some t, .data => (t.lineAt p.spec.pla).all (fun i => d.pinRoom t.region i)
  | _, _ => true

/-- What a remapped program writes: the spare line holds no symbols that a merge could take, so it takes the merged
image itself (R39, 07 R275). -/
def Dev.unmerged (d : Dev) (s : ProgSpec) : ProgSpec :=
  if s.role = .merge then { s with role := .parity, image := d.progImage s, noise := 0 } else s

/-- A program ends outside its limit twice: remapped, or pinned, which waits for a staging entry where it needs one
(R148, R39-R41). -/
def Dev.remap (d : Dev) (p : Prog) (residue : Bool) : Dev :=
  if d.spareFree p.spec.pla then
    (d.respare p.spec.pla residue).setProg { p with attempt := 1, remapped := true, spec := d.unmerged p.spec }
  else if d.pinFits p then d.pinUpdate p
  else d

/-! ### Torn and abandoned programs (R170, 07 R280) -/

/-- Bits of a line whose program was cut off: no value that decodes (log entry 23). -/
def tornBits (now : Nat) (p : Pla) : Image :=
  let x := Config.tornImage p.toNat now
  if (decodeSensed .strong x).isNone && (decodeSensed .light x).isNone then x else blankImage

def Dev.tear (d : Dev) (p : Pla) : Dev := d.store p (tornBits d.now p)

/-- Programs in flight are cut off by loss of power. -/
def Dev.tearAll (d : Dev) : Dev :=
  let d := d.each d.bench.progs (fun d p => d.tear p.spec.pla)
  { d with bench := { d.bench with progs := [] } }

/-- Put an update's entries back to STAGED. -/
def Dev.reissue (d : Dev) (u : Update) : Dev :=
  let d := (d.entriesOf u).foldl (fun d e => (d.setEntry { e with state := .staged, image := none }).markEntry false e) d
  let d := d.dropDeltas u
  { d with bench := { d.bench with updates := d.bench.updates.filter (fun x => x.id != u.id) } }

/-- Abandon one program of a scope that goes out of service: the data line of an update of one line is issued again; of an
update of several lines the other programs go on, and its parity line or copies carry the line left out (R280, R281). -/
def Dev.abandon (d : Dev) (p : Prog) : Dev :=
  let d := (d.tear p.spec.pla).dropProg p.id
  match d.bench.update p.update with
  | none => d
  | some u =>
    if (d.entryAt u p.spec.pla).isSome ∧ u.full = false ∧ u.zeros = [] ∧ (d.entriesOf u).length = 1 then d.reissue u
    else d.advance u.id

/-- Programs that wait for a place now out of service are left out. -/
def Dev.dropWaiting (d : Dev) : Dev :=
  let keep (l : List ProgSpec) : List ProgSpec := l.filter (fun s => d.inService s.pla)
  { d with bench := { d.bench with updates := d.bench.updates.map (fun u =>
      { u with wait := keep u.wait, next := u.next.map keep }) } }

/-- Held writes whose line's place is out of service are refused. -/
def Dev.refuseOut (d : Dev) : Dev :=
  d.each ((d.bench.held.map (fun w => (w.region, w.line))).eraseDups) (fun d p =>
    match (d.region p.1).bind (fun r => d.lineStripe p.1 r p.2) with
    | some (t, c) => if zMapped t.e && !d.inService c.pla then d.refuseHeld p.1 p.2 else d
    | none => d)

/-- Programs in flight at places now out of service are abandoned, and every update goes on with what is left of it. -/
def Dev.abandonOut (d : Dev) : Dev :=
  let gone := d.bench.progs.filter (fun p => !d.inService p.spec.pla)
  let d := gone.foldl Dev.abandon d.refuseOut.dropWaiting
  d.each d.bench.updates (fun d u => d.advance u.id)

end Sys2Proof.Machine
end

