-- ==== Sys2Proof/Machine/Streams.lean ====
section
/-!
DEFINITION. Stream FIFOs (13 R478-R486, R495): positions, banks, packets, marks, flushes, Verge slots, and
the request lines that banks raise.
-/

namespace Sys2Proof.Machine

def bankBytes : Nat := 16384
def fifoBytes : Nat := 32768

/-- Streams and channels of the service writer (R478, R490). -/
def serviceStream (s : Nat) : Bool := decide (48 ≤ s) && decide (s < 64)

/-! ### Request lines (R495) -/

/-- A request on a line: up to 255 pend, further ones are lost and counted. -/
def Dev.raise (d : Dev) (line : Nat) : Dev :=
  if lget d.dma.req line < 255 then
    { d with dma := { d.dma with req := lmod d.dma.req line (· + 1) } }
  else
    { d with dma := { d.dma with reqOver := lmod d.dma.reqOver line (· + 1) } }.event (evEngine 6)

def Dev.raiseN (d : Dev) (line n : Nat) : Dev := d.each (upTo n) (fun d _ => d.raise line)

/-- Banks whose last byte lies between two positions. -/
def banksPassed (lo hi : Nat) : Nat := hi / bankBytes - lo / bankBytes

/-- Put a stream back, raising its lines for banks handed over and banks returned. -/
def Dev.putStream (d : Dev) (s : Nat) (x : Stream) (handovers : Nat) : Dev :=
  let old := d.stream s
  let d := d.setStream s x
  if serviceStream s then
    (d.raiseN (s - 48) handovers).raiseN (s - 32) (banksPassed old.free x.free)
  else d

/-! ### The writer (R480, R481) -/

/-- Bytes that the writer may fill. -/
def Stream.room (x : Stream) : Nat := (x.free / bankBytes + 2) * bankBytes - x.write

/-- Bytes from a position, modulo the two banks. -/
def fifoWrite (m : Memory) (pos : Nat) : List Byte → Memory
  | [] => m
  | b :: bs => fifoWrite (writeByte m (pos % fifoBytes) b) (pos + 1) bs

def fifoRead (m : Memory) (pos : Nat) : Nat → List Byte
  | 0 => []
  | n + 1 => readByte m (pos % fifoBytes) :: fifoRead m (pos + 1) n

/-- FIFO sectors that n bytes from a position touch. -/
def fifoSectors (pos n : Nat) : List Nat :=
  (upTo ((pos % 64 + n + 63) / 64)).map (fun i => (pos / 64 + i) % (fifoBytes / 64))

/-- Write bytes at WRITE, and hand over a bank that is full; the banks handed over. -/
def Stream.push (x : Stream) (bs : List Byte) : Stream × Nat :=
  if x.dropping then (x, 0)
  else
    let hit := fifoSectors x.write bs.length
    let w := x.write + bs.length
    let full := w / bankBytes * bankBytes
    ({ x with
        bytes := fifoWrite x.bytes x.write bs
        poison := x.poison.filter (fun s => !hit.contains s)
        write := w
        handed := max x.handed full },
      banksPassed x.write w)

/-- The packet ends: what it wrote is handed over. -/
def Stream.endPacket (x : Stream) : Stream × Nat :=
  if x.dropping then ({ x with dropping := false }, 0)
  else if x.ends.contains x.write then (x, 0)
  else ({ x with ends := x.ends ++ [x.write], handed := x.write }, bool01 (decide (x.handed < x.write)))

/-! ### The reader (R479, R482, R484) -/

/-- READ stands at a packet boundary: no packet is being read. -/
def Stream.atEnd (x : Stream) : Bool := x.ends.contains x.read

/-- Bytes before the first of the next n slots, from READ's own on, that is flagged. -/
def slotRun (x : Stream) : Nat → Nat → Nat
  | 0, k => k
  | n + 1, k =>
    if x.slots.any (fun s => s.1 == (x.read / 256 + k) % 128) then k else slotRun x n (k + 1)

/-- The next packet boundary after READ. -/
def Stream.nextEnd (x : Stream) : Option Nat := (x.ends.filter (fun e => decide (x.read < e))).min?

/-- Bytes that a DMA channel may take: handed over, before a flagged slot, and up to the packet's end when a
flush waits there. -/
def Stream.avail (x : Stream) : Nat :=
  if x.pending && x.atEnd then 0
  else
    let k := slotRun x 128 0
    let stop := if k = 0 then x.read else min x.handed ((x.read / 256 + k) * 256)
    let stop := if x.pending then min stop (x.nextEnd.getD stop) else stop
    stop - x.read

/-- FREE moves up to a position; the last packet boundary at or before it stays known. -/
def Stream.freeTo (x : Stream) (p : Nat) : Stream :=
  { x with mark := p, free := p, ends := x.ends.filter (fun e => decide (p ≤ e) || decide (e = x.read)) }

/-- READ moves past n bytes; in FLUSHABLE mode MARK and FREE follow it. -/
def Stream.take (x : Stream) (n : Nat) : Stream :=
  let x := { x with read := x.read + n }
  if x.mode then x.freeTo x.read else x

/-- Offset of the first poisoned byte among the next n. -/
def Stream.firstBad (x : Stream) (n : Nat) : Option Nat :=
  (upTo n).find? (fun i => x.poison.contains ((x.read + i) % fifoBytes / 64))

/-- Mark, rewind, release up to READ. -/
def Stream.setMark (x : Stream) : Stream := { x with mark := x.read }
def Stream.rewind (x : Stream) : Stream := { x with read := x.mark }
def Stream.release (x : Stream) : Stream := x.freeTo x.read

/-! ### Flush (R485, R486) -/

/-- A flush takes effect. -/
def Stream.flushNow (x : Stream) : Stream :=
  { x with
    dropping := x.dropping || !x.ends.contains x.write
    read := x.write, mark := x.write, free := x.write, handed := x.write
    pending := false, slots := [], ends := [x.write] }

def Dev.flushNow (d : Dev) (s : Nat) : Dev :=
  let x := d.stream s
  d.putStream s x.flushNow (bool01 (decide (x.handed < x.write)))

/-- A flush request. -/
def Dev.flush (d : Dev) (s : Nat) : Dev :=
  let x := d.stream s
  if x.mode = false then d.setStream s { x with err := true }
  else if x.atEnd then d.flushNow s
  else d.setStream s { x with pending := true }

/-- The stream holds bytes or has a writer or reader attached. -/
def Stream.inUse (x : Stream) : Bool := decide (x.free < x.write) || x.writer.isSome || x.reader.isSome

/-- A write of STREAM_CFG (R486, R500). -/
def Dev.writeStreamCfg (d : Dev) (s v : Nat) : Dev :=
  let x := d.stream s
  if x.mode ≠ v.testBit 1 ∧ x.inUse = true then d.setStream s { x with err := true }
  else d.setStream s { x with en := v.testBit 0, mode := v.testBit 1 }

/-! ### Verge slots (R483) -/

/-- Reserve the next 256 bytes for the line that a read fetches: the reader stalls there until the line is
in the slot. DESIGN CHOICE: the line counts as written from its request on: WRITE advances, banks are handed over and its
bytes are counted then, and the slot stands DENIED until the line arrives (log entry 181). -/
def Stream.reserve (x : Stream) (read : Nat) : Stream × Nat :=
  let slot := x.write / 256 % 128
  let (x, n) := x.push (List.replicate 256 0)
  ({ x with slots := x.slots ++ [(slot, .denied, read)] }, n)

/-- The position that a slot of the FIFO holds at present. -/
def slotBytes (m : Memory) (slot : Nat) (data : LineData) : Memory := fifoWrite m (256 * slot) (lineBytes data)

/-- Verge data enters the slots of a read, unconfirmed. -/
def Stream.vergeIn (read : Nat) (data : LineData) (x : Stream) : Stream :=
  x.slots.foldl (fun x s =>
    if s.2.2 = read then { x with bytes := slotBytes x.bytes s.1 data } else x)
    { x with slots := x.slots.map (fun s => if s.2.2 = read then (s.1, .unconfirmed, read) else s) }

/-- CONFIRM clears the flags of a read's unconfirmed slots. -/
def Stream.confirm (read : Nat) (x : Stream) : Stream :=
  { x with slots := x.slots.filter (fun s => !(s.2.2 == read && decide (s.2.1 = SlotFlag.unconfirmed))) }

/-- DENY marks them. -/
def Stream.deny (read : Nat) (x : Stream) : Stream :=
  { x with slots := x.slots.map (fun s =>
      if s.2.2 = read ∧ s.2.1 = .unconfirmed then (s.1, .denied, read) else s) }

/-- The settled line is written into the read's slots. -/
def Stream.settle (read : Nat) (data : LineData) (poison : BitVec 4) (x : Stream) : Stream :=
  let mine := x.slots.filter (fun s => s.2.2 == read)
  mine.foldl (fun x s =>
    { x with
      bytes := slotBytes x.bytes s.1 data
      poison := x.poison.filter (fun p => decide (p / 4 ≠ s.1)) ++ (secs poison).map (fun k => 4 * s.1 + k) })
    { x with slots := x.slots.filter (fun s => s.2.2 != read) }

/-- Every stream, changed. -/
def Dev.onStreams (d : Dev) (f : Stream → Stream) : Dev :=
  { d with dma := { d.dma with streams := d.dma.streams.map f } }

/-- A read has an unconfirmed slot in some stream. -/
def Dev.slotVerge (d : Dev) (read : Nat) : Bool :=
  d.dma.streams.any (fun x => x.slots.any (fun s => s.2.2 == read && decide (s.2.1 = SlotFlag.unconfirmed)))

end Sys2Proof.Machine
end

