-- ==== Sys2Proof/Machine/Jobs.lean ====
section
/-!
DEFINITION. Commands in the object engines (03 R119-R121, 13 R464-R489): the input streams, the mark, the outputs held in
the speculation window, and what CONFIRM, DENY and a settled line do to them. Their turns are under Engines.
-/

namespace Sys2Proof.Machine

/-! ### Engine state (R467, R487) -/

/-- The engine's state before the first byte of a digest (0: byte compare). -/
def sumStart (dig : Nat) : EngSum :=
  { crc := if dig = 1 then 0xFFFFFFFF else 0, hash := if dig = 3 then shaStart else [], part := [], diff := none }

/-- First offset, from n on, at which two byte lists differ. -/
def differAt : Nat → List Byte → List Byte → Option Nat
  | n, a :: l, b :: m => if a = b then differAt (n + 1) l m else some n
  | _, _, _ => none

/-- Bytes from offset n on, one list for each input, taken into the engine's state. -/
def sumStep (dig : Nat) (s : EngSum) (n : Nat) (l : List (List Byte)) : EngSum :=
  let a := (l[0]?).getD []
  match dig with
  | 0 => { s with diff := s.diff.orElse (fun _ => differAt n a ((l[1]?).getD [])) }
  | 1 => { s with crc := a.foldl crc32cStep s.crc }
  | 2 => { s with crc := a.foldl crc64Step s.crc }
  | _ =>
    let m := s.part ++ a
    let blocks := m.length / 64
    { s with hash := shaChain shaConstants blocks s.hash m, part := m.drop (64 * blocks) }

/-- The digest of n bytes, as it is written. -/
def sumEnd (dig n : Nat) (s : EngSum) : List Byte :=
  match dig with
  | 1 => leBytes 4 (s.crc ^^^ 0xFFFFFFFF)
  | 2 => leBytes 8 s.crc
  | 3 => shaFinish n s.hash s.part
  | _ => []

/-! ### Commands in the engines -/

def Dev.job (d : Dev) (order : Nat) : Option EngJob := d.eng.jobs.find? (fun j => j.order == order)

def Dev.onJob (d : Dev) (order : Nat) (f : EngJob → EngJob) : Dev :=
  { d with eng := { d.eng with jobs := d.eng.jobs.map (fun j => if j.order = order then f j else j) } }

/-- Streams of firmware that carry nothing (R478). DESIGN CHOICE: the manual leaves the choice of streams to firmware; the
model takes the lowest free ones (log entry 142). -/
def Dev.freeStreams (d : Dev) : List Nat := (upTo 48).filter (fun s => !(d.stream s).inUse)

/-- A stream taken for an engine's input, REWINDABLE, its next byte at a slot's first. -/
def Stream.forEngine (x : Stream) (engine : Nat) : Stream :=
  let n := (x.write + 255) / 256 * 256
  { x with
    en := true, mode := false, write := n, read := n, mark := n, free := n, handed := n, pending := false,
    bytes := [], poison := [], slots := [], ends := [n], writer := some (32 + engine), reader := some (32 + engine),
    dropping := false }

/-- A command enters its engine, with a stream for each input. -/
def Dev.openJob (d : Dev) (order engine dig len : Nat) (ins rest outs : List (Nat × Word)) : Dev :=
  let used := d.freeStreams.zip ins
  let d := d.each used (fun d p => d.onStream p.1 (fun x => x.forEngine engine))
  let inputs := used.map (fun p =>
    ({ stream := p.1, shard := p.2.1, word := p.2.2, base := (d.stream p.1).write, loaded := 0, bad := [] } : EngInput))
  let j : EngJob :=
    { order := order, engine := engine, dig := dig, len := len, inputs := inputs, rest := rest, outs := outs, pos := 0,
      sure := 0, sum := sumStart dig, kept := sumStart dig, held := outs.map (fun _ => []), cut := none,
      macFail := false, dead := false, stalled := false }
  { d with eng := { d.eng with jobs := d.eng.jobs ++ [j] } }

/-- n bytes of each input from an offset. -/
def Dev.jobBytes (d : Dev) (j : EngJob) (off n : Nat) : List (List Byte) :=
  j.inputs.map (fun i => fifoRead (d.stream i.stream).bytes (i.base + off) n)

/-- Offset in an input of a slot of its stream. -/
def EngInput.slotAt (i : EngInput) (x : Stream) (slot : Nat) : Nat :=
  x.free + (256 * slot + fifoBytes - x.free % fifoBytes) % fifoBytes - i.base

/-- The first offset of an input whose slot is flagged so, or n. -/
def EngInput.firstSlot (i : EngInput) (x : Stream) (n : Nat) (p : SlotFlag → Bool) : Nat :=
  ((x.slots.filter (fun s => p s.2.1)).map (fun s => i.slotAt x s.1)).foldl min n

/-- Every input up to here is confirmed. -/
def Dev.jobConfirmed (d : Dev) (j : EngJob) : Nat :=
  (j.inputs.map (fun i => i.firstSlot (d.stream i.stream) j.len (fun _ => true))).foldl min j.len

/-! ### The mark (R119, R482, R488) -/

/-- Where the mark may stand: at what has been consumed, or at the line boundary up to which all is confirmed. -/
def Dev.markTo (d : Dev) (j : EngJob) : Nat := min j.pos (d.jobConfirmed j)

/-- Store the outputs held up to a mark, n bytes of each; whether a store was dead. -/
def Dev.releaseOuts (d : Dev) (x : Exec) (j : EngJob) (n : Nat) : Dev × Bool :=
  (j.outs.zip j.held).foldl (fun (acc : Dev × Bool) p =>
    let (d, dead) := acc.1.saveCmd noAnswers x (p.1.2 + BitVec.ofNat 64 j.sure) (p.2.take n)
    (d, acc.2 || dead)) (d, j.dead)

/-- Release up to m: the outputs are stored, the mark moves there, and the streams' space is free. -/
def Dev.moveMark (d : Dev) (x : Exec) (j : EngJob) (m : Nat) : Dev :=
  let n := m - j.sure
  let kept := sumStep j.dig j.kept j.sure (d.jobBytes j j.sure n)
  let d := d.each j.inputs (fun d i => d.onStream i.stream (fun s => s.freeTo (i.base + m)))
  let (d, dead) := d.releaseOuts x j n
  d.onJob j.order (fun j => { j with sure := m, kept := kept, held := j.held.map (·.drop n), dead := dead })

/-- Release what has been confirmed; a store that EXPOSED refuses ends the command (04 R167). -/
def Dev.releaseJob (d : Dev) (order : Nat) : Dev :=
  match d.job order, d.q.exec.find? (fun x => x.order == order) with
  | some j, some x =>
    let m := d.markTo j
    if m ≤ j.sure then d
    else if j.outs.any (fun o => d.saveRefused (issuer x) (o.2 + BitVec.ofNat 64 j.sure) (m - j.sure)) then
      (d.dropJob order).refuse x
    else d.moveMark x j m
  | _, _ => d

/-- Rewind to the mark: the engine's state of the mark, and no held output (R489). -/
def Dev.rewindJob (d : Dev) (j : EngJob) : Dev :=
  if j.pos ≤ j.sure then d
  else
    let d := d.each j.inputs (fun d i => d.onStream i.stream Stream.rewind)
    (d.onJob j.order (fun j =>
      { j with pos := j.sure, sum := j.kept, held := j.held.map (fun _ => []), cut := none })).count (cntEngine 3) 1

/-! ### Verge signals (R483, R489) -/

/-- Commands with a slot that a read fills. -/
def Dev.jobsOf (d : Dev) (read : Nat) : List EngJob :=
  d.eng.jobs.filter (fun j => j.inputs.any (fun i => (d.stream i.stream).slots.any (fun s => s.2.2 == read)))

/-- CONFIRM of a read's slots. -/
def Dev.confirmSlots (d : Dev) (read : Nat) : Dev :=
  let l := d.jobsOf read
  (d.onStreams (Stream.confirm read)).each l (fun d j => d.releaseJob j.order)

/-- DENY of a read's slots: every command that holds one rewinds. -/
def Dev.denySlots (d : Dev) (read : Nat) : Dev :=
  let l := d.jobsOf read
  (d.onStreams (Stream.deny read)).each l Dev.rewindJob

/-- Poison of a settled line in the inputs that a stream carries. -/
def Dev.notePoison (d : Dev) (stream read : Nat) (l : Loaded) : Dev :=
  let x := d.stream stream
  let bad (i : EngInput) : List (Nat × Nat) := (x.slots.filter (fun s => s.2.2 == read)).flatMap (fun s =>
    (secs l.poison).map (fun k => (i.slotAt x s.1 + 64 * k, 64)))
  { d with eng := { d.eng with jobs := d.eng.jobs.map (fun j =>
      if j.uses stream then
        { j with
          macFail := j.macFail || l.macFail
          inputs := j.inputs.map (fun i => if i.stream = stream then { i with bad := i.bad ++ bad i } else i) }
      else j) } }

/-- A settled line enters the slots of its read in a stream, and what was held for it is released. -/
def Dev.settleSlots (d : Dev) (stream read : Nat) (l : Loaded) : Dev :=
  let mine := d.eng.jobs.filter (fun j => j.uses stream)
  ((d.notePoison stream read l).onStream stream (Stream.settle read l.data l.poison)).each mine
    (fun d j => d.releaseJob j.order)

end Sys2Proof.Machine
end

