-- ==== Sys2Proof/Machine/ReadPath.lean ====
section
/-!
DEFINITION. The read path of host reads and prefetches (03): senses in the lane queues, passes,
reconstruction, Verge copies, answers and poison, and the take-out of a lane or die (07 R278-R280).
-/

namespace Sys2Proof.Machine

/-! ### Answers to a head (03 R125, 09 R340, R347, R348) -/

/-- HOST_ERR_CAUSE of a POISON_CAUSE. -/
def hostErrOf : Nat → Nat
  | 1 => 1
  | 2 => 1
  | 6 => 1
  | 5 => 2
  | 4 => 3
  | 3 => 4
  | _ => 0

/-- 64 B of data, or zeros with poison, to a head. -/
def Dev.returnData (d : Dev) (h : Head) (tag : Nat) (data : Sector) (poison : Bool) : Dev :=
  let d := d.send (.readData h tag (if poison then 0 else data) poison)
  ((d.count (cntHead h 2) 64).bwHead h 64 0).when poison (·.count (cntHead h 7) 1)

/-- A General Media Event for a line that a head reads as poison. -/
def Dev.readRecord (d : Dev) (h : Head) (hostErr cause region line : Nat) : Dev :=
  d.mediaRecord h .failure (d.lineDpa region line) hostErr cause region line

/-- Traces of host reads of a line. -/
def Dev.readStage (d : Dev) (region line k : Nat) : Dev := d.stageIf (traceOf 0 region line) k

/-- The lane, pass and poison of a trace record. -/
def Dev.readPathOf (d : Dev) (region line lane pass : Nat) (poison : Bool) : Dev :=
  { d with ev := { d.ev with traces := d.ev.traces.map (fun t =>
      if traceOf 0 region line t then { t with path := lane + 16 * pass, poison := poison } else t) } }

/-- One sector of a loaded line answers a read; it is no longer outstanding. -/
def Dev.answer (d : Dev) (h : Head) (tag region sector : Nat) (x : Loaded) : Dev :=
  let p := hasSec x.poison sector
  let d := d.returnData h tag (sectorOf x.data sector) p
  (d.regionCount region 2 64).when p (·.regionCount region 4 1)

def Dev.readEnds (d : Dev) (h : Head) : Dev := d.onHead h (fun x => { x with readsOut := x.readsOut - 1 })

/-! ### Lane queues (R87-R91, R94, R95) -/

def mkSense (id read : Nat) (kind : SenseKind) (recovery : Bool) (pla : Pla) : Sense :=
  { id := id, read := read, kind := kind, recovery := recovery, pla := pla, state := .queued,
    repeated := false, verge := false, waited := false, refs := [], dstamp := 0 }

def isQueued (s : Sense) : Bool := decide (s.state = .queued)

/-- RECOVERY senses started in the 2,500 ns before now. -/
def recentStarts (now : Nat) (l : Lane) : List (Nat × Nat) := l.recStarts.filter (fun p => decide (now < p.1 + 2500))

/-- RECOVERY senses of a lane that wait for its allowance: every one in the queue, once twelve have started in the
window (R91). -/
def Dev.allowanceWaiting (d : Dev) (lane : Nat) : List Sense :=
  if (recentStarts d.now (d.lane1 lane)).length < 12 then []
  else (d.lane1 lane).queue.filter (fun s => isQueued s && s.recovery)

/-- The allowance is reached while a RECOVERY sense waits for it; each wait counts once (R91). -/
def Dev.noteAllowance (d : Dev) (lane : Nat) : Dev :=
  let l := d.allowanceWaiting lane
  let fresh := l.filter (fun s => !s.waited)
  let d := if l.isEmpty then d else d.onLane lane (fun x => { x with
    allowHit := true
    queue := x.queue.map (fun s => if l.any (fun y => y.id == s.id) then { s with waited := true } else s) })
  if fresh.isEmpty then d else d.count (cntLane lane 2) fresh.length

/-- A sense enters its lane's queue; a program in its tile is suspended. -/
def Dev.enqueue (d : Dev) (s : Sense) : Dev :=
  let s := { s with id := d.lane.nextSense }
  let d := { d with lane := { d.lane with nextSense := d.lane.nextSense + 1 } }
  let d := (d.onLane (plaLane s.pla) (fun l => { l with queue := l.queue ++ [s] })).suspendTile s.pla
  if s.recovery then d.noteAllowance (plaLane s.pla) else d

/-- A sense leaves its lane's queue. -/
def Dev.dequeue (d : Dev) (s : Sense) : Dev :=
  (d.onLane (plaLane s.pla) (fun l => { l with queue := l.queue.filter (fun x => x.id != s.id) })).resumeTile
    s.pla

def Dev.senseOf (d : Dev) (lane id : Nat) : Option Sense := (d.lane1 lane).queue.find? (fun s => s.id == id)

def Dev.setSense (d : Dev) (s : Sense) : Dev :=
  d.onLane (plaLane s.pla) (fun l => { l with queue := l.queue.map (fun x => if x.id = s.id then s else x) })

/-- Senses of a read, in every lane. -/
def Dev.sensesOf (d : Dev) (read : Nat) : List Sense :=
  (upTo 16).flatMap (fun i => (d.lane1 i).queue.filter (fun s => s.read == read))

def Dev.cancelRead (d : Dev) (read : Nat) : Dev := (d.sensesOf read).foldl Dev.dequeue d

def Dev.readTx (d : Dev) (id : Nat) : Option ReadTx := d.lane.reads.find? (fun x => x.id == id)

def Dev.setRead (d : Dev) (x : ReadTx) : Dev :=
  { d with lane := { d.lane with reads := d.lane.reads.map (fun y => if y.id = x.id then x else y) } }

def Dev.dropRead (d : Dev) (id : Nat) : Dev :=
  { d with lane := { d.lane with reads := d.lane.reads.filter (fun y => y.id != id) } }

/-! ### The side buffer (05 R190-R194) -/

/-- An entry at the end of the buffer of 2,048; the oldest goes when it is full. -/
def addSide (l : List SideEntry) (e : SideEntry) : List SideEntry :=
  let l := l.filter (fun x => !(x.region == e.region && x.line == e.line))
  if l.length < 2048 then l ++ [e] else l.drop 1 ++ [e]

def Dev.putSide (d : Dev) (e : SideEntry) : Dev :=
  { d with cache := { d.cache with side := addSide d.cache.side e } }

def Dev.dropSide (d : Dev) (region line : Nat) : Dev :=
  { d with cache := (d.cache.takeSide region line).2 }

/-- Verge copies of a lane that await confirm or deny. -/
def Dev.vergeCopies (d : Dev) (lane : Nat) : Nat :=
  (d.lane.reads.filter (fun x => plaLane x.pla == lane &&
    (d.slotVerge x.id || d.cache.side.any (fun e => e.read == x.id && decide (e.state = .verge))))).length

/-- DENY of a read's Verge copies: the side buffer drops its copy, stream slots are marked (R114, R118, 13
R483). -/
def Dev.denyVerge (d : Dev) (x : ReadTx) : Dev :=
  if d.slotVerge x.id || d.cache.side.any (fun e => e.read == x.id && decide (e.state = .verge)) then
    ({ d with cache := { d.cache with
        side := d.cache.side.filter (fun e =>
          !(e.read == x.id && decide (e.state = SideState.verge))) } }.denySlots x.id).count
      (cntLane (plaLane x.pla) 9) 1
  else d

/-- CONFIRM of a read's Verge copies. -/
def Dev.confirmVerge (d : Dev) (x : ReadTx) : Dev :=
  { d with cache := { d.cache with side := d.cache.side.map (fun (e : SideEntry) =>
      if e.read = x.id ∧ e.state = SideState.verge then { e with state := .confirmed } else e) } }.confirmSlots x.id

/-! ### The end of a read (R105, R106, R122, R124-R127) -/

/-- No host read waits for the line, so that a Verge copy may be made for a prefetch or a stream. -/
def vergeOnly (x : ReadTx) : Bool :=
  !x.waiters.isEmpty && x.waiters.all (fun w => match w with
    | .host _ _ _ _ => false
    | _ => true)

/-- A prefetch waits for the line. -/
def prefetchWaits (x : ReadTx) : Bool :=
  x.waiters.any (fun w => match w with
    | .prefetch _ => true
    | _ => false)

/-- The heads whose host reads wait for a line. -/
def ReadTx.heads (x : ReadTx) : List Head :=
  [Head.a, Head.b].filter (fun h => x.waiters.any (fun w => match w with
    | .host g _ _ _ => decide (g = h)
    | _ => false))

/-- The early rewrite of a line that a host read confirms, reported to the heads that wait when it is queued (06 R255, 09
R347). -/
def Dev.earlyRead (d : Dev) (x : ReadTx) (c : LineCtx) (pass corrected : Nat) : Dev :=
  let before := earlyQueued d.zt.moves
  let d := d.earlyIf c pass corrected
  if before < earlyQueued d.zt.moves then
    d.each x.heads (fun d h => d.mediaRecord h .informational (d.lineDpa x.region x.line) 0 0 x.region x.line)
  else d

/-- The cause under which a head's host reads of a line take poison. -/
def poisonFor (x : ReadTx) (l : Loaded) (h : Head) : Option Nat :=
  x.waiters.findSome? (fun w => match w with
    | .host g _ sector _ => if g = h ∧ hasSec l.poison sector = true then some (lget l.cause sector) else none
    | _ => none)

/-- One record a line on each head that is answered with poison; a MAC failure has posted its own (09 R347). -/
def Dev.poisonRecords (d : Dev) (x : ReadTx) (l : Loaded) : Dev :=
  d.each [Head.a, Head.b] (fun d h => match poisonFor x l h with
    | some k => if k = 3 then d else d.readRecord h (hostErrOf k) k x.region x.line
    | none => d)

/-- Every waiter is answered from the settled line. -/
def Dev.answerWaiters (d : Dev) (x : ReadTx) (l : Loaded) : Dev :=
  d.each x.waiters (fun d w => match w with
    | .host h tag sector _ => (d.answer h tag x.region sector l).readEnds h
    | .prefetch _ => d
    | .stream k _ => d.settleSlots k x.id l)

/-- Where a settled line goes (R118, R126, 05 R182, R193, R194): the side buffer where a prefetch waits for it, from which
a host read that waits too promotes it into the cache unless the set takes no fill; else the cache. A line written since
its prefetch began has lost its entry in the side buffer, and leaves none: no entry stands beside a copy. -/
def Dev.placeLine (d : Dev) (x : ReadTx) (r : Region) (l : Loaded) : Dev :=
  let side (d : Dev) : Dev :=
    d.putSide { region := x.region, line := x.line, state := .confirmed, data := l.data, read := x.id }
  let held := (d.findWay r x.region x.line).isSome || !(d.bench.ofLine (.user x.region x.line)).isEmpty
  let pre := prefetchWaits x && decide (l.poison = 0)
  if pre && vergeOnly x then (if held then d.dropSide x.region x.line else side d)
  else
    let d' := (d.dropSide x.region x.line).fill r x.region x.line l.data l.poison l.cause
    if pre && !held && !d.canFill r x.region x.line then side d' else d'

/-- A read's line is confirmed, blank, or settled as poison. A load is satisfied when it is made, in the order of its agent's
program: no sector that waits had a copy then, and no program of the line starts before the read ends, so that the line
from the medium is what it takes; a store accepted since is later in the order of all (10 R358, R361, R365, R378). -/
def Dev.finishRead (d : Dev) (x : ReadTx) (t : StripeCtx) (c : LineCtx) (e : ReadEnd) : Dev :=
  let d := (d.cancelRead x.id).dropRead x.id
  let lane := plaLane x.pla
  let (d, l, pass) :=
    match e with
    | .line cells m _ pass n =>
      let d := (d.earlyRead x c pass n).when (pass == 6) (·.count (cntLane lane 10) 1)
      let data := d.payload c cells m
      (d.recoverBack c t.r x.region x.line pass data, Loaded.whole data, pass)
    | .zeros => (d, Loaded.whole 0, 0)
    | .poison cause last =>
      let d := d.poisonEvent c cause last
      let d := if cause = 3 then d.lockRegion x.region else d
      (d, Loaded.mk 0 0xF (sameCause cause) (decide (cause = 3)), 0)
  let l := d.withListed x.region x.line l
  let d := d.readStage x.region x.line 6
  let d := d.placeLine x t.r l
  let d := d.readPathOf x.region x.line lane pass (l.poison != 0)
  let d := ((d.poisonRecords x l).answerWaiters x l).readStage x.region x.line 7
  d.traceEndIf (fun y => traceOf 0 x.region x.line y && decide (lget y.stages 7 ≠ notReached))

/-- The stripe and line that a read senses. -/
def Dev.readCtx (d : Dev) (x : ReadTx) : Option (StripeCtx × LineCtx) :=
  match d.region x.region with
  | some r => d.lineStripe x.region r x.line
  | none => none

/-- A read whose region has gone ends without an answer to give but poison. -/
def Dev.onRead (d : Dev) (id : Nat) (f : Dev → ReadTx → StripeCtx → LineCtx → Dev) : Dev :=
  match d.readTx id with
  | none => d
  | some x =>
    match d.readCtx x with
    | some (t, c) => f d x t c
    | none =>
      ((d.cancelRead x.id).dropRead x.id).answerWaiters x
        { data := 0, poison := 0xF, cause := sameCause 0, macFail := false }

/-! ### Reconstruction of a read (R101-R104, R107) -/

/-- Settle a read from its siblings: all confirmed, all blank, or failed. -/
def Dev.settleRecon (d : Dev) (x : ReadTx) (t : StripeCtx) (c : LineCtx) : Dev :=
  let sibs := t.siblings c
  let fail (d : Dev) (x : ReadTx) : Dev :=
    let x := { x with reconBad := true }
    if x.blank || x.detour then d.finishRead x t c (.poison 2 6)
    else if x.passesBad then d.finishRead x t c (.poison 2 x.lastPass)
    else d.setRead x
  if x.recon = false then d
  else if x.reconBad then fail d x
  else if x.siblings.length = sibs.length then
    match ofVerdict c 6 (d.rebuild c true (x.siblings.map Prod.snd)).1 with
    | some e => d.finishRead x t c e
    | none => fail d x
  else if x.blanks.length = sibs.length ∧ (x.blank || x.detour) = true then d.finishRead x t c .zeros
  else if x.siblings.length + x.blanks.length = sibs.length then fail d x
  else d.setRead x

/-- Take the siblings that an update in flight supplies, and sense the others; one that is out or may not be sensed
fails the reconstruction, as does a second line of the stripe that is out where the line itself is (R52, R104, 07 R284). -/
def Dev.startRecon (d : Dev) (x : ReadTx) (t : StripeCtx) (c : LineCtx) (recovery : Bool) : Dev :=
  let sibs := t.siblings c
  let held := sibs.filterMap (fun s =>
    if d.inService s.pla then (d.flightImage s).map (fun img => (plaLane s.pla, img)) else none)
  let rest := sibs.filter (fun s => !(d.inService s.pla && (d.flightImage s).isSome))
  let x := { x with
    recon := true, blanks := [], siblings := held,
    reconBad := rest.any (fun s => !(d.inService s.pla && d.maySense s.pla)) || (!d.inService c.pla && d.twoOut t) }
  let d := d.setRead x
  if x.reconBad then d.settleRecon x t c
  else
    (rest.foldl (fun d s => d.enqueue (mkSense 0 x.id (.sibling 1) recovery s.pla)) d).settleRecon x t c

/-! ### Passes (R98-R102) -/

/-- DSTAMP as the sensed bits hold it, where the decode failed; 0 where no bits came at all, after a timeout or a
second rejected transfer. DESIGN CHOICE: the manual names no line age for pass 2 there (log entry 127). -/
def rawDstamp (img : Image) : Nat := (metaOf (fld img.toNat 2432 160)).dstamp

/-- Pass 1 has failed: a waymark sense, and reconstruction where the protection has one. -/
def Dev.pass1Fails (d : Dev) (x : ReadTx) (t : StripeCtx) (c : LineCtx) (img : Image) : Dev :=
  let d := d.readStage x.region x.line 4
  let x := { x with lastPass := 1, burst := true }
  let d := d.setRead x
  let up := d.inService c.pla
  let x := { x with passesBad := !up }
  let d := d.setRead x
  let d :=
    if up then d.enqueue { mkSense 0 x.id .waymark true c.pla with dstamp := rawDstamp img } else d
  if t.r.prot = .none then
    (if up then d else d.finishRead x t c (.poison 5 1))
  else d.startRecon x t c true

/-- No pass of a read's own line is left. -/
def Dev.ownPasses (d : Dev) (x : ReadTx) (p : Pla) : List Sense :=
  (d.sensesOf x.id).filter (fun s => s.pla == p)

/-- The line's own passes have all failed, or its scope has gone out of service: the read is left to its
reconstruction, with the last pass made (R124, R127). -/
def Dev.passesFail (d : Dev) (x : ReadTx) (t : StripeCtx) (c : LineCtx) : Dev :=
  let x := { x with passesBad := true }
  if t.r.prot = .none then
    d.finishRead x t c (if d.inService c.pla then .poison 1 x.lastPass else .poison 5 x.lastPass)
  else if x.reconBad then d.finishRead x t c (.poison 2 x.lastPass)
  else d.setRead x

/-- A line sensed BLANK in pass 1 (R107). DESIGN CHOICE: its siblings get pass 1 alone, as under R102 (log entry
123). -/
def Dev.blankRead (d : Dev) (x : ReadTx) (t : StripeCtx) (c : LineCtx) : Dev :=
  match t.r.prot with
  | .none =>
    if (d.poisonRecs x.region x.line).any (fun p => p.cause == 6) then d.finishRead x t c (.poison 6 1)
    else d.finishRead x t c .zeros
  | _ => (d.setRead { x with blank := true }).startRecon { x with blank := true } t c true

/-! ### References (R72, R73, R98, R99) -/

def natL (l : List Nat) : List Int := l.map Int.ofNat

/-- The entry of the zone that lies in a physical zone: its ZT entry, or the layout of a metadata zone; 0 where none
does. -/
def Dev.placeEntry (d : Dev) (pz : Nat) : Nat :=
  match d.boundTo pz, d.metaStamp pz with
  | some lz, _ => d.zte lz
  | none, some ms => metaEntry pz ms
  | none, none => 0

/-- Age of what lies in a physical zone. -/
def Dev.placeAge (d : Dev) (pz : Nat) : Nat := if d.placeEntry pz = 0 then 0 else d.ageOf (d.placeEntry pz)

/-- References of pass 1, predicted from the zone age. -/
def Dev.pass1Refs (d : Dev) (p : Pla) : List Nat :=
  references (d.placeAge (plaZone p)) (natL (d.nuOf (plaLane p) (plaDie p)))

/-- The age that pass 2 takes: the line age, or the zone age in a clamped zone and for a parity line (02 R71, 07
R273). -/
def Dev.pass2Age (d : Dev) (p : Pla) (parity : Bool) (dstamp : Nat) : Nat :=
  let lz := (d.boundTo (plaZone p)).getD 0
  let zage := d.placeAge (plaZone p)
  lineAge (d.ep (plaDie p)) zage dstamp (parity || (decide (32768 ≤ zage) && d.zt.clamped.contains lz))

/-- References of pass 2 from the tile's medians and the line age; passes 3 to 5 shift them. -/
def Dev.pass2Refs (d : Dev) (p : Pla) (parity : Bool) (dstamp : Nat) (medians : List Nat) : List Nat :=
  let nu := measuredNu (d.ageOf (d.placeEntry (plaZone p))) medians (d.nuOf (plaLane p) (plaDie p))
  references (d.pass2Age p parity dstamp) nu

def sweep (n : Nat) (refs : List Nat) : List Nat :=
  match n with
  | 3 => refs.map (fun r => r - 4)
  | 4 => refs.map (fun r => min 255 (r + 4))
  | 5 => refs.map (fun r => min 255 (r + 8))
  | _ => refs

/-- The line at a place is its stripe's parity line. -/
def StripeCtx.parityAt (t : StripeCtx) (p : Pla) : Bool :=
  t.check.any (fun y => y.pla == p && decide (y.role = .parity))

/-- The burst of passes 2 to 5, once the medians are there. -/
def Dev.burst (d : Dev) (s : Sense) (medians : List Nat) : Dev :=
  d.onRead s.read (fun d x t c =>
    let refs := d.pass2Refs s.pla (t.parityAt s.pla) s.dstamp medians
    let d := (d.dequeue s).when (s.pla == c.pla) (·.readStage x.region x.line 5)
    if d.inService s.pla then
      [2, 3, 4, 5].foldl (fun d n =>
        let kind := if s.pla = c.pla then SenseKind.pass n else SenseKind.sibling n
        d.enqueue { mkSense 0 x.id kind true s.pla with refs := sweep n refs }) d
    else if s.pla = c.pla then d.passesFail x t c
    else d.settleRecon { x with reconBad := true } t c)

/-- The sixteen medians: those that came, free values for the rest (02 R48). -/
def medians16 (tile : Nat) (l : List (BitVec 8)) : List Nat :=
  (upTo 16).map (fun i => ((l[i]?).getD (Config.waymarkMedian tile i)).toNat)

/-- A sense fails to confirm in its pass. A waymark sense is no pass: where it fails and its scope stays in service,
passes 2 to 5 are made on medians that are free values (DESIGN CHOICE, log entry 128). -/
def Dev.senseFails (d : Dev) (s : Sense) (img : Image) : Dev :=
  if s.kind = .waymark then d.burst s (medians16 (plaTile s.pla) [])
  else
  let d := d.dequeue s
  d.onRead s.read (fun d x t c =>
    match s.kind with
    | .pass 1 => (d.denyVerge x).pass1Fails x t c img
    | .pass n =>
      let x := { x with lastPass := max n x.lastPass }
      let d := d.setRead x
      if (d.ownPasses x c.pla).isEmpty then d.passesFail x t c else d
    | .waymark => d
    | .sibling n =>
      if x.detour && n == 1 && d.inService s.pla then
        d.enqueue { mkSense 0 x.id .waymark true s.pla with dstamp := rawDstamp img }
      else if x.detour && !(d.ownPasses x s.pla).isEmpty then d
      else d.settleRecon { x with reconBad := true } t c)

/-- A sibling confirms: its other senses are cancelled and its image counts. -/
def Dev.siblingGood (d : Dev) (x : ReadTx) (t : StripeCtx) (c : LineCtx) (p : Pla) (img : Image) : Dev :=
  let d := (d.ownPasses x p).foldl Dev.dequeue d
  d.settleRecon { x with siblings := x.siblings ++ [(plaLane p, img)] } t c

/-- A sibling's MAC check fails: no further pass of it (R110, 08 R315), and the reconstruction fails. -/
def Dev.siblingBadMac (d : Dev) (x : ReadTx) (t : StripeCtx) (c y : LineCtx) (n : Nat) : Dev :=
  let d := (d.ownPasses x y.pla).foldl Dev.dequeue d
  (d.siblingMac t.r y n).settleRecon { x with reconBad := true } t c

def Dev.siblingBlank (d : Dev) (x : ReadTx) (t : StripeCtx) (c : LineCtx) (p : Pla) : Dev :=
  if x.blank || x.detour then d.settleRecon { x with blanks := plaLane p :: x.blanks } t c
  else d.settleRecon { x with reconBad := true } t c

/-- An earlier pass of the same line has not been decoded yet. -/
def Dev.earlierPass (d : Dev) (s : Sense) : Bool :=
  let n := match s.kind with
    | .pass n => n
    | .sibling n => n
    | .waymark => 0
  (d.lane1 (plaLane s.pla)).queue.any (fun y =>
    y.read == s.read && y.pla == s.pla &&
    (match y.kind with
     | .pass m => decide (m < n)
     | .sibling m => decide (m < n)
     | .waymark => false))

/-- A decode ends on a sensed image (R108). -/
def Dev.decoded (d : Dev) (s : Sense) (img : Image) : Dev :=
  d.onRead s.read (fun d x t c =>
    match s.kind with
    | .waymark => d
    | .pass n =>
      match d.confirm c true img with
      | .good cells m k =>
        let d := if n = 1 then
            (if cells = img.setWidth 2048 then d.confirmVerge x else d.denyVerge x).readStage x.region x.line 4
          else d
        (d.dequeue s).finishRead x t c (.line cells m (goodImage c cells m) n k)
      | .macFail => ((d.dequeue s).denyVerge x).finishRead x t c (.poison 3 n)
      | .bad =>
        if n = 1 ∧ c.blank img = true then ((d.dequeue s).denyVerge x).blankRead x t c
        else d.senseFails s img
    | .sibling n =>
      match (t.siblings c).find? (fun y => y.pla == s.pla) with
      | none => d.dequeue s
      | some y =>
        match d.confirm y true img with
        | .good cells m k => ((d.dequeue s).earlyRead x y n k).siblingGood x t c s.pla (goodImage y cells m)
        | .macFail => (d.dequeue s).siblingBadMac x t c y n
        | .bad =>
          if n = 1 ∧ y.blank img = true then (d.dequeue s).siblingBlank x t c s.pla else d.senseFails s img)

/-! ### A read begins (R29, R87, R103, R122, 06 R217) -/

/-- Start the senses of a new read. A line whose program is in flight is never sensed: its entry serves it, or its
update writes it as zeros (02 R52, 06 R219). DESIGN CHOICE: a read that makes no pass carries last pass 1 (log entry
124). -/
def Dev.beginRead (d : Dev) (x : ReadTx) (t : StripeCtx) (c : LineCtx) (verge : Bool) : Dev :=
  let d := { d with lane := { d.lane with
    reads := d.lane.reads ++ [x], nextRead := d.lane.nextRead + 1 } }
  if zMapped t.e = false || d.programming c.pla then d.finishRead x t c .zeros
  else if d.inService c.pla then
    (d.enqueue { mkSense 0 x.id (.pass 1) false c.pla with verge := verge }).readStage x.region x.line 2
  else if t.r.prot = .none then d.finishRead x t c (.poison 5 1)
  else
    let x := { x with detour := true, passesBad := true }
    (d.setRead x).startRecon x t c false

def mkRead (d : Dev) (t : StripeCtx) (c : LineCtx) (w : Waiter) : ReadTx :=
  { id := d.lane.nextRead, region := t.region, line := c.lineNo, lzone := t.lz, lstripe := t.s,
    pla := c.pla, waiters := [w], detour := false, lastPass := 0, burst := false, recon := false,
    siblings := [], blanks := [], reconBad := false, blank := false, passesBad := false }

/-- Wait for a line: join the read in progress, or begin one. -/
def Dev.wantLine (d : Dev) (t : StripeCtx) (c : LineCtx) (w : Waiter) (verge : Bool) : Dev :=
  match d.lane.reads.find? (fun x => x.region == t.region && x.line == c.lineNo) with
  | some x => d.setRead { x with waiters := x.waiters ++ [w] }
  | none => d.beginRead (mkRead d t c w) t c verge

/-- A sector of the line has a copy in the Bench or the cache. -/
def Dev.anyCopy (d : Dev) (r : Region) (region line : Nat) : Bool :=
  (upTo 4).any (fun s => (d.sectorCopy r region line s).isSome)

/-- The whole line at a DPA that may enter the next 256 bytes of a REWINDABLE stream as Verge data, for a head, n bytes
being wanted (R116, 13 R483): one of which no sector has a copy, and of whose zone the entry stands (08 R306). -/
def Dev.vergeAt (d : Dev) (h : Head) (a : Nat) (s : Stream) (n : Nat) : Option (StripeCtx × LineCtx) :=
  if s.mode = false ∧ a % 256 = 0 ∧ s.write % 256 = 0 ∧ 256 ≤ n ∧ 256 ≤ s.room then
    match d.liveRange h a 256 with
    | some (id, r, off) =>
      let line := off / 256
      if d.readLocked r line || d.anyCopy r id line || (d.cache.sideConfirmed id line).isSome ||
          d.listed id line != 0 then none
      else (d.lineStripe id r line).bind (fun p =>
        if zMapped p.1.e && d.inService p.2.pla && !(d.checkZte p.1.lz).zt.lost.contains p.1.lz then some p else none)
    | none => none
  else none

/-- Ask for a line, into the next 256 bytes of a stream. A Verge copy of it in the side buffer is delivered at once (05
R194). -/
def Dev.takeSlot (d : Dev) (k : Nat) (p : StripeCtx × LineCtx) : Dev :=
  let d := d.checkZte p.1.lz
  let read := match d.lane.reads.find? (fun x => x.region == p.1.region && x.line == p.2.lineNo) with
    | some x => x.id
    | none => d.lane.nextRead
  let slot := (d.stream k).write / 256 % 128
  let (s, n) := (d.stream k).reserve read
  let d := (d.putStream k s n).wantLine p.1 p.2 (.stream k slot) true
  match d.cache.sideVerge p.1.region p.2.lineNo with
  | some (id, data) => if id = read then d.onStream k (Stream.vergeIn id data) else d
  | none => d

/-! ### Lane and die records (18 R664) -/

def scopeNum : ScopeState → Nat
  | .inService => 0
  | .detour => 1
  | .testing => 2
  | .restoring => 3
  | .dead => 4
  | .absent => 5

def diesNum (l : Lane) : Nat :=
  (upTo 8).foldl (fun n i => n + scopeNum (vget .absent l.dies i) * 8 ^ i) 0

/-- Write the lane state record of a lane. -/
def Dev.laneRecord (d : Dev) (lane : Nat) : Dev :=
  let l := d.lane1 lane
  d.cabWrite cabLane lane 14 (cabPayload
    [(0, 1, scopeNum l.lstate), (1, 1, l.cause), (4, 3, diesNum l), (8, 4, l.cursor),
     (12, 1, l.testResult), (13, 1, l.present.toNat)])

/-! ### Taking a scope out of service (07 R280) -/

/-- A physical line lies on a scope: a lane, or one die of it. -/
def onScope (lane : Nat) (die : Option Nat) (p : Pla) : Bool :=
  plaLane p == lane && (match die with
    | some k => plaDie p == k
    | none => true)

def Dev.scopeState (d : Dev) (lane : Nat) (die : Option Nat) : ScopeState :=
  match die with
  | some k => vget .absent (d.lane1 lane).dies k
  | none => (d.lane1 lane).lstate

def Dev.setScope (d : Dev) (lane : Nat) (die : Option Nat) (st : ScopeState) : Dev :=
  d.onLane lane (fun l => match die with
    | some k => { l with dies := vset l.dies k st }
    | none => { l with lstate := st })

/-- A sense that has not gone to its die is not issued: a pass of a burst is not made, and is no last pass (R127). -/
def Dev.senseDropped (d : Dev) (s : Sense) : Dev :=
  match s.kind with
  | .pass n =>
    if n = 1 then d.senseFails s 0
    else (d.dequeue s).onRead s.read (fun d x t c =>
      if (d.ownPasses x c.pla).isEmpty then d.passesFail x t c else d)
  | _ => d.senseFails s 0

/-- Senses in flight to a scope fail in their pass, in order, and those queued are not issued (07 R280). A line that has
arrived is decoded. -/
def Dev.failSenses (d : Dev) (lane : Nat) (die : Option Nat) : Dev :=
  d.each ((d.lane1 lane).queue.filter (fun s => onScope lane die s.pla)) (fun d s =>
    match d.senseOf lane s.id with
    | none => d
    | some x => match x.state with
      | .queued => d.senseDropped x
      | .started _ => d.senseFails x 0
      | .sensed _ _ => d)

/-- A self-test of a scope begins (R287); cmd: the command that waits for it. A DEAD scope stays DEAD (R302). -/
def Dev.startTest (d : Dev) (lane : Nat) (die : Option Nat) (cmd : Option (Nat × Nat)) : Dev :=
  let run : TestRun := { lane := lane, die := die, cmd := cmd, wasDead := decide (d.scopeState lane die = .dead) }
  let d := if run.wasDead then d else d.setScope lane die .testing
  { d with life := { d.life with tests := d.life.tests ++ [run] } }

/-- Take a lane or die out of service with a cause; AUTO_REPAIR tests it at once (R303). -/
def Dev.takeOut (d : Dev) (lane : Nat) (die : Option Nat) (cause : Nat) : Dev :=
  let d := (d.setScope lane die .detour).onLane lane (fun l =>
    { l with cause := cause, testResult := 0, cursor := 0, stripe := 0 })
  let d := (((d.failSenses lane die).abandonOut).laneRecord lane).milestone 7
  if d.lane.autoRepair then d.startTest lane die none else d

/-! ### Timeouts and rejects (07 R278, R279) -/

def recent (now window : Nat) (l : List (Nat × Nat)) : List (Nat × Nat) :=
  l.filter (fun p => decide (now < p.1 + window))

/-- A scope that a take-out cause can take out: in service, or on its way back. -/
def Dev.takeable (d : Dev) (lane : Nat) (die : Option Nat) : Bool :=
  decide (d.scopeState lane die = .inService) || decide (d.scopeState lane die = .restoring)

/-- A timeout of a die: four within 10 µs take it out. -/
def Dev.dieTimeout (d : Dev) (lane die : Nat) : Dev :=
  let l := recent d.now (10 * usNs) (d.lane1 lane).timeouts ++ [(d.now, die)]
  let d := (d.onLane lane (fun x => { x with timeouts := l })).event (evLane lane 8)
  if 4 ≤ (l.filter (fun p => p.2 == die)).length ∧ d.takeable lane (some die) = true then
    d.takeOut lane (some die) 1
  else d

/-- A rejected transfer: sixteen within 1 ms, over two or more dies, take the lane out. -/
def Dev.linkReject (d : Dev) (lane die : Nat) : Dev :=
  let l := recent d.now msNs (d.lane1 lane).rejects ++ [(d.now, die)]
  let d := (d.onLane lane (fun x => { x with rejects := l })).event (evLane lane 7)
  if 16 ≤ l.length ∧ 2 ≤ (l.map Prod.snd).eraseDups.length ∧ d.takeable lane none = true then
    d.takeOut lane none 2
  else d

end Sys2Proof.Machine
end

