-- ==== Sys2Proof/Machine/Time.lean ====
section
/-!
DEFINITION. Time kept for the data's sake: refresh deadlines and ZSTAMP rewrites (06 R251-R254, 02 R68, R82),
the charge for an off interval (02 R75-R82), SET_TIME and wall time (11 R413, 14 R523), drift checkpoints
(02 R78, 18 R662) and the LIFETIME record (18 R664).
-/

namespace Sys2Proof.Machine

/-! ### Deadlines (06 R251-R254) -/

/-- Deadline of a zone of a region in eq-h. -/
def Dev.deadline (d : Dev) (rclass : Nat) (light : Bool) : Nat :=
  let c :=
    if rclass = 0 then (if light then 720 else 17520)
    else 16 * (vget 0 d.refresh (rclass - 1)).toNat
  if light then min 2880 c else c

/-- A zone becomes overdue: listed, with one event. -/
def Dev.setOverdue (d : Dev) (lz : Nat) : Dev :=
  let d := d.queueMove lz .refreshOverdue
  if d.zt.overdue.contains lz then d
  else { d with zt := { d.zt with overdue := d.zt.overdue ++ [lz] } }.event (evPlatform 5)

/-- A zone below its deadline is overdue no more: the deadline has been raised (R254). -/
def Dev.notOverdue (d : Dev) (lz : Nat) : Dev :=
  { d with zt := { d.zt with overdue := d.zt.overdue.filter (· != lz) } }

/-- Check one MAPPED zone against its deadline. -/
def Dev.checkZone (d : Dev) (lz : Nat) : Dev :=
  let e := d.zte lz
  let rclass := ((d.zoneOwner lz).map (fun p => p.2.1.rclass)).getD 0
  let limit := d.deadline rclass (zLight e)
  let age := d.ageOf e
  if limit ≤ age then d.setOverdue lz
  else
    let d := d.notOverdue lz
    if limit - limit / 8 ≤ age then d.queueMove lz .refresh else d

/-- Bound zones at positions of a class. -/
def Dev.mappedAt (d : Dev) (p : Nat → Bool) : List Nat :=
  (d.zt.entries.filter (fun x => zMapped x.2.toNat && p (zoneDie (zPz x.2.toNat)))).map Prod.fst

/-- Deadline checks are of MAPPED zones; a zone in a move is not one (06 R215, R253). -/
def Dev.checkZones (d : Dev) (p : Nat → Bool) : Dev :=
  ((d.mappedAt p).filter (fun lz => decide (zState (d.zte lz) = 1))).foldl Dev.checkZone d

/-! ### ZSTAMP rewrites (02 R68, R82, 06 R225) -/

/-- E_p in steps of 16 eq-h. -/
def Dev.e16 (d : Dev) (pos : Nat) : Nat := d.ep pos / eqh 16

def zWithStamp (e stamp : Nat) : Nat := setFld e 46 12 stamp

/-- Rewrite a zone's ZSTAMP so that its age reads n steps of 16 eq-h; an age of 32,768 eq-h is a clamped one. -/
def Dev.setAge (d : Dev) (lz n : Nat) : Dev :=
  let d := { d with zt := { d.zt with
    clamped := if 2048 ≤ n ∧ d.zt.clamped.contains lz = false then lz :: d.zt.clamped else d.zt.clamped } }
  let e := d.zte lz
  let stamp := (d.e16 (zoneDie (zPz e)) + 4096 - n) % 4096
  if stamp = zStamp e then d
  else
    let e := zWithStamp e stamp
    (d.journal .stamp 0 lz 0 e).writeZte lz e

/-- The clamp: ages of 32,768 eq-h and more read 32,768 eq-h. -/
def Dev.clampZone (d : Dev) (lz : Nat) : Dev :=
  if 32768 ≤ d.ageOf (d.zte lz) then d.setAge lz 2048 else d

/-- Run a clamp that is due, when the journal takes its records (R231). -/
def Dev.runClamp (d : Dev) : Dev :=
  if d.zt.clampDue && d.journalFits d.zt.entries.length then
    let d := { d with zt := { d.zt with clampDue := false, clamped := [] } }
    (d.mappedAt (fun _ => true)).foldl Dev.clampZone d
  else d

/-- The age of a zone after a charge: what it was, plus the charge, at most 32,768 eq-h. -/
def Dev.chargeZone (old : List Nat) (d : Dev) (lz : Nat) : Dev :=
  let e := d.zte lz
  let pos := zoneDie (zPz e)
  let was := (lget old pos % 4096 + 4096 - zStamp e) % 4096
  d.setAge lz (min 2048 (was + (d.e16 pos - lget old pos)))

/-- The zone step of R82, after which deadline checks resume with a check of every zone. -/
def Dev.zoneStep (d : Dev) : Dev :=
  match d.zt.chargeFrom with
  | some old =>
    if d.journalFits d.zt.entries.length && d.zonesKnown then
      let d := (d.mappedAt (fun _ => true)).foldl (Dev.chargeZone old) d
      { d with zt := { d.zt with chargeFrom := none, deferred := false } }.checkZones (fun _ => true)
    else d
  | none => d

/-! ### The off interval (02 R75, R80, R81) -/

def offTmax : Nat := 32768

/-- Charge an amount, in 2^-24 eq-h, to every integral. -/
def Dev.charge (d : Dev) (case : BitVec 3) (amount : Nat) : Dev :=
  let old := (upTo 8).map d.e16
  { d with
    therm := { d.therm with
      epos := d.therm.epos.map (· + amount), hdie := d.therm.hdie.map (· + amount),
      offCase := case, offCharge := min 16777215 (amount / eqh 1) }
    zt := { d.zt with chargeFrom := some old, deferred := true } }

/-- The worst case. -/
def Dev.chargeWorst (d : Dev) : Dev := d.charge 2 (eqh offTmax)

/-- AF at the assumed off-state temperature. -/
def Dev.afOff (d : Dev) : Nat := arrhenius d.therm.ea.toNat (degC (signed 8 d.therm.toff.toNat))

def Dev.af125 (d : Dev) : Nat := arrhenius d.therm.ea.toNat (degC 125)

/-- The charge for W ns off: after an orderly stop at T_OFF, else the first hour at 125 °C. -/
def Dev.offAmount (d : Dev) (w : Nat) : Nat :=
  match d.life.lastStop with
  | .orderly => driftGain w d.afOff
  | _ => driftGain (min w hourNs) d.af125 + driftGain (w - hourNs) d.afOff

/-- Resolve the off interval from a SET_TIME value. -/
def Dev.resolveOff (d : Dev) (ns : Nat) : Dev :=
  match d.therm.ckWall, d.therm.readyAt with
  | some ck, some ready =>
    if d.therm.offCase = 3 ∧ d.now ≤ ready + 60 * secNs then
      (if ns < ck then d.chargeWorst else d.charge 1 (d.offAmount (ns - ck))).zoneStep
    else d
  | _, _ => d

/-! ### Cabinet records of time -/

def Dev.wallNow (d : Dev) : Nat := ((d.now : Int) + d.ev.wallOffset).toNat

/-- Part j of a drift checkpoint: five integrals of the list E_0-E_7, H_000-H_127. -/
def Dev.integrals (d : Dev) : List Nat := d.therm.epos.toList ++ d.therm.hdie.toList

def Dev.ckptPart (d : Dev) (gen j : Nat) : BitVec 384 :=
  let l := ((d.integrals).drop (5 * (j - 1))).take 5
  cabPayload ((0, 4, gen) :: (upTo 5).map (fun i => (8 + 8 * i, 8, lget l i)))

/-- GEN of the commit record. -/
def Dev.ckptGen (d : Dev) : Nat := ((d.cab.lookup cabDriftCkpt 0).map (fun p => cabFld p 0 4)).getD 0

/-- The wall time of a drift checkpoint and its valid flag: that of the latest SET_TIME; without one, while the off
interval is unresolved, the one that the last checkpoint holds (R78, R83). -/
def Dev.ckptWall (d : Dev) : Nat × Bool :=
  match d.ev.wallSet, decide (d.therm.offCase = 3), d.therm.ckWall with
  | false, true, some wall => (wall, true)
  | set, _, _ => (d.wallNow, set)

/-- Write a drift checkpoint set: parts 1 to 28, then the commit record (R662). -/
def Dev.driftCheckpoint (d : Dev) : Dev :=
  let gen := (d.ckptGen + 1) % 2 ^ 32
  let d := d.each (upTo 28) (fun d j => d.cabWrite cabDriftCkpt (j + 1) 48 (d.ckptPart gen (j + 1)))
  d.cabWrite cabDriftCkpt 0 17
    (cabPayload [(0, 4, gen), (8, 8, d.ckptWall.1), (16, 1, bool01 d.ckptWall.2)])

/-- Dirty shutdown count, MIN_SVN and first wall time of the LIFETIME record. -/
structure Lifetime where
  dirty : Nat
  svn   : Nat
  wall  : Nat
  deriving DecidableEq, Repr

/-- SVN of the image that runs on cluster 0. -/
def Dev.runningSvn (d : Dev) : Nat :=
  ((d.sec.runs.find? (fun p => p.1 == 0)).map (fun p => p.2.svn.toNat)).getD 0

def Dev.lifetime (d : Dev) : Lifetime :=
  match d.cab.lookup cabLifetime 0 with
  | some p => { dirty := cabFld p 0 4, svn := cabFld p 4 4, wall := cabFld p 8 8 }
  | none => { dirty := 0, svn := d.runningSvn, wall := 0 }

def Dev.putLifetime (d : Dev) (x : Lifetime) : Dev :=
  d.cabWrite cabLifetime 0 16 (cabPayload [(0, 4, x.dirty), (4, 4, x.svn), (8, 8, x.wall)])

/-! ### SET_TIME (11 R413, 14 R523) -/

/-- An accepted SET_TIME takes effect. -/
def Dev.applyTime (d : Dev) (ns : Nat) : Dev :=
  let d := d.resolveOff ns
  let old := d.ev.wallOffset
  let new : Int := (ns : Int) - (d.now : Int)
  let d := { d with ev := { d.ev with wallOffset := new, wallSet := true } }.event (evPlatform 16)
    (detailOf [(32, twos 64 old), (40, twos 64 new)])
  let life := d.lifetime
  let d := if life.wall = 0 then d.putLifetime { life with wall := ns } else d
  d.driftCheckpoint

/-- A SET_TIME value other than 0: applied at once, or held until memory ready. -/
def Dev.takeTime (d : Dev) (ns : Nat) : Dev :=
  if 9 ≤ stageNum d.life.stage ∧ stageNum d.life.stage ≤ 10 then d.applyTime ns
  else { d with q := { d.q with heldTime := some (BitVec.ofNat 64 ns) } }

end Sys2Proof.Machine
end

