-- ==== Sys2Proof/Machine/Background.lean ====
section
/-!
DEFINITION. Background work of the ZT block and cluster 1 (06): copies of stripes, gap moves, moves,
pre-clears, binds and their reserve, checkpoints, mark clears, the rebuild of a lost entry. One command does
one unit of work, with the medium's answers.
-/

namespace Sys2Proof.Machine

/-- Background work may run: memory ready, no shut-down, a media cluster up, tokens left (R223, 17 R636). -/
def Dev.background (d : Dev) : Bool :=
  d.ready && d.life.shutting.isNone && d.mediaUp && d.backgroundOk

/-! ### Programs of background work (04 R146, R148) -/

/-- The sense that confirms a copied line gives back what was programmed (R241); its corrected bits. -/
def copyConfirms (p : Profile) (img noise : Image) : Option Nat :=
  match decodeSensed p img, decodeSensed p (img ^^^ noise) with
  | some (a, m, _), some (b, n, k) => if a = b ∧ m = n then some k else none
  | _, _ => none

/-- A copied line confirms: it counts towards an EARLY move of its zone (R255). -/
def Dev.confirmCopy (d : Dev) (ans : Answers) (c : LineCtx) (img : Image) (pass : Nat) : Dev × Bool :=
  match copyConfirms c.prof img (noiseOf ans c.pla pass) with
  | some k => (d.earlyIf c 1 k, true)
  | none => (d, false)

/-- A copied line: programmed, sensed and confirmed; programmed once more if it fails. -/
def Dev.progCopy (d : Dev) (ans : Answers) (c : LineCtx) (img : Image) : Dev × ProgEnd :=
  match d.progLine ans c.prof c.pla img with
  | (d, .took) =>
    if img = blankImage then (d, .took)
    else match d.confirmCopy ans c img 1 with
      | (d, true) => (d, .took)
      | (d, false) =>
        match d.progLine ans c.prof c.pla img 2 with
        | (d, .took) =>
          let (d, ok) := d.confirmCopy ans c img 2
          (d, if ok then .took else .unconfirmed)
        | x => x
  | x => x

/-- Timeouts of the dies that have not answered the step's own senses (07 R278, R279, R744). -/
def Dev.countMissed (d : Dev) : Dev :=
  let l := d.lane.missed
  { d with lane := { d.lane with missed := [] } }.each l (fun d p => d.dieTimeout p.1 p.2)

/-- A line whose program found no spare line left: its data stays pinned, where the line has data and its zone is
bound (R41); with no staging entry free for it, the work waits. A line whose die has been taken out for its silence is left
out (R744). -/
def Dev.afterProg (d : Dev) (c : LineCtx) (plain : LineData) : ProgEnd → Dev × ProgEnd
  | .silent =>
    let d := d.countMissed
    (d, if d.inService c.pla then .silent else .took)
  | .noSpare =>
    if (d.boundTo (plaZone c.pla)).isNone then (d, .noSpare)
    else match c.line with
      | some i => if d.pinRoom c.region i then (d.pinData c.region i plain, .pinned) else (d, .silent)
      | none => (d, .pinned)
  | e => (d, e)

/-- A step whose own work senses and programs lines. -/
def State.afterMedia (s : State) (t : Nat) (f : Dev → Dev) : Host.Outcome State Fault Refusal :=
  s.after t (fun d => (f d).countMissed)

/-! ### Copying a stripe (R234, R239 step 3, 07 R277) -/

/-- A line to program in a copy or a rewrite: where, its image, and its payload. -/
structure Copied where
  ctx   : LineCtx
  image : Image
  plain : LineData
  deriving DecidableEq, Repr

/-- The image of a data or primary line's copy at a target: from its pinned entry, whose poisoned sectors are copied as
zeros and listed (04 R174), or read without a MAC decision. A line that reads as poison is copied as zeros and listed. -/
def Dev.copyImage (d : Dev) (ans : Answers) (t : StripeCtx) (c tgt : LineCtx) (wseq : Nat) : Dev × Copied :=
  let key := t.r.writeKey c.idx
  match d.pinnedEntry c with
  | some e =>
    let x := zeroSecs e.poison e.data
    (d.listEntry e none, ⟨tgt, d.plainImage tgt wseq key false x, x⟩)
  | none =>
    let r := d.readEnd ans t c false
    let d := d.noteRead ans false t c r
    match r with
    | .line cells m _ _ _ => (d, ⟨tgt, d.restamp tgt.pla tgt.prof cells m wseq, d.payload c cells m⟩)
    | .zeros => (d, ⟨tgt, blankImage, 0⟩)
    | .poison cause _ =>
      (d.enterPoison t.region c.lineNo cause 0xF, ⟨tgt, d.plainImage tgt wseq key false 0, 0⟩)

/-- Records that the copy of a line enters in the poisoned-line list. -/
def Dev.recordsOfCopy (d : Dev) (ans : Answers) (t : StripeCtx) (c : LineCtx) : Nat :=
  match d.pinnedEntry c with
  | some e => d.recordsNeeded e none
  | none =>
    match d.readEnd ans t c false with
    | .poison cause _ => if d.needsRecord t.region c.lineNo cause then 1 else 0
    | _ => 0

/-- The list has room for what the copy of a stripe enters in it; the copy waits otherwise (04 R175). -/
def Dev.copyRoom (d : Dev) (ans : Answers) (t : StripeCtx) : Bool :=
  d.recordRoom (t.data.foldl (fun n c => n + d.recordsOfCopy ans t c) 0)

/-- A line's place at an offset of a zone. -/
def LineCtx.movedTo (c : LineCtx) (pz off : Nat) (prof : Profile) : LineCtx :=
  { c with pla := mkPla (plaLane c.pla) pz off, prof := prof }

/-- The images of a stripe's data lines at a target offset. -/
def Dev.copyData (d : Dev) (ans : Answers) (t : StripeCtx) (pz off wseq : Nat) (prof : Profile) :
    Dev × List Copied :=
  t.data.foldl (fun (acc : Dev × List Copied) c =>
    let (d, x) := acc.1.copyImage ans t c (c.movedTo pz off prof) wseq
    (d, acc.2 ++ [x])) (d, [])

/-- The parity line or copies of rewritten data lines; those of blank lines stay blank. -/
def copyChecks (t : StripeCtx) (pz off : Nat) (prof : Profile) (data : List Copied) : List Copied :=
  t.check.map (fun c =>
    let imgs := data.map Copied.image
    let img := match t.r.prot with
      | .mirror =>
        let x := (imgs[c.slot]?).getD blankImage
        if x = blankImage then blankImage else parityOf prof [x]
      | _ =>
        if imgs.all (· == blankImage) then blankImage
        else parityOf prof (imgs.map (fun x => if x = blankImage then 0 else x))
    ⟨c.movedTo pz off prof, img, 0⟩)

/-- Program lines onto lanes in service, each sensed and confirmed, until one is not kept. -/
def Dev.progCopies (d : Dev) (ans : Answers) (l : List Copied) : Dev × ProgEnd :=
  l.foldl (fun (acc : Dev × ProgEnd) x =>
    if acc.2.kept && acc.1.inService x.ctx.pla then
      let (d, r) := acc.1.progCopy ans x.ctx x.image
      d.afterProg x.ctx x.plain r
    else acc) (d, .took)

/-- Program lines in place, each verified. -/
def Dev.progLines (d : Dev) (ans : Answers) (l : List Copied) : Dev × ProgEnd :=
  l.foldl (fun (acc : Dev × ProgEnd) x =>
    if acc.1.inService x.ctx.pla then
      let (d, r) := acc.1.progLine ans x.ctx.prof x.ctx.pla x.image
      let (d, r) := d.afterProg x.ctx x.plain r
      (d, acc.2.join r)
    else acc) (d, .took)

/-- Data lines in place, and their parity line or copies once every one of them has verified (04 R151-R153). -/
def Dev.progAll (d : Dev) (ans : Answers) (data checks : List Copied) : Dev × ProgEnd :=
  match d.progLines ans data with
  | (d, .took) => d.progLines ans checks
  | x => x

/-- Copy a stripe to an offset of a zone, onto lanes in service; how it ends. -/
def Dev.copyStripe (d : Dev) (ans : Answers) (t : StripeCtx) (pz off wseq : Nat) (prof : Profile) :
    Dev × ProgEnd :=
  let (d, data) := d.copyData ans t pz off wseq prof
  d.progCopies ans (data ++ copyChecks t pz off prof data)

/-- The logical stripe at a physical offset other than GAP. -/
def stripeAt (e off : Nat) : Nat :=
  let p := if zGap e < off then off - 1 else off
  (p + 4096 - zStart e) % 4096

/-! ### Pre-clear and retirement (R222, R246, 07 R294) -/

/-- Pre-clear a zone: its cells, PCLR_DONE, FREE_CLEAR; its WEAR may ask for a cold move (R249). -/
def Dev.preclearZone (d : Dev) (pz : Nat) (ans : Answers) : Dev :=
  let d := (d.markOutage pz).preclearCells pz ans
  ((((d.journal .pclrDone 0 pz 0 0).setPstate pz psClear).addWear pz 64).count (cntPlace 2) 1).coldTrigger

/-- Retire a zone that holds no data. -/
def Dev.retireZone (d : Dev) (pz : Nat) : Dev :=
  let d := (d.journal .retire 0 pz 0 0).setPstate pz psRetired
  let d := if d.sys.badTiles.contains pz then d.sysPut (.badTile pz false) else d
  { d with zt := { d.zt with reserve := d.zt.reserve.filter (· != pz) } }

def Dev.isFree (d : Dev) (pz : Nat) : Bool := decide (d.pstate pz ≤ psDirty) && !d.isReserve pz

/-- FREE zones at a position. -/
def Dev.freeAt (d : Dev) (p : Nat) : List Nat := ((upTo (2 ^ 18)).map (fun i => p * 2 ^ 18 + i)).filter d.isFree

/-- Journal RETIRE for the FREE zones at positions whose die has died, once the journal takes the records. -/
def Dev.retireDead (d : Dev) : Dev :=
  d.each d.zt.deadDue (fun d p =>
    let l := d.freeAt p
    if d.journalFits l.length then
      let d := d.each l Dev.retireZone
      { d with zt := { d.zt with
          deadDue := d.zt.deadDue.filter (· != p), reserve := d.zt.reserve.filter (fun z => zoneDie z != p) } }
    else d)

/-- A FILLING zone that no move has for its target, by the records read back and the moves that run. -/
def Dev.strayTarget (d : Dev) : Option Nat :=
  ((d.sys.wear.filter (fun p => decide (wState p.2.toNat = psFilling)
    && !d.zt.readBack.any (fun r => decide (r.typ = .moveStart) && decide (r.arg.toNat = p.1))
    && !d.zt.runs.any (fun m => m.target == p.1))).head?).map Prod.fst

/-- The move that a stop left a zone in: reason and target of its last MOVE_START. DESIGN CHOICE: where that record is
older than what the start has read, the target is a FILLING zone of no other move, and the reason is taken as REFRESH
(log entry 141). -/
def Dev.movingOf (d : Dev) (lz : Nat) : Option (Nat × Nat) :=
  match (d.zt.readBack.filter (fun r => decide (r.typ = .moveStart) && decide (r.zone.toNat = lz))).getLast? with
  | some r => some (r.reason.toNat, r.arg.toNat)
  | none => d.strayTarget.map (fun z => (moveRank .refresh, z))

def reasonOf : Nat → MoveReason
  | 1 => .retire
  | 2 => .early
  | 3 => .refreshOverdue
  | 4 => .refresh
  | 5 => .profile
  | 6 => .wearHot
  | _ => .wearCold

/-- Recovery of a move that a stop cut off after MOVE_START: MOVE_ABORT, then the zone MAPPED and the target
FREE_DIRTY, and the move queued again (R226, R245). Where no target is known, the record names the zone's own (log
entry 141). -/
def Dev.recoverMove (d : Dev) (lz : Nat) : Dev :=
  if d.journalOk then
    let e := d.zte lz
    match d.movingOf lz with
    | some (reason, target) =>
      let d := d.journal .moveAbort reason lz target 0
      ((d.writeZte lz (zWithState e 1)).setPstateLast target psDirty lz).queueMove lz (reasonOf reason)
    | none => (d.journal .moveAbort (moveRank .refresh) lz (zPz e) 0).writeZte lz (zWithState e 1)
  else d

/-- Zones that a stop left MOVING. -/
def Dev.leftMoving (d : Dev) : List Nat :=
  (d.zt.entries.filter (fun p => decide (zState p.2.toNat = 2) && !d.zt.runs.any (fun m => m.lzone == p.1))).map
    Prod.fst

/-- Work on the ZT that waited for the journal (R231) or for memory ready (R245). -/
def Dev.catchUp (d : Dev) : Dev :=
  let d := d.runClamp.zoneStep.retireDead
  if d.ready then d.each d.leftMoving Dev.recoverMove else d

/-- PRECLEAR of a FREE_DIRTY zone (R222), and of a RETIRED one whose lines are still to be reset (R245). PCLR_TARGET
bounds from below how many zones are kept FREE_CLEAR, so it says when the row is due and not what it does (log entry
120). -/
def Dev.preclear (d : Dev) (pz : Nat) (ans : Answers) : Dev :=
  if d.background && d.zt.resetDue.contains pz then
    let d := d.preclearCells pz ans
    { d with zt := { d.zt with resetDue := d.zt.resetDue.filter (· != pz) } }
  else if d.background && decide (d.pstate pz = psDirty) && d.zoneUsable pz && d.journalTakes .pclrDone &&
      !d.zt.runs.any (fun m => m.source == pz)
  then (d.preclearZone pz ans).catchUp
  else d

def execPreclear (t : Nat) (pzone : BitVec 21) (media : Answers) (s : State) : Host.Outcome State Fault Refusal :=
  s.afterMedia t (fun d => d.preclear pzone.toNat media)

/-! ### Gap moves (R233-R236) -/

/-- The entry after a gap move. -/
def gapNext (e : Nat) : Nat :=
  if zGap e = 0 then
    mkZte (zPz e) ((zStart e + 1) % 4096) 4096 (zStamp e) (zLight e) (zState e) (zPclr e)
  else mkZte (zPz e) (zStart e) (zGap e - 1) (zStamp e) (zLight e) (zState e) (zPclr e)

def gapSource (e : Nat) : Nat := if zGap e = 0 then 4096 else zGap e - 1

def Dev.resetUpdates (d : Dev) (lz : Nat) : Dev :=
  { d with zt := { d.zt with updates := tset 0 d.zt.updates lz 0 } }

def Dev.gapDue (d : Dev) (lz : Nat) : Bool :=
  d.background && d.journalOk && !d.bench.exposed && decide (tget 0 d.zt.updates lz = 64)
    && decide (zState (d.zte lz) = 1) && !d.zt.lost.contains lz && !d.wseqStuck lz

def Dev.gapMove (d : Dev) (lz : Nat) (ans : Answers) : Dev :=
  let d := d.checkZte lz
  let e := d.zte lz
  let s := stripeAt e (gapSource e)
  match d.stripe lz s with
  | none => d
  | some t =>
    if d.gapDue lz && !d.clearFirst && !d.stripeBusy lz s && d.tilesFree (zPz e) && d.copyRoom ans t then
      let (d, wseq) := (d.markOutage (zPz e)).takeWseq lz
      let (d, r) := d.copyStripe ans t (zPz e) (zGap e) wseq (zProfile e)
      if r.kept then
        let e' := gapNext e
        let d := ((d.journal .gap 0 lz 0 e').writeZte lz e').resetUpdates lz
        ((d.addWear (zPz e) 1).wearTriggers (zPz e) lz).count (cntPlace 0) 1
      else d
    else d

def execGapMove (t : Nat) (lzone : BitVec 21) (media : Answers) (s : State) : Host.Outcome State Fault Refusal :=
  s.afterMedia t (fun d => d.gapMove lzone.toNat media)

/-! ### Moves: start (R237-R239 steps 1 and 2) -/

/-- Moves that may run at once (R238). -/
def Dev.moveLimit (d : Dev) : Nat :=
  if d.zt.overdue.isEmpty then d.moveMax.toNat else d.moveMaxOd.toNat

/-- The queued move of a zone, when it is its turn to start. -/
def Dev.movePick (d : Dev) (lz : Nat) : Option MoveReq :=
  ((d.zt.moves.filter (fun m => !d.zt.runs.any (fun x => x.lzone == m.lzone))).take
    (d.moveLimit - d.zt.runs.length)).find? (fun m => m.lzone == lz)

/-- Zones to choose a target from: for a WEAR_HOT, REFRESH or EARLY move those whose WEAR has not saturated, while any
FREE_CLEAR zone has unsaturated WEAR, in the bind reserve or out of it (R250). -/
def Dev.targetsFor (d : Dev) (r : MoveReason) : List (Nat × Nat) :=
  let fresh (p : Nat × Nat) : Bool := decide (wWear p.2 < wearMax)
  if (r = .wearHot ∨ r = .refresh ∨ r = .early) ∧ d.freeClear.any fresh = true then d.freeTargets.filter fresh
  else d.freeTargets

/-- The target of a move (R239 step 1, R250), while more than the last 64 zones are free (07 R299). -/
def Dev.moveTarget (d : Dev) (m : MoveReq) : Option Nat :=
  if d.freeCount ≤ d.zt.reserve.length + 64 then none
  else if m.reason = .wearCold then mostWorn (d.targetsFor m.reason)
  else leastWorn (d.targetsFor m.reason)

/-- Calibration of one die from a tile's medians, at a zone age of 24 eq-h and more (02 R74). -/
def calPayload (nu : List Nat) : BitVec 384 := cabPayload ((upTo 16).map (fun i => (2 * i, 2, lget nu i)))

def Dev.calibrate (d : Dev) (zage : Nat) (medians : List Nat) (lane pos : Nat) : Dev :=
  let old := d.nuOf lane pos
  let nu := calibrateNu old (measuredNu zage medians old)
  ({ d with lane := { d.lane with nu := tset defaultNu d.lane.nu (dieKey lane pos) nu } }).cabWrite
    cabDriftCal (dieKey lane pos) 32 (calPayload nu)

def calibrates (r : MoveReason) : Bool := decide (r = .refresh) || decide (r = .refreshOverdue) || decide (r = .early)

/-- Waymark senses of the source before a refresh, each die calibrated from its own tile's medians (R239 step 2,
02 R48, R74). -/
def Dev.moveSense (d : Dev) (reason : MoveReason) (e : Nat) (medians : List (List (BitVec 8))) : Dev :=
  if calibrates reason then
    let pz := zPz e
    let age := d.ageOf e
    d.each ((upTo 16).filter (fun i => !d.isOut i pz)) (fun d i =>
      let d := (d.send (.waymarkSense i pz)).laneBytes i 16 0
      if 24 ≤ age then
        d.calibrate age (medians16 (plaTile (mkPla i pz 0)) ((medians[i]?).getD [])) i (zoneDie pz)
      else d)
  else d

/-- The move's start: MOVE_START, the zone MOVING, the target's stamp and waymarks. -/
def Dev.moveStart (d : Dev) (m : MoveReq) (t : StripeCtx) (target : Nat) (medians : List (List (BitVec 8))) : Dev :=
  let lz := m.lzone
  let d := ((d.journal .moveStart (moveRank m.reason) lz target 0).setPstate target psFilling).writeZte lz
    (zWithState t.e 2)
  let run : MoveRun :=
    { lzone := lz, reason := m.reason, reseq := m.reseq, source := zPz t.e, target := target,
      stamp := stampOf (d.ep (zoneDie target)),
      profile := if m.reason = .profile then t.r.profile else zProfile t.e,
      next := 0, marks := [], copies := 0, last := false, switched := false }
  ({ d with zt := { d.zt with runs := d.zt.runs ++ [run] } }.moveSense m.reason t.e medians).markTiles target

def Dev.dropMove (d : Dev) (lz : Nat) : Dev :=
  { d with zt := { d.zt with moves := d.zt.moves.filter (fun x => x.lzone != lz) } }

/-- A move whose turn it is starts, once it can have a target and the journal takes its record. -/
def Dev.tryStart (d : Dev) (lz : Nat) (medians : List (List (BitVec 8))) : Dev :=
  match d.movePick lz with
  | none => d
  | some m =>
    match d.stripe lz 0 with
    | none => d.dropMove lz
    | some t =>
      if zMapped t.e = false then d.dropMove lz
      else if d.journalOk && decide (zState t.e = 1) then
        match d.moveTarget m with
        | some z => d.moveStart m t z medians
        | none => d
      else d

/-! ### Moves: copies, SWITCH, the source (R239 steps 3 to 7, R240-R243) -/

/-- The stripe to copy next: in order, then those marked (R239 steps 3 and 4). -/
def MoveRun.todo (m : MoveRun) : Option Nat := if m.next < 4096 then some m.next else m.marks.head?

/-- A stripe has been copied; with 32 or fewer marked after the first pass, the last pass begins (R240). -/
def MoveRun.copied (m : MoveRun) (s : Nat) : MoveRun :=
  let m := if m.next < 4096 then { m with next := m.next + 1, copies := m.copies + 1 }
    else { m with marks := m.marks.filter (· != s), copies := m.copies + 1 }
  { m with last := m.last || (decide (m.next = 4096) && decide (m.marks.length ≤ 32)) }

def Dev.dropRun (d : Dev) (m : MoveRun) : Dev :=
  { d with zt := { d.zt with runs := d.zt.runs.filter (fun x => x.target != m.target) } }

/-- A target that fails is aborted and retired, its programmed lines reset, and the move starts again with another
target (R242); while the journal takes no record, the move stands still (R231). -/
def Dev.targetFails (d : Dev) (m : MoveRun) (ans : Answers) : Dev :=
  if d.journalFits 2 = false then d else
  let d := (d.journal .moveAbort (moveRank m.reason) m.lzone m.target 0).setPstateLast m.target psDirty m.lzone
  ((d.writeZte m.lzone (zWithState (d.zte m.lzone) 1)).retireZone m.target).preclearCells m.target ans |>.dropRun m

/-- Entries pinned under R41 whose lines the move has copied leave the Bench, and so do their records in the save area
(R751) and in the line-intent log. -/
def Dev.releasePinned (d : Dev) (region : Nat) (lo hi : Nat) : Dev :=
  let mine (e : Entry) : Bool := match e.key with
    | .user r l => r == region && decide (lo ≤ l) && decide (l < hi) && decide (e.state = EntryState.pinned)
        && e.image.isSome
    | .sys _ _ => false
  let es := d.bench.entries.filter mine
  let d := d.each es Dev.lineVerified
  let d := d.each (d.sys.saved.filter (fun p => p.region == region && decide (lo ≤ p.line) && decide (p.line < hi)))
    (fun d p => d.sysPut (.saved region p.line none))
  let d := d.each es (fun d e => match e.key with
    | .user r l => if d.sys.lineIntent.contains (r, l) then d.sysPut (.lineIntent r l false) else d
    | .sys _ _ => d)
  { d with bench := { d.bench with entries := d.bench.entries.filter (fun e => !mine e) } }

/-- The sequence record of a re-sequenced zone, whose target's lines took the first n values (21 R738). -/
def Dev.reseqZone (d : Dev) (lz n : Nat) : Dev :=
  let r := tget 0 d.sys.seq lz
  let d := d.sysPut (.seq lz (mkSeq (2 ^ 20) ((seqEpoch r + 1) % 2 ^ 24)))
  { d with zt := { d.zt with wseq := tset 0 d.zt.wseq lz (n + 1) } }

/-- The source of a move after SWITCH: pre-cleared, or retired (R239 step 7). -/
def Dev.freeSource (d : Dev) (m : MoveRun) (ans : Answers) : Dev :=
  let src := m.source
  if m.reason = .retire then
    (((d.markOutage src).preclearCells src ans).retireZone src).addWear src 64
  else d.preclearZone src ans

/-- No read or program to a physical zone is in flight. -/
def Dev.placeQuiet (d : Dev) (pz : Nat) : Bool :=
  !d.bench.progs.any (fun p => plaZone p.spec.pla == pz) && !d.lane.reads.any (fun x => plaZone x.pla == pz) &&
  !(upTo 16).any (fun i => (d.lane1 i).queue.any (fun s => plaZone s.pla == pz))

/-- The last step of a move, once its source is quiet. -/
def Dev.endSource (d : Dev) (m : MoveRun) (ans : Answers) : Dev :=
  if d.placeQuiet m.source && (decide (m.reason ≠ .retire) || d.journalOk) then (d.freeSource m ans).dropRun m else d

/-- SWITCH: the target holds the zone from here on (R239 steps 5 and 6). -/
def Dev.switch (d : Dev) (m : MoveRun) (t : StripeCtx) (ans : Answers) : Dev :=
  let lz := m.lzone
  let e' := mkZte m.target 0 4096 m.stamp (decide (m.profile = .light)) 1 false
  let d := (((d.journal .switch 0 lz m.source e').setPstate m.target psBound).setPstateLast m.source psDirty lz).writeZte
    lz e'
  let d := (d.addWear m.target 64).resetUpdates lz
  let d := d.when m.reseq (·.reseqZone lz m.copies)
  let n := zoneLines t.r.prot
  let d := d.releasePinned t.region (t.k * n) (t.k * n + n)
  let d := { d with zt := { d.zt with
    moves := d.zt.moves.filter (fun x => x.lzone != lz), overdue := d.zt.overdue.filter (· != lz) } }
  let d := if t.r.profile = m.profile then d else d.queueMove lz .profile
  let d := if d.posDead (zoneDie m.target) && decide (t.r.prot ≠ .none) then d.queueMove lz .retire else d
  let m := { m with switched := true }
  ((((d.setRun m).wearTriggers m.target lz).count (cntPlace 1) 1).endSource m ans).pump

/-- Copy one stripe of a move that runs; whether the move goes on. -/
def Dev.moveCopy (d : Dev) (m : MoveRun) (t : StripeCtx) (ans : Answers) : Dev × Bool :=
  let (d, wseq) := if m.reseq then (d, m.copies) else (d.markOutage m.target).takeWseq m.lzone
  match (d.markOutage m.target).copyStripe ans t m.target t.s wseq m.profile with
  | (d, .silent) => (d, false)
  | (d, r) => if r.kept then (d.setRun (m.copied t.s), true) else (d.targetFails m ans, false)

/-- A move goes on for n stripes at most: copies, then SWITCH. A stripe with an update in flight is waited for. -/
def moveGo (ans : Answers) (lz : Nat) : Nat → Dev → Dev
  | 0, d => d
  | n + 1, d =>
    match d.runOf lz with
    | none => d
    | some m =>
      match d.stripe lz (m.todo.getD 0), m.todo with
      | none, _ => d
      | some t, none => if d.journalOk then d.switch m t ans else d
      | some t, some s =>
        if d.stripeBusy lz s || !d.tilesFree m.target || !d.copyRoom ans t then d
        else match d.moveCopy m t ans with
          | (d, true) => moveGo ans lz n d
          | (d, false) => d

/-- One command of a move: its start, the copies it has time for, SWITCH, or the release of its source. A LOST zone
takes no move (08 R306). -/
def Dev.moveStep (d : Dev) (lz : Nat) (work : MoveInputs) (ans : Answers) : Dev :=
  match d.zt.runs.find? (fun m => m.lzone == lz && m.switched) with
  | some m => d.endSource m ans
  | none =>
    let d := d.checkZte lz
    if d.zt.lost.contains lz then d
    else moveGo ans lz work.stripes (if (d.runOf lz).isSome then d else d.tryStart lz work.medians)

def execMove (t : Nat) (lzone : BitVec 21) (work : MoveInputs) (media : Answers) (s : State) :
    Host.Outcome State Fault Refusal :=
  s.afterMedia t (fun d => if d.background && !d.clearFirst then d.moveStep lzone.toNat work media else d)

/-! ### Binds (R260, R261) -/

/-- First zone of the reserve at no DEAD position. -/
def Dev.reserveZone (d : Dev) : Option Nat := d.zt.reserve.find? (fun z => !d.posDead (zoneDie z))

def Dev.dropBind (d : Dev) (lz : Nat) : Dev :=
  { d with zt := { d.zt with binds := d.zt.binds.filter (· != lz) } }

def Dev.bindTo (d : Dev) (lz z : Nat) (r : Region) : Dev :=
  let stamp := stampOf (d.ep (zoneDie z))
  let e := mkZte z 0 4096 stamp (decide (r.profile = .light)) 1 true
  let d := (((d.markTiles z).journal .bind 0 lz 0 e).setPstate z psBound).writeZte lz e
  ({ d with zt := { d.zt with reserve := d.zt.reserve.filter (· != z) } }.dropBind lz).coldTrigger.refuseOut

/-- A waiting bind, in hardware. -/
def Dev.bindZone (d : Dev) (lz : Nat) : Dev :=
  let d := d.checkZte lz
  if d.zt.binds.contains lz && !d.zt.lost.contains lz then
    match d.zoneOwner lz, d.reserveZone with
    | none, _ => d.dropBind lz
    | some (_, r, _), some z =>
      if zMapped (d.zte lz) then d.dropBind lz
      else if d.journalOk && decide (d.tokensHeld 0 < d.benchLimit 0) && decide (d.tokensHeld 1 < d.benchLimit 1)
      then d.bindTo lz z r else d
    | some _, none => d
  else d

def execBind (t : Nat) (lzone : BitVec 21) (s : State) : Host.Outcome State Fault Refusal :=
  s.after t (fun d => if d.life.running then d.bindZone lzone.toNat else d)

def insertWear (d : Dev) (z : Nat) : List Nat → List Nat
  | [] => [z]
  | x :: l => if wWear (d.wearRec z) < wWear (d.wearRec x) then z :: x :: l else x :: insertWear d z l

/-- Fill the bind reserve, leaving 64 free zones outside it. -/
def refill : Nat → Dev → Dev
  | 0, d => d
  | n + 1, d =>
    if d.zt.reserve.length < 512 ∧ 64 + d.zt.reserve.length + 1 ≤ d.freeCount then
      match leastWorn d.freeTargets with
      | some z => refill n { d with zt := { d.zt with reserve := insertWear d z d.zt.reserve } }
      | none => d
    else d

def Dev.refillReserve (d : Dev) : Dev := refill 512 d

def execBindReserveRefill (t : Nat) (s : State) : Host.Outcome State Fault Refusal :=
  s.after t (fun d => if d.ready && d.mediaUp then d.refillReserve else d)

/-! ### Checkpoints (R228, R229, R748) -/

def takeTwo (d : Dev) : Option (Nat × Nat) :=
  match leastWorn d.freeTargets with
  | none => none
  | some a => (leastWorn (d.freeTargets.filter (fun p => p.1 != a))).map (fun b => (a, b))

/-- The pointer record; MSTAMPs at 20 to 25 (log entry 27). -/
def ztPtrPayload (c : Ckpt) : BitVec 384 :=
  cabPayload [(0, 4, c.zone0), (4, 4, c.zone1), (8, 4, c.jzone), (12, 2, c.joffset),
    (16, 4, c.jseqStart.toNat), (20, 2, c.mstamp0), (22, 2, c.mstamp1), (24, 2, c.jmstamp)]

/-- Room in the newest journal zone for an ordinary record. -/
def Dev.journalRoom (d : Dev) : Dev := if d.jUsed < journalPlaces - 1024 then d else d.journalLink

/-- Write a checkpoint into two zones and ask for its pointer record; the journal takes its own new zone first. -/
def Dev.checkpoint (d : Dev) (ans : Answers) : Dev :=
  let d := d.journalRoom
  match takeTwo d with
  | none => d
  | some (a, b) =>
    let jz := d.zt.jzones.head?
    let c : Ckpt :=
      { zone0 := a, zone1 := b, mstamp0 := d.mstampOf a, mstamp1 := d.mstampOf b,
        jzone := (jz.map JZone.pzone).getD 0, joffset := (jz.map (fun z => z.used / 8)).getD 0,
        jmstamp := (jz.map JZone.mstamp).getD 0, jseqStart := d.zt.jseqNext }
    let d := ((d.takeMeta a).takeMeta b).copyZt ans c
    let d := { d with zt := { d.zt with
      ckpts := c :: d.zt.ckpts, lastCkptAt := max d.now 1, recsSince := 0 } }
    d.cabWrite cabZtPtr 0 26 (ztPtrPayload c) .ztPtr

/-- A metadata zone is released: FREE_DIRTY; at a dead position it is then to be retired (R231, 07 R294). -/
def Dev.releaseMeta (d : Dev) (pz : Nat) : Dev :=
  let d := d.setPstate pz psDirty
  let p := zoneDie pz
  if d.posDead p && !d.zt.deadDue.contains p then { d with zt := { d.zt with deadDue := d.zt.deadDue ++ [p] } } else d

/-- Journal zones whose records all precede a sequence: those behind a zone that starts at or before it. -/
def oldJournal (s : BitVec 32) : List JZone → List JZone × List JZone
  | [] => ([], [])
  | z :: l => if seqLater z.first s then let (k, o) := oldJournal s l; (z :: k, o) else ([z], l)

/-- The pointer is durable: the checkpoint two back and the journal before the one before it go (R228 step
5). -/
def Dev.ckptDurable (d : Dev) : Dev :=
  match d.zt.ckpts with
  | _ :: prev :: old =>
    let (keep, gone) := oldJournal prev.jseqStart d.zt.jzones
    let d := d.each old (fun d c => (d.releaseMeta c.zone0).releaseMeta c.zone1)
    let d := d.each gone (fun d z => d.releaseMeta z.pzone)
    { d with zt := { d.zt with ckpts := d.zt.ckpts.take 2, jzones := keep } }.retireDead
  | _ => d

/-- The zones that a checkpoint programs take programs (02 R37). -/
def Dev.ckptTiles (d : Dev) : Bool :=
  match takeTwo d with
  | some (a, b) => d.tilesFree a && d.tilesFree b && (d.zt.jzones.head?).all (fun z => d.tilesFree z.pzone)
  | none => true

/-- A checkpoint is due: 2^22 records, 10 minutes, or none since this start. -/
def Dev.ckptDue (d : Dev) : Bool :=
  decide (2 ^ 22 ≤ d.zt.recsSince) || decide (d.zt.lastCkptAt = 0) || d.due (d.zt.lastCkptAt + 10 * minNs)

def execCheckpointTimer (t : Nat) (media : Answers) (s : State) : Host.Outcome State Fault Refusal :=
  s.afterMedia t (fun d => if d.background && d.ckptDue && d.ckptTiles then (d.checkpoint media).catchUp else d)

/-! ### Marks and lost entries (04 R156, 08 R306) -/

/-- A marked zone with no update in flight for 1 s loses its mark. -/
def Dev.intentClear (d : Dev) (pz : Nat) : Dev :=
  let busy := match d.boundTo pz with
    | some lz => d.bench.updates.any (fun u => u.lzone == lz)
    | none => false
  if d.ready && !d.bench.draining && decide (d.intent pz ≠ 0) && !busy
      && d.due (tget 0 d.zt.lastUpdate pz + secNs) then
    let d := d.sysPut (.intent pz 0)
    { d with zt := { d.zt with lastUpdate := tset 0 d.zt.lastUpdate pz 0 } }
  else d

def execIntentClear (t : Nat) (pzone : BitVec 21) (s : State) : Host.Outcome State Fault Refusal :=
  s.after t (fun d => d.intentClear pzone.toNat)

/-- A LOST entry is rebuilt from checkpoint and journal: the entry that stood, written with fresh check bits. -/
def Dev.ztRebuild (d : Dev) (lz : Nat) : Dev :=
  if d.ready && d.mediaUp && d.zt.lost.contains lz then
    { d with zt := { d.zt with lost := d.zt.lost.filter (· != lz) } }.writeZte lz (d.zte lz)
  else d

def execZtRebuild (t : Nat) (lzone : BitVec 21) (s : State) : Host.Outcome State Fault Refusal :=
  s.after t (fun d => d.ztRebuild lzone.toNat)

end Sys2Proof.Machine
end

