-- ==== Sys2Proof/Machine/Dma.lean ====
section
/-!
DEFINITION. DMA channels (13 R490-R499): a descriptor's fetch and checks, moves, comparisons, bursts, streams,
Verge lines, completion and halts. A step of a channel moves until the descriptor ends, halts, or waits for a
stream, a request or room in the Bench.
-/

namespace Sys2Proof.Machine

/-- A head's link carries requests. -/
def Dev.linked (d : Dev) (h : Head) : Bool :=
  d.life.running && (d.head h).linkUp && !(d.head h).inReset && !(d.head h).retired

/-! ### Descriptors (R491-R493) -/

structure Desc where
  op      : Nat
  fence   : Bool
  stopOn  : Bool
  paced   : Bool
  reqLine : Nat
  burst   : Nat
  length  : Nat
  src     : Word
  dst     : Word
  srcWrap : Nat
  dstWrap : Nat
  fill    : List Byte
  deriving DecidableEq, Repr

/-- Little-endian field of a descriptor. -/
def dfld (b : List Byte) (off n : Nat) : Nat := leNat ((b.drop off).take n)

def descOf (b : List Byte) : Desc :=
  { op := dfld b 0 1, fence := (dfld b 1 1).testBit 0, stopOn := (dfld b 1 1).testBit 2, paced := (dfld b 1 1).testBit 1,
    reqLine := dfld b 2 1 % 64, burst := dfld b 3 1, length := dfld b 4 4,
    src := BitVec.ofNat 64 (dfld b 8 8), dst := BitVec.ofNat 64 (dfld b 16 8),
    srcWrap := dfld b 24 1, dstWrap := dfld b 25 1, fill := (b.drop 32).take 8 }

def isStream (w : Word) : Bool := decide (mtype w = 3)

def streamNo (w : Word) : Nat := w.toNat % 64

/-- A wrap exponent that is not reserved. -/
def wrapValue (x : Nat) : Bool := decide (x = 0) || (decide (12 ≤ x) && decide (x ≤ 30))

/-- One that a buffer may have: a stream has none. -/
def wrapOk (w : Word) (x : Nat) : Bool := wrapValue x && (decide (x = 0) || !isStream w)

/-- A stream word names a service stream and keeps its reserved bits at 0. -/
def streamWordOk (w : Word) : Bool := !isStream w || (decide (addrOf w < 64) && serviceStream (streamNo w))

/-- No reserved value (R491-R493). DESIGN CHOICE: a COMPARE writes nothing, and a stream named as DST has the channel for its
writer, so such a descriptor is BAD_DESC (log entry 186). -/
def descOk (b : List Byte) : Bool :=
  let g := descOf b
  let usesSrc := decide (g.op ≠ 2)
  decide (1 ≤ g.op) && decide (g.op ≤ 3) && decide (dfld b 1 1 < 8) && decide (dfld b 2 1 < 64) &&
  !(g.paced && decide (g.burst = 0)) && decide (g.length ≠ 0) &&
  decide (dfld b 26 6 = 0) && decide (dfld b 40 8 = 0) &&
  wrapValue g.srcWrap && (!usesSrc || (streamWordOk g.src && wrapOk g.src g.srcWrap)) &&
  streamWordOk g.dst && wrapOk g.dst g.dstWrap && !(decide (g.op = 3) && isStream g.dst)

/-- Address of byte n of a buffer (R493). -/
def wrapAddr (w : Word) (x n : Nat) : Nat :=
  let a := addrOf w
  if x = 0 then a + n else a / 2 ^ x * 2 ^ x + (a + n) % 2 ^ x

/-- Bytes from byte n to the buffer's wrap. -/
def wrapLeft (w : Word) (x n : Nat) : Nat := if x = 0 then 2 ^ 32 else 2 ^ x - (addrOf w + n) % 2 ^ x

/-! ### A channel's ring (R490, R503) -/

def Chan.owner (x : Chan) : Head := headOfBit x.head

/-- Address word of the ring entry at RING_HEAD, and byte off of it. -/
def Chan.entry (x : Chan) (off : Nat) : Word := x.base + BitVec.ofNat 64 (64 * x.ringHead + off)

/-- Fetch the descriptor at RING_HEAD; none: RING_DEAD. -/
def Dev.fetchDesc (d : Dev) (x : Chan) (host : List HostBytes) (link : Option Nat) (ans : Answers) :
    Dev × Option (List Byte) :=
  let h := x.owner
  let w := x.entry 0
  let bad := match link with
    | some n => decide (n < 64)
    | none => false
  match mtype w with
  | 0 =>
    let b := d.hostBuf host (addrOf w) 64
    (d, if d.linked h && !bad && b.bad.isEmpty then some b.bytes else none)
  | 1 =>
    match d.liveRange h (addrOf w) 64 with
    | some (id, r, off) =>
      if d.readLocked r (off / 256) then (d, none)
      else
        let (d, b) := d.loadRegion ans r id off 64
        (d, if b.bad.isEmpty && !b.macFail then some b.bytes else none)
    | none => (d, none)
  | _ =>
    let (d, b) := d.scratchRead (addrOf w) 64
    (d.when (decide (d.scratchSize < addrOf w + 64)) (·.event (evEngine 5)),
     if b.bad.isEmpty then some b.bytes else none)

/-- What the device writes into bytes 48 to 63. -/
def descResult (status : Nat) (diff : Option Nat) (moved : Nat) : List Byte :=
  leBytes 4 status ++ leBytes 4 (diff.getD 0xFFFFFFFF) ++ leBytes 4 moved ++ leBytes 4 0

/-- Outcome of a store or a write-back. -/
inductive Put where
  | ok
  | wait
  | dead
  deriving DecidableEq, Repr

/-- One line of the Bench can be had (04 R133). -/
def Dev.lineRoom (d : Dev) : Bool := d.roomFor 1

/-- Write bytes of one sector at a DPA, as a channel of head h. A store of a locked line is discarded and
counted; so is one that EXPOSED refuses (08 R316, 10 R373, R374). -/
def Dev.putDpa (d : Dev) (ans : Answers) (h : Head) (a : Nat) (bs : List Byte) : Dev × Put :=
  match d.liveRange h a bs.length with
  | none => (d.lostStore h 1, .dead)
  | some (id, r, off) =>
    if d.writeLocked r (off / 256) then (d.lostStore h 1, .ok)
    else if d.writeRefused r id (off / 256) then (d.refusedStore h 1, .ok)
    else if d.lineRoom then
      (d.storeSector ans r id (off / 256) (off % 256 / 64) (off % 64) bs false, .ok)
    else (d, .wait)

/-- Write the result into the descriptor; a write-back that its ring cannot take is RING_DEAD. -/
def Dev.writeBack (d : Dev) (x : Chan) (ans : Answers) (bs : List Byte) : Dev × Put :=
  let w := x.entry 48
  match mtype w with
  | 0 => if d.linked x.owner then (d.send (.hostWrite x.owner (addrOf w) bs), .ok) else (d, .dead)
  | 1 => d.putDpa ans x.owner (addrOf w) bs
  | _ =>
    if addrOf w + 16 ≤ d.scratchSize then (d.scratchPut (addrOf w) bs, .ok) else (d.event (evEngine 5), .dead)

/-- The write-back of a halt that has no Bench line yet waits for one (04 R133). -/
def Dev.laterBack (d : Dev) (x : Chan) (bs : List Byte) : Dev :=
  match d.liveRange x.owner (addrOf (x.entry 48)) bs.length with
  | some (id, _, off) => d.addLater (.store .ring x.owner id off bs)
  | none => d

/-! ### Streams of a descriptor (R492) -/

/-- The streams a descriptor names are enabled and free in their roles. -/
def Dev.streamsFree (d : Dev) (g : Desc) : Bool :=
  let s := d.stream (streamNo g.src)
  let t := d.stream (streamNo g.dst)
  (g.op == 2 || !isStream g.src || (s.en && s.reader.isNone)) &&
  (!isStream g.dst || (t.en && t.writer.isNone))

def Dev.attach (d : Dev) (c : Nat) (g : Desc) : Dev :=
  let d :=
    if g.op ≠ 2 ∧ isStream g.src = true then d.onStream (streamNo g.src) (fun s => { s with reader := some c })
    else d
  if isStream g.dst then d.onStream (streamNo g.dst) (fun s => { s with writer := some c }) else d

/-- The descriptor's packet ends, and its streams are free again. -/
def Dev.detach (d : Dev) (c : Nat) : Dev :=
  d.each (upTo 64) (fun d s =>
    let x := d.stream s
    let d := if x.reader = some c then d.setStream s { x with reader := none } else d
    let x := d.stream s
    if x.writer = some c then
      let (y, n) := x.endPacket
      d.putStream s { y with writer := none } n
    else d)

/-! ### Ends of a descriptor (R491, R498) -/

/-- STATE when no descriptor is held: RUNNING while a ready one waits. -/
def Chan.idleState (x : Chan) : Nat := if x.en && decide (x.ringHead ≠ x.tail) then 1 else 0

def haltDetail (x : Chan) (cause src moved : Nat) : BitVec 256 :=
  detailOf [(32, cause), (36, moved), (40, src), (44, x.ringHead)]

/-- A STOP waits for the burst of the descriptor held. -/
def Chan.stopping (x : Chan) : Bool := (x.cur.map DescRun.stopping).getD false

/-- Halt: the descriptor's result, DMA_HALT_POS, one event. -/
def Dev.dmaHalt (d : Dev) (c cause : Nat) (ans : Answers) : Dev :=
  let x := d.chan c
  let moved := (x.cur.map DescRun.moved).getD 0
  let (d, cause) :=
    match x.cur with
    | some r =>
      if cause = 7 then (d, cause)
      else
        match d.writeBack x ans (descResult 3 r.diff r.moved) with
        | (d, .ok) => (d, cause)
        | (d, .wait) => (d.laterBack x (descResult 3 r.diff r.moved), cause)
        | (d, .dead) => (d, if cause = 5 then 5 else 7)
    | none => (d, cause)
  let d := d.detach c
  let d := d.setChan c { x with
    state := 2, cause := cause, haltSrc := BitVec.ofNat 32 moved, haltDone := BitVec.ofNat 32 moved,
    rebased := false, cur := none, ringHead := if x.en then x.ringHead else 0 }
  (d.event (evDma c) (haltDetail x cause moved moved)).count (cntDma c 2) 1

/-- A descriptor completes; where its result cannot be written the channel waits or halts with RING_DEAD. -/
def Dev.descDone (d : Dev) (c : Nat) (g : Desc) (r : DescRun) (ans : Answers) : Dev :=
  let x := d.chan c
  let status := if g.op = 3 ∧ r.diff.isSome then 2 else 1
  match d.writeBack x ans (descResult status r.diff r.moved) with
  | (d, .wait) => d
  | (d, .dead) => d.dmaHalt c 7 ans
  | (d, .ok) =>
    let x := { x with ringHead := (x.ringHead + 1) % x.depth, done := x.done + 1, cur := none }
    ((d.detach c).setChan c { x with state := x.idleState }).count (cntDma c 0) 1

/-- The channels of a head that is reset halt (R498, 09 R332). -/
def Dev.resetChannels (d : Dev) (h : Head) : Dev :=
  d.each (upTo 32) (fun d c =>
    let x := d.chan c
    if (x.en || x.stopping) ∧ x.state ≠ 2 ∧ x.owner = h then d.dmaHalt c 5 noAnswers else d)

/-! ### Moving bytes -/

/-- How a run of a descriptor ends within a step. -/
inductive DmaEnd where
  | waits
  | finished
  | halts (cause : Nat)
  deriving DecidableEq, Repr

/-- Bytes of a DPA within one sector, as a channel of head h reads them. -/
def Dev.readSector (d : Dev) (ans : Answers) (h : Head) (a n : Nat) : Dev × Buf :=
  let bad : Buf := { bytes := List.replicate n 0, bad := [(0, n)], macFail := false }
  if n = 0 then (d, Buf.empty)
  else
    match d.liveRange h a n with
    | none => (d, bad)
    | some (id, r, off) => if d.readLocked r (off / 256) then (d, bad) else d.loadRegion ans r id off n

/-- Up to 64 bytes from byte n of a buffer; a stream's bytes are not yet taken. -/
def Dev.readBuf (d : Dev) (h : Head) (host : List HostBytes) (ans : Answers) (w : Word) (x n k : Nat) :
    Dev × Buf :=
  let a := wrapAddr w x n
  match mtype w with
  | 0 => (d, d.hostBuf host a k)
  | 1 =>
    let k1 := min k (64 - a % 64)
    let (d, b1) := d.readSector ans h a k1
    let (d, b2) := d.readSector ans h (a + k1) (k - k1)
    (d, b1.append b2)
  | 2 =>
    let (d, b) := d.scratchRead a k
    (d.when (decide (d.scratchSize < a + k)) (·.event (evEngine 5)), b)
  | _ =>
    let s := d.stream (streamNo w)
    (d, { bytes := fifoRead s.bytes s.read k,
          bad := match s.firstBad k with
            | some o => [(o, k - o)]
            | none => [],
          macFail := false })

/-- Scratch that a store at byte n would leave: logged once, at the first byte outside (05 R200). -/
def Dev.scratchOut (d : Dev) (w : Word) (x n : Nat) : Dev :=
  if n = 0 ∨ wrapAddr w x (n - 1) < d.scratchSize then d.event (evEngine 5) else d

/-- Store up to 64 bytes from byte n of a buffer. -/
def Dev.writeBuf (d : Dev) (h : Head) (ans : Answers) (w : Word) (x n : Nat) (bs : List Byte) : Dev × Put :=
  let a := wrapAddr w x n
  match mtype w with
  | 0 => (d.send (.hostWrite h a bs), .ok)
  | 1 => d.putDpa ans h a bs
  | 2 =>
    ((d.scratchPut a bs).when (decide (d.scratchSize < a + bs.length)) (·.scratchOut w x n), .ok)
  | _ =>
    let (s, k) := (d.stream (streamNo w)).push bs
    (d.putStream (streamNo w) s k, .ok)

/-- Bytes that the next piece may hold at a destination. -/
def Dev.dstStep (d : Dev) (w : Word) (x n : Nat) : Nat :=
  if isStream w then
    let s := d.stream (streamNo w)
    if s.dropping then 64 else min (64 - s.write % 64) s.room
  else min (64 - wrapAddr w x n % 64) (wrapLeft w x n)

def Dev.srcStep (d : Dev) (w : Word) (x n : Nat) : Nat :=
  if isStream w then (d.stream (streamNo w)).avail else min 64 (wrapLeft w x n)

/-- The whole line that a COPY may take as Verge data into its REWINDABLE stream (R497). -/
def Dev.vergeLine (d : Dev) (h : Head) (g : Desc) (m quota : Nat) : Option (StripeCtx × LineCtx) :=
  if g.op = 1 ∧ mtype g.src = 1 ∧ isStream g.dst = true then
    d.vergeAt h (wrapAddr g.src g.srcWrap m) (d.stream (streamNo g.dst)) (min (g.length - m) quota)
  else none

/-- Progress of the descriptor of channel c. -/
def Dev.progress (d : Dev) (c k : Nat) (diff : Option Nat) : Dev :=
  d.onChan c (fun x => { x with cur := x.cur.map (fun r =>
    { r with moved := r.moved + k, left := r.left - k, diff := r.diff.orElse (fun _ => diff) }) })

/-- Take k bytes from the source when it is a stream. -/
def Dev.takeSrc (d : Dev) (w : Word) (k : Nat) : Dev :=
  if isStream w then d.putStream (streamNo w) ((d.stream (streamNo w)).take k) 0 else d

/-- Offset within the next k bytes at which an access to host memory fails. -/
def linkFails (d : Dev) (h : Head) (g : Desc) (link : Option Nat) (m k : Nat) : Option Nat :=
  let onHost := (g.op ≠ 2 ∧ mtype g.src = 0) ∨ mtype g.dst = 0
  if onHost then
    if d.linked h = false then some 0
    else match link with
      | some n => if 64 + m ≤ n ∧ n < 64 + m + k then some (n - 64 - m) else none
      | none => none
  else none

/-- First offset at which two byte lists differ. -/
def firstDiff : Nat → List Byte → List Byte → Option Nat
  | i, a :: as, b :: bs => if a = b then firstDiff (i + 1) as bs else some i
  | _, _, _ => none

/-- Cause of a bad source byte. -/
def badCause (b : Buf) : Nat := if b.macFail then 2 else 1

/-- One piece of a COPY or FILL: its bytes up to the first bad one are written. -/
def Dev.copyPiece (d : Dev) (c : Nat) (h : Head) (g : Desc) (host : List HostBytes) (link : Option Nat)
    (ans : Answers) (m k : Nat) : Dev × Option DmaEnd :=
  let (d, b) :=
    if g.op = 2 then (d, { Buf.empty with bytes := (upTo k).map (fun i => (g.fill[(m + i) % 8]?).getD 0) })
    else d.readBuf h host ans g.src g.srcWrap m k
  let bad := b.firstBad.getD k
  let lk := (linkFails d h g link m k).getD k
  let good := min bad lk
  let ending : Option DmaEnd :=
    if good = k then none else if bad ≤ lk then some (.halts (badCause b)) else some (.halts 4)
  if good = 0 then (d, ending)
  else
    match d.writeBuf h ans g.dst g.dstWrap m (b.bytes.take good) with
    | (d, .wait) => (d, some .waits)
    | (d, .dead) => (d, some (.halts 3))
    | (d, .ok) =>
      let d := if g.op = 2 then d else d.takeSrc g.src good
      ((d.progress c good none).count (cntDma c 1) good, ending)

/-- One piece of a COMPARE (R496). DESIGN CHOICE: BYTES_DONE of one that STOP_ON_MISMATCH ends counts the differing byte (log
entry 186). -/
def Dev.comparePiece (d : Dev) (c : Nat) (h : Head) (g : Desc) (host : List HostBytes) (link : Option Nat)
    (ans : Answers) (m k : Nat) : Dev × Option DmaEnd :=
  let (d, b) := d.readBuf h host ans g.src g.srcWrap m k
  let (d, y) := d.readBuf h host ans g.dst g.dstWrap m k
  let bad := min (b.firstBad.getD k) (y.firstBad.getD k)
  let lk := (linkFails d h g link m k).getD k
  let good := min bad lk
  let diff := firstDiff 0 (b.bytes.take good) (y.bytes.take good)
  match diff with
  | some o =>
    if g.stopOn then
      ((d.takeSrc g.src (o + 1)).progress c (o + 1) (some (m + o)), some .finished)
    else
      ((d.takeSrc g.src good).progress c good (some (m + o)),
        if good = k then none
        else if bad ≤ lk then some (.halts (if b.macFail then 2 else badCause y)) else some (.halts 4))
  | none =>
    ((d.takeSrc g.src good).progress c good none,
      if good = k then none
      else if bad ≤ lk then some (.halts (if b.macFail then 2 else badCause y)) else some (.halts 4))

/-- Run pieces until the descriptor ends, halts or waits; quota: bytes that the burst still allows. -/
def dmaRun (c : Nat) (h : Head) (g : Desc) (host : List HostBytes) (link : Option Nat) (ans : Answers) :
    Nat → Dev → Dev × DmaEnd
  | 0, d => (d, .waits)
  | n + 1, d =>
    match (d.chan c).cur with
    | none => (d, .waits)
    | some r =>
      let m := r.moved
      let quota := if g.paced then r.left else g.length
      if g.length ≤ m then (d, .finished)
      else if quota = 0 then (d, .waits)
      else
        match d.vergeLine h g m quota with
        | some p =>
          dmaRun c h g host link ans n (((d.takeSlot (streamNo g.dst) p).progress c 256 none).count (cntDma c 1) 256)
        | none =>
          let src := if g.op = 2 then 64 else d.srcStep g.src g.srcWrap m
          let k := min (min (g.length - m) quota) (min src (d.dstStep g.dst g.dstWrap m))
          if k = 0 then (d, .waits)
          else
            let res :=
              if g.op = 3 then d.comparePiece c h g host link ans m k
              else d.copyPiece c h g host link ans m k
            match res with
            | (d, some e) => (d, e)
            | (d, none) => dmaRun c h g host link ans n d

/-! ### A channel's step -/

/-- The source can be read when the descriptor starts. -/
def Dev.srcLive (d : Dev) (h : Head) (g : Desc) : Bool :=
  decide (g.op = 2) || decide (mtype g.src ≠ 1) || (d.liveRange h (wrapAddr g.src g.srcWrap 0) 1).isSome

/-- Fetch the next ready descriptor (R491, R492, R494, R498). -/
def Dev.dmaFetch (d : Dev) (c : Nat) (host : List HostBytes) (link : Option Nat) (ans : Answers) : Dev :=
  let x := d.chan c
  match d.fetchDesc x host link ans with
  | (d, none) => d.dmaHalt c 7 ans
  | (d, some b) =>
    let g := descOf b
    let run : DescRun := { bytes := b, moved := 0, left := 0, diff := none, srcLive := d.srcLive x.owner g,
                           stopping := false }
    let held := d.setChan c { x with state := 1, cur := some run }
    if descOk b && held.streamsFree g then held.attach c g else held.dmaHalt c 6 ans

/-- A lower-numbered channel waits on the same request line (R495). -/
def Dev.lowerWaits (d : Dev) (c line : Nat) : Bool :=
  (upTo c).any (fun i =>
    let x := d.chan i
    decide (x.state = 1) &&
    (match x.cur with
     | some r => (descOf r.bytes).paced && decide ((descOf r.bytes).reqLine = line) && decide (r.left = 0)
     | none => false))

/-- A PACED descriptor takes a request when it has no burst in progress. -/
def Dev.takeRequest (d : Dev) (c : Nat) (g : Desc) (r : DescRun) : Dev :=
  if g.paced ∧ r.left = 0 ∧ r.moved < g.length ∧ 0 < lget d.dma.req g.reqLine ∧ d.lowerWaits c g.reqLine = false then
    let d := { d with dma := { d.dma with req := lmod d.dma.req g.reqLine (· - 1) } }
    d.onChan c (fun x => { x with cur := some { r with left := min (64 * g.burst) (g.length - r.moved) } })
  else d

/-- A source deleted while the descriptor runs is DEAD_TARGET, not poison. -/
def Dev.haltCause (d : Dev) (h : Head) (g : Desc) (r : DescRun) (cause : Nat) : Nat :=
  if cause = 1 ∧ r.srcLive = true ∧ mtype g.src = 1 ∧
      (d.liveRange h (wrapAddr g.src g.srcWrap 0) 1).isNone = true then 3
  else cause

/-- STOP: a channel that runs halts, once a burst in progress is complete; an idle one has nothing to halt. -/
def Dev.dmaStop (d : Dev) (c : Nat) : Dev :=
  let x := d.chan c
  if x.state ≠ 1 then d
  else match x.cur with
    | some r => if 0 < r.left then d.setChan c { x with cur := some { r with stopping := true } } else d.dmaHalt c 8 noAnswers
    | none => d.dmaHalt c 8 noAnswers

/-- The burst is complete, and the STOP takes effect. -/
def Dev.stopAfter (d : Dev) (c : Nat) : Dev :=
  match (d.chan c).cur with
  | some r => if r.stopping && decide (r.left = 0) then d.dmaHalt c 8 noAnswers else d
  | none => d

/-- A FENCE holds back a descriptor: a line that an earlier one loads has not arrived in its stream (10 R369, R494). Earlier
stores are visible as they are made (10 R370). DESIGN CHOICE: it waits for the lines of every service stream (log entry
175). -/
def Dev.fenced (d : Dev) (g : Desc) (r : DescRun) : Bool :=
  g.fence && decide (r.moved = 0) &&
  (upTo 64).any (fun k => serviceStream k && !(d.stream k).slots.isEmpty)

/-- Go on with the descriptor that the channel holds. -/
def Dev.dmaGo (d : Dev) (c : Nat) (host : List HostBytes) (link : Option Nat) (ans : Answers) : Dev :=
  match (d.chan c).cur with
  | none => d
  | some r =>
    let g := descOf r.bytes
    let h := (d.chan c).owner
    if d.fenced g r then d.stopAfter c
    else match dmaRun c h g host link ans (g.length + 2) (d.takeRequest c g r) with
    | (d, .waits) => d.stopAfter c
    | (d, .finished) =>
      match (d.chan c).cur with
      | some r =>
        let d := d.descDone c g r ans
        if r.stopping && (d.chan c).cur.isNone then d.dmaHalt c 8 ans else d
      | none => d
    | (d, .halts cause) => d.dmaHalt c (d.haltCause h g r cause) ans

/-- A channel with a ready descriptor, which holds its ENGINE token (R490: 0 to 15 belong to firmware, whose channels
carry commands; 17 R635). -/
def Dev.dmaStep (d : Dev) (c : Nat) (host : List HostBytes) (link : Option Nat) (ans : Answers) : Dev :=
  let x := d.chan c
  if c < 16 ∨ (x.en || x.stopping) = false ∨ x.state = 2 ∨ d.bench.draining = true ∨ d.life.shutting.isSome = true then d
  else
    match x.cur with
    | some _ => d.withTokens [12 + c] (·.dmaGo c host link ans)
    | none =>
      if x.ringHead = x.tail then d
      else d.withTokens [12 + c] (fun d => (d.dmaFetch c host link ans).dmaGo c host link ans)

end Sys2Proof.Machine
end

