-- ==== Sys2Proof/Machine/Heads.lean ====
section
/-!
DEFINITION. CXL.mem and the heads (03, 04, 05, 09): host reads and writes, write credits, head resets, GPF,
the head links.
-/

namespace Sys2Proof.Machine

/-! ### HDM decoders (R335, R336) -/

/-- The DPA that a decoder gives an HPA: the bits that choose among the ways are left out. -/
def hdmDpa (x : Hdm) (hpa : Nat) : Option Nat :=
  if x.on = false ∨ hpa < x.base ∨ x.base + x.size ≤ hpa then none
  else
    let o := hpa - x.base
    some (x.dpa + o / (x.gran * x.ways) * x.gran + o % x.gran)

/-- The DPA of an HPA; outside every decoder, one past the DPA space, which is dead (log entry 25). -/
def Dev.dpaOf (d : Dev) (h : Head) (hpa : Nat) : Nat :=
  if (d.head h).hdmEn then ((d.head h).hdm.findSome? (fun x => hdmDpa x hpa)).getD (2 ^ 45 + hpa % 64)
  else 2 ^ 45 + hpa % 64

/-- Memory ready has been reached at this start (19 R680). -/
def Dev.memoryReady (d : Dev) : Bool :=
  decide (9 ≤ stageNum d.life.stage) && decide (stageNum d.life.stage ≤ 10)

/-- CXL.mem traffic of a head is served. -/
def Dev.serving (d : Dev) (h : Head) : Bool := d.linked h && d.memoryReady

/-! ### Stream detectors (05 R190; log entry 19) -/

def Dev.detectors (d : Dev) : Head → Vector (Option Detector) 16
  | .a => d.cache.detectA
  | .b => d.cache.detectB

def Dev.setDetector (d : Dev) (h : Head) (i : Nat) (x : Option Detector) : Dev :=
  match h with
  | .a => { d with cache := { d.cache with detectA := vset d.cache.detectA i x } }
  | .b => { d with cache := { d.cache with detectB := vset d.cache.detectB i x } }

/-- A detector follows a miss of its region a little above its last one. -/
def follows (region line : Nat) (x : Detector) : Bool :=
  x.region == region && decide (x.last < line) && decide (line ≤ x.last + 32)

/-- Train the detector that follows a miss, or set one anew. -/
def Dev.train (d : Dev) (h : Head) (region line : Nat) : Dev :=
  let v := d.detectors h
  let at_ (i : Nat) : Option Detector := vget none v i
  let mine := (upTo 16).find? (fun i => match at_ i with
    | some x => follows region line x
    | none => false)
  match mine with
  | some i =>
    match at_ i with
    | some x => d.setDetector h i (some { x with last := line, hits := x.hits + 1, next := max x.next (line + 1) })
    | none => d
  | none =>
    let i := ((upTo 16).find? (fun i => (at_ i).isNone)).getD ((region + line) % 16)
    d.setDetector h i (some { region := region, last := line, hits := 1, next := line + 1 })

/-! ### Reads (R340, 05 R183, R194, 08 R306, R316) -/

/-- The lanes that serve a read of a line: its own, or those of its siblings while it is out (R88). -/
def Dev.servingLanes (d : Dev) (t : StripeCtx) (c : LineCtx) : List Nat :=
  if d.inService c.pla then [plaLane c.pla] else (t.siblings c).map (fun y => plaLane y.pla)

/-- A read beyond a depth of R29, counted on the lane that holds its line (R88, R123). -/
def Dev.depthCount (d : Dev) (h : Head) (r : Region) (region line : Nat) : Dev :=
  match d.lineStripe region r line with
  | none => d
  | some (t, c) =>
    if (d.servingLanes t c).any (fun i => decide (40 ≤ (d.lane1 i).queue.length)) ∨ 512 ≤ (d.head h).readsOut then
      d.count (cntLane (plaLane c.pla) 4) 1
    else d

/-- A hit: the sector's newest copy answers. -/
def Dev.hit (d : Dev) (h : Head) (tag region line sector : Nat) (x : Copy) : Dev :=
  let l : Loaded :=
    { data := setSector 0 sector x.data, poison := if x.poison then addSec 0 sector else 0, cause := sameCause x.cause,
      macFail := false }
  let d := (d.count (cntCache 0) 1).answer h tag region sector l
  (d.readStage region line 7).traceEndIf (traceOf 0 region line)

/-- A CONFIRMED side-buffer line moves into the cache and answers; it stays where no way is free (R194). -/
def Dev.promote (d : Dev) (r : Region) (region line : Nat) (data : LineData) : Dev :=
  match d.cache.fillWay (setOf r line), d.findWay r region line with
  | none, none => d.count (cntCache 2) 1
  | _, _ => (d.dropSide region line).fill r region line data 0 (sameCause 0)

/-- A miss: it waits for its line. -/
def Dev.miss (d : Dev) (h : Head) (tag : Nat) (r : Region) (region line sector : Nat) : Dev :=
  let d := (d.count (cntCache 1) 1).train h region line
  match d.lineStripe region r line with
  | none => d
  | some (t, c) =>
    let d := (d.checkZte t.lz)
    if d.zt.lost.contains t.lz then
      (d.returnData h tag 0 true).mediaRecord h .failure (r.dpaBase + 256 * line) 5 0 region line
    else
      let d := d.onHead h (fun x => { x with readsOut := x.readsOut + 1 })
      d.wantLine t c (.host h tag sector d.now) false

/-- A host read of a live line. -/
def Dev.readLine (d : Dev) (h : Head) (tag : Nat) (r : Region) (region line sector : Nat) : Dev :=
  let (d, _) := d.draw 0 h (region + line * 1024)
  let d := ((d.regionCount region 0 1).readStage region line 0).readStage region line 1
  let d := d.checkLine r region line
  match d.sectorCopy r region line sector with
  | some x =>
    let d := match d.findWay r region line with
      | some (k, _) => d.touch k
      | none => d
    d.hit h tag region line sector x
  | none =>
    match d.cache.sideConfirmed region line with
    | some data =>
      let d := ((d.count (cntCache 3) 1).promote r region line data)
      let l := d.overCopies r region line (.whole data)
      ((d.answer h tag region sector l).readStage region line 7).traceEndIf (traceOf 0 region line)
    | none => d.miss h tag r region line sector

/-- The region and line of a DPA, dead or not; 0 where it lies in no window. -/
def Dev.lineAt (d : Dev) (dpa : Nat) : Nat × Nat :=
  match d.window dpa with
  | some (id, _, off) => (id, off / 256)
  | none => (0, 0)

/-- A host read (R183, R340, R316); before memory ready every DPA is dead (19 R680). -/
def Dev.memrd (d : Dev) (h : Head) (tag hpa : Nat) : Dev :=
  if d.linked h = false then d
  else
    let dpa := d.dpaOf h hpa
    let d := d.count (cntHead h 0) 1
    match (if d.memoryReady then d.resolve h dpa else none) with
    | none =>
      let (region, line) := d.lineAt dpa
      (d.returnData h tag 0 true).mediaRecord h .failure (dpa / 256 * 256) 6 0 region line
    | some (id, r, off) =>
      let d := d.depthCount h r id (off / 256)
      if d.readLocked r (off / 256) then
        (d.returnData h tag 0 true).mediaRecord h .failure (dpa / 256 * 256) 4 0 id (off / 256)
      else d.readLine h tag r id (off / 256) (off % 256 / 64)

def execMemrd (t : Nat) (h : Head) (tag : Nat) (hpa : Word) (s : State) :
    Host.Outcome State Fault Refusal := s.after t (fun d => d.memrd h tag hpa.toNat)

/-! ### Writes (04 R134, R135, R166, R167, 09 R340, 08 R316) -/

/-- A write to a dead DPA: the region is 0 when the DPA lies in no window. -/
def Dev.deadWrite (d : Dev) (h : Head) (dpa : Nat) : Dev :=
  let win := d.window dpa
  let region := (win.map Prod.fst).getD 0
  let (_, last, d) := d.dropEvent d.bench.deadAt (2 * region + headNum h) (evHead h 0) region dpa
  let d := { d with bench := { d.bench with deadAt := last } }
  (d.lostStore h 1).when win.isSome (·.regionCount region 5 1)

def Dev.lockedWrite (d : Dev) (h : Head) (region dpa : Nat) : Dev :=
  let (_, last, d) := d.dropEvent d.bench.lockedAt (2 * region + headNum h) (evHead h 6) region dpa
  { d with bench := { d.bench with lockedAt := last } }.lostStore h 1

/-- The newest entry of a line is a pinned one. -/
def Dev.newestPinned (d : Dev) (region line : Nat) : Bool :=
  (d.bench.ofLine (.user region line)).head?.any (fun e => decide (e.state = .pinned))

/-- The completion of an accepted write: at once, or in EXPOSED at its line's verify. -/
def Dev.finishWrite (d : Dev) (h : Head) (tag region line : Nat) : Dev :=
  if d.bench.exposed then
    if d.newestPinned region line then (d.savePinned region line).send (.writeDone h tag)
    else
      let w : HeldWrite := { head := h, tag := tag, region := region, line := line, since := d.now, issued := false }
      { d with bench := { d.bench with held := d.bench.held ++ [w] } }
  else (d.send (.writeDone h tag)).writeStage region line 2

/-- Accept a host write of a live line. -/
def Dev.acceptWrite (d : Dev) (h : Head) (tag : Nat) (r : Region) (region line sector : Nat) (data : Sector)
    (poison : Bool) : Dev :=
  let (d, _) := d.draw 1 h (region + line * 1024)
  let d := ((d.regionCount region 1 1).regionCount region 3 64).writeStage region line 0
  let d := (d.accept r region line sector ⟨data, poison, 1⟩).writeStage region line 1
  d.finishWrite h tag region line

/-- A host write: it spends a credit, and is completed whatever becomes of it; before memory ready it is
dropped as dead (19 R680). -/
def Dev.memwr (d : Dev) (h : Head) (tag hpa : Nat) (data : Sector) (poison : Bool) : Dev :=
  if d.linked h = false then d
  else if d.memoryReady = false then (d.deadWrite h (d.dpaOf h hpa)).send (.writeDone h tag)
  else if (d.head h).credits = 0 then d
  else
    let d := d.onHead h (fun x => { x with credits := x.credits - 1 })
    let d := ((d.count (cntHead h 1) 1).count (cntHead h 3) 64).bwHead h 0 64
    let dpa := d.dpaOf h hpa
    match d.resolve h dpa with
    | none => (d.deadWrite h dpa).send (.writeDone h tag)
    | some (id, r, off) =>
      let line := off / 256
      if d.writeLocked r line then (d.lockedWrite h id dpa).send (.writeDone h tag)
      else if d.writeRefused r id line then (d.refusedWrite h id dpa).send (.writeDone h tag)
      else d.acceptWrite h tag r id line (off % 256 / 64) data poison

def execMemwr (t : Nat) (h : Head) (tag : Nat) (hpa : Word) (data : Sector) (poison : Bool) (s : State) :
    Host.Outcome State Fault Refusal := s.after t (fun d => d.memwr h tag hpa.toNat data poison)

/-! ### Credits (04 R132, R136, R162, R176, 09 R345) -/

def Dev.creditReturn (d : Dev) (h : Head) : Dev :=
  if d.serving h && decide ((d.head h).credits < 256) && d.roomForLine && d.bench.capGiven &&
      !d.bench.draining && d.life.shutting.isNone && !(d.head h).gpf1 then
    (d.onHead h (fun x => { x with credits := x.credits + 1 })).send (.credit h)
  else d

def execCreditReturn (t : Nat) (h : Head) (s : State) : Host.Outcome State Fault Refusal :=
  s.after t (fun d => d.creditReturn h)

/-! ### Resets (R25, R331-R334) -/

/-- Reads of a head in flight are abandoned; senses already begun go on without them. -/
def Dev.abandonReads (d : Dev) (h : Head) : Dev :=
  let mine (w : Waiter) : Bool := match w with
    | .host g _ _ _ => decide (g = h)
    | .prefetch g => decide (g = h)
    | .stream _ _ => false
  let reads := d.lane.reads.map (fun x => { x with waiters := x.waiters.filter (fun w => !mine w) })
  ({ d with lane := { d.lane with reads := reads } }).onHead h (fun x => { x with readsOut := 0 })

/-- Completions of a head's held writes are not sent; the writes stand. -/
def Dev.dropHeld (d : Dev) (h : Head) : Dev :=
  { d with bench := { d.bench with held := d.bench.held.filter (fun w => decide (w.head ≠ h)) } }

/-- Every pair created through a head goes, the admin pair among them (R332, R333). -/
def Dev.deleteQueues (d : Dev) (h : Head) : Dev :=
  let d := d.each (upTo 64) (fun d i => d.resetPair (64 * headNum h + i))
  d.setAdm h { d.adm h with en := false, rdy := false }

/-- A dump or trace that the head carries stops (14 R533, R537). -/
def Dev.stopDumps (d : Dev) (h : Head) : Dev :=
  let e := d.ev
  let e := if e.dumpEn && decide (headOfBit e.dumpHead = h) then { e with dumpEn := false, dumpErr := true } else e
  let e := if e.trEn && decide (headOfBit e.trHead = h) then { e with trEn := false, trErr := true, traces := [] } else e
  { d with ev := e }

/-- What PERST#, a hot reset and a CXL Reset have in common: reads abandoned, queues deleted. -/
def Dev.resetCommon (d : Dev) (h : Head) : Dev :=
  ((((d.abandonReads h).dropHeld h).deleteQueues h).stopDumps h).resetChannels h

/-- A head's own registers at their reset values: the decoders, the event interrupt policy and the alert configuration; its
event logs stay (log entry 24). -/
def HeadSt.resetRegs (x : HeadSt) : HeadSt :=
  { x with hdm := Reset.head.hdm, hdmEn := false, gpf1 := false, policy := 0, alerts := 0 }

/-- Link state and registers return to their reset values; credits in the host's hands go with the link. -/
def Dev.resetLink (d : Dev) (h : Head) : Dev :=
  d.onHead h (fun x => { x.resetRegs with
    linkUp := false, linkDownAt := if x.linkUp then d.now else x.linkDownAt, width := 0, memActive := false,
    credits := 0 })

/-- A reset of a head by PERST# or over its link. PERST# is followed while the device does not run, too (R331). -/
def Dev.headReset (d : Dev) (h : Head) (kind : ResetKind) : Dev :=
  let d := if d.life.running then (d.resetCommon h).resetLink h else d
  match kind with
  | .perst => d.onHead h (fun x => { x with
      inReset := true, resetAt := if x.inReset then x.resetAt else d.now, cfgReady := false })
  | .hot => d

def execHeadReset (t : Nat) (h : Head) (kind : ResetKind) (s : State) : Host.Outcome State Fault Refusal :=
  s.after t (fun d => d.headReset h kind)

/-- A CXL Reset leaves the link as it is. -/
def Dev.cxlReset (d : Dev) (h : Head) : Dev :=
  if d.life.running = false then d
  else (d.resetCommon h).onHead h HeadSt.resetRegs

def execCxlReset (t : Nat) (h : Head) (s : State) : Host.Outcome State Fault Refusal :=
  s.after t (fun d => d.cxlReset h)

/-- A function-level reset: the function's event interrupt policy and alert configuration (log entry 24). -/
def Dev.flr (d : Dev) (h : Head) : Dev :=
  if d.life.running = false then d else d.onHead h (fun x => { x with policy := 0, alerts := 0 })

def execFlr (t : Nat) (h : Head) (s : State) : Host.Outcome State Fault Refusal :=
  s.after t (fun d => d.flr h)

/-- PERST# deasserted: configuration space answers (R331), once the device runs. -/
def Dev.perstDeassert (d : Dev) (h : Head) : Dev :=
  let d := d.onHead h (fun x => { x with inReset := false, perstOffAt := d.now })
  if d.life.running = false ∨ (d.head h).retired = true then d
  else (d.onHead h HeadSt.answersCfg).send (.cfgReady h)

def execPerstDeassert (t : Nat) (h : Head) (s : State) : Host.Outcome State Fault Refusal :=
  s.after t (fun d => d.perstDeassert h)

/-! ### GPF (R345) -/

def Dev.gpfPhase1 (d : Dev) (h : Head) : Dev :=
  if d.linked h then d.onHead h (fun x => { x with gpf1 := true }) else d

def execGpfPhase1 (t : Nat) (h : Head) (s : State) : Host.Outcome State Fault Refusal :=
  s.after t (fun d => d.gpfPhase1 h)

/-- Every write received is accepted already, so the head answers. -/
def Dev.gpfPhase2 (d : Dev) (h : Head) : Dev := if d.linked h then d.send (.gpfDone h) else d

def execGpfPhase2 (t : Nat) (h : Head) (s : State) : Host.Outcome State Fault Refusal :=
  s.after t (fun d => d.gpfPhase2 h)

/-! ### Links (R351, 16 R605, 21 R736) -/

/-- A link goes down; LINK_DOWN follows it. -/
def Dev.linkDown (d : Dev) (h : Head) : Dev :=
  let d := d.abandonReads h
  d.onHead h (fun x => { x with
    linkUp := false, linkDownAt := if x.linkUp then d.now else x.linkDownAt, width := 0, memActive := false,
    credits := 0 })

def execHeadLinkDown (t : Nat) (h : Head) (s : State) : Host.Outcome State Fault Refusal :=
  s.after t (fun d => if d.life.running then d.linkDown h else d)

/-- The rail of a head's link: VPHY_A or VPHY_B (16 R597). -/
def phyRail (h : Head) : Nat := 2 + headNum h

/-- The head's rail stands: enabled, and no re-enable of it under way (R743). -/
def Dev.phyUp (d : Dev) (h : Head) : Bool :=
  let r := vget Reset.rail d.pwr.rails (phyRail h)
  r.en && decide (r.enAt = 0)

def Dev.linkUp (d : Dev) (h : Head) (width : BitVec 4) : Dev :=
  if d.life.running = false ∨ (d.head h).inReset = true ∨ (d.head h).retired = true ∨ d.phyUp h = false then d
  else d.onHead h (fun x => { x with linkUp := true, width := width, memActive := d.ready })

def execHeadLinkUp (t : Nat) (h : Head) (width : BitVec 4) (s : State) : Host.Outcome State Fault Refusal :=
  s.after t (fun d => d.linkUp h width)

end Sys2Proof.Machine
end

