-- ==== Sys2Proof/Machine/Firmware.lean ====
section
/-!
DEFINITION. Firmware slots (15 R580-R583, 19 R696-R699, 08 R308, R309): the check of an image, download,
commit, live update, and the hold, reload and halt of a cluster.
-/

namespace Sys2Proof.Machine

/-! ### Images (R580-R582) -/

/-- Bytes [0, n) of the download buffer have all been written. -/
def coverFrom (l : List (Nat × Nat)) (n : Nat) : Nat → Nat → Bool
  | 0, p => decide (n ≤ p)
  | k + 1, p =>
    if n ≤ p then true
    else match l.find? (fun r => decide (r.1 ≤ p) && decide (p < r.1 + r.2)) with
      | some r => coverFrom l n k (r.1 + r.2)
      | none => false

def covered (l : List (Nat × Nat)) (n : Nat) : Bool := coverFrom l n l.length 0

/-- Little-endian field of the header in the download buffer. -/
def hdr (m : Memory) (off n : Nat) : Nat := leNat (readBytes m off n)

def hdrBe (m : Memory) (off n : Nat) : Nat := beNat (readBytes m off n)

/-- MIN_SVN (R581). -/
def Dev.minSvn (d : Dev) : Nat := d.lifetime.svn

/-- The check of R581 over an image of n bytes in the download buffer. -/
def Dev.imageCheck (d : Dev) (m : Memory) (n : Nat) : Bool :=
  let key := hdr m 7 1
  decide (hdr m 0 4 = 0x57465541) && decide (hdr m 4 2 = 1) && decide (key < 4) &&
  (match (if h : key < 4 then some (Fin.mk key h) else none) with
   | some k =>
     decide (beNat (sha256 (readBytes m 64 64)) = (if d.sec.testUnlocked then 0 else (Config.fusedKeyHash k).toNat)
       ∧ Config.fusedRevoke.toNat.testBit key = false)
   | none => false) &&
  ecdsaVerify (hdrBe m 64 32) (hdrBe m 96 32) (hdrBe m 128 32) (hdrBe m 160 32) (readBytes m 0 128) &&
  decide (sha256 (readBytes m 256 (n - 256)) = readBytes m 32 32) &&
  decide (d.minSvn ≤ hdr m 16 4)

/-- The image in the download buffer, as it goes into a slot. -/
def bufferImage (m : Memory) (n : Nat) : FwImage :=
  { version := BitVec.ofNat 64 (hdr m 8 8), svn := BitVec.ofNat 32 (hdr m 16 4),
    clusters := BitVec.ofNat 4 (hdr m 6 1), good := true, bytes := readBytes m 0 n }

def SecBlock.fw (s : SecBlock) (slot : Bool) : Option FwImage := if slot then s.fw1 else s.fw0

def SecBlock.setFw (s : SecBlock) (slot : Bool) (x : Option FwImage) : SecBlock :=
  if slot then { s with fw1 := x } else { s with fw0 := x }

/-- The check at a load of slot's image into cluster c (R582). -/
def Dev.loadable (d : Dev) (slot : Bool) (c : Nat) : Bool :=
  match d.sec.fw slot with
  | some x => x.good && decide (d.minSvn ≤ x.svn.toNat) && x.clusters.toNat.testBit c
  | none => false

def Dev.slotBad (d : Dev) (slot : Bool) (c : Nat) : Bool := d.sec.badBits.toNat.testBit (2 * c + bool01 slot)

def setBit {w : Nat} (x : BitVec w) (i : Nat) (b : Bool) : BitVec w :=
  BitVec.ofNat w (setFld x.toNat i 1 (bool01 b))

/-- The FW_SLOT record (18 R664). -/
def fwRecord (s : SecBlock) : BitVec 384 :=
  let v (x : Option FwImage) : Nat := (x.map (fun y => y.version.toNat)).getD 0
  let n (x : Option FwImage) : Nat := (x.map (fun y => y.svn.toNat)).getD 0
  cabPayload [(0, 8, v s.fw0), (8, 8, v s.fw1), (16, 4, n s.fw0), (20, 4, n s.fw1),
    (24, 1, s.active.toNat), (25, 1, s.badBits.toNat)]

def Dev.writeFwSlot (d : Dev) : Dev := d.cabWrite cabFwSlot 0 26 (fwRecord d.sec)

/-! ### Clusters and their queues (01, R308, R309) -/

/-- Commands that a cluster runs, fetched before an order. WATCHes are held by the device, and a firmware commit is
cluster 0's. -/
def Dev.runningOn (d : Dev) (c before : Nat) : List Exec :=
  d.q.exec.filter (fun x => x.started && decide (x.cluster = c) && decide (x.order < before)
    && x.opcode != 5 && x.opcode != 0x0A)

/-- Commands cut off on a held cluster complete from its sibling (R406). -/
def Dev.interruptRunning (d : Dev) (c before : Nat) : Dev :=
  (d.runningOn c before).foldl Dev.interruptCmd d

/-! ### Holds and reloads (R308, R309) -/

/-- Commands under way that need a halted cluster end (R309). -/
def Dev.endUnavailable (d : Dev) : Dev :=
  d.each (d.q.exec.filter (fun x => x.started && d.unavailable x.opcode)) (fun d x =>
    (d.dropTest x).complete x stInternalUnavailable 0)

/-- Mark the slot a cluster runs bad, and hold the cluster for a reload from the other slot; halt it where
that one is bad or empty. -/
def Dev.failCluster (d : Dev) (c : Nat) (slot : Bool) : Dev :=
  let other := !slot
  let s := { d.sec with badBits := setBit d.sec.badBits (2 * c + bool01 slot) true }
  let gone := s.badBits.toNat.testBit (2 * c + bool01 other) || (s.fw other).isNone
  let s :=
    if gone then { s with halted := setBit s.halted c true, held := setBit s.held c false }
    else { s with held := setBit s.held c true, active := setBit s.active c other }
  (({ d with sec := s }.writeFwSlot).interruptRunning c d.q.order).endUnavailable

/-- A poisoned instruction fetch (R308). -/
def Dev.fetchPoison (d : Dev) (core addr : Nat) : Dev :=
  let c := core / 4
  if d.clusterDown c then d
  else
    let slot := d.sec.runSlot.toNat.testBit c
    (d.event (evCore core 0) (detailOf [(32, c), (33, bool01 slot), (40, addr)])).failCluster c slot

/-- A load whose check fails (R582): as a poisoned fetch, at no address. -/
def Dev.loadFails (d : Dev) (c : Nat) (slot : Bool) : Dev :=
  let d := d.event (evSecurity 6)
  (d.event (evCore (4 * c) 0) (detailOf [(32, c), (33, bool01 slot)])).failCluster c slot

/-- MIN_SVN rises to the SVN of an image that runs on every cluster it names (R583). -/
def Dev.raiseSvn (d : Dev) (slot : Bool) : Dev :=
  match d.sec.fw slot with
  | some x =>
    let all := (upTo 4).all (fun c => !x.clusters.toNat.testBit c ||
      (d.sec.runs.contains (c, x) && !d.clusterDown c))
    if all ∧ d.minSvn < x.svn.toNat then
      d.putLifetime { d.lifetime with svn := x.svn.toNat }
    else d
  | none => d

/-- Cluster c runs the image of a slot; its four cores start afresh. -/
def Dev.runOn (d : Dev) (c : Nat) (slot : Bool) : Dev :=
  { d with sec := { d.sec with
      aborts := d.sec.aborts &&& ~~~((0xF : BitVec 16) <<< (4 * c))
      runSlot := setBit d.sec.runSlot c slot
      runs := d.sec.runs.filter (fun (p : Nat × FwImage) => p.1 != c) ++ (d.sec.fw slot).toList.map (fun x => (c, x))
      held := setBit d.sec.held c false
      halted := setBit d.sec.halted c false } }.raiseSvn slot

/-! ### FW_DOWNLOAD (R696) -/

def Dev.downloadFw (d : Dev) (off : Nat) (bytes : List Byte) : Dev :=
  { d with sec := { d.sec with
      download := writeBytes d.sec.download off bytes
      loaded := d.sec.loaded ++ [(off, bytes.length)] } }

/-! ### FW_COMMIT and the live update (R696-R699) -/

/-- Answer whoever asked for the commit. -/
def Dev.answerFw (d : Dev) (a : FwAsker) (status : Nat) : Dev :=
  match a with
  | .cmd qid cid =>
    match d.executing 0x0A qid cid with
    | some x => d.complete x status 0
    | none => d
  | .box h => d.send (.mailbox h (if status = 0 then .success else .status status) .none)

def Dev.setCommit (d : Dev) (x : Option FwCommit) : Dev := { d with sec := { d.sec with commit := x } }

/-- Clusters of a mask in the order of R697. -/
def updateOrder (mask : BitVec 4) : List Nat := [2, 3, 1, 0].filter mask.toNat.testBit

/-- A commit that the checks of R696 let through; its FW_SLOT record is requested. -/
def Dev.startCommit (d : Dev) (a : FwAsker) (slot : Bool) (mask : BitVec 4) (activate : Bool)
    (img : FwImage) : Dev :=
  let x : FwCommit :=
    { slot := slot, mask := mask, activate := activate, image := img, asker := a, durable := false,
      todo := updateOrder mask, since := 0, startAt := 0, former := d.sec.active, failed := false }
  let s := d.sec.setFw slot (some img)
  let bad := (upTo 4).foldl (fun b c =>
    if mask.toNat.testBit c then setBit b (2 * c + bool01 slot) false else b) s.badBits
  let act := (upTo 4).foldl (fun b c => if mask.toNat.testBit c then setBit b c slot else b) s.active
  (d.setCommit (some x)).cabWrite cabFwSlot 0 26 (fwRecord { s with badBits := bad, active := act }) .fwCommit

/-- FW_COMMIT: the rows of R696 in order. -/
def Dev.commitFw (d : Dev) (a : FwAsker) (slot : Bool) (mask : BitVec 4) (activate : Bool) : Dev :=
  let m := d.sec.download
  let header := covered d.sec.loaded 256
  let len := hdr m 20 4
  if mask = 0 ∨ mask &&& ~~~(BitVec.ofNat 4 (hdr m 6 1)) ≠ 0 then d.answerFw a stInvalidField
  else if (upTo 4).any (fun c => !mask.toNat.testBit c && decide (d.sec.active.toNat.testBit c = slot)) then
    d.answerFw a stInvalidField
  else if d.sec.commit.isSome then d.answerFw a stBusyInService
  else if header = false ∨ covered d.sec.loaded len = false ∨ len < 256 ∨ len % 4096 ≠ 0 ∨ 2 ^ 25 < len then
    d.answerFw a stSignatureFail
  else if d.imageCheck m len = false then (d.event (evSecurity 6)).answerFw a stSignatureFail
  else d.startCommit a slot mask activate (bufferImage m len)

/-- The end of a commit. -/
def Dev.endCommit (d : Dev) (x : FwCommit) (status : Nat) : Dev := (d.setCommit none).answerFw x.asker status

/-- The next cluster of a live update: its sibling takes its queues over (R698), or its work pauses. -/
def Dev.nextCluster (d : Dev) (x : FwCommit) : Dev :=
  match x.todo with
  | [] => d.endCommit x stSuccess
  | _ :: _ => d.setCommit (some { x with since := d.q.order, startAt := d.now })

/-- The FW_SLOT record is durable: the slot holds the image. With ACTIVATE the live update begins. -/
def Dev.commitDurable (d : Dev) : Dev :=
  match d.sec.commit with
  | none => d
  | some x =>
    let s := d.sec.setFw x.slot (some x.image)
    let bad := (upTo 4).foldl (fun b c =>
      if x.mask.toNat.testBit c then setBit b (2 * c + bool01 x.slot) false else b) s.badBits
    let act := (upTo 4).foldl (fun b c => if x.mask.toNat.testBit c then setBit b c x.slot else b) s.active
    let d := { d with sec := { s with badBits := bad, active := act } }
    let x := { x with durable := true }
    if x.activate then d.nextCluster x else d.endCommit x stSuccess

/-- The record could not be made durable (18 R741): nothing has changed. -/
def Dev.commitRefused (d : Dev) : Dev :=
  match d.sec.commit with
  | none => d
  | some x => d.endCommit x stInternalError

/-- The cluster that a live update is about. -/
def Dev.updating (d : Dev) : Option (FwCommit × Nat) :=
  match d.sec.commit with
  | some x =>
    match x.todo with
    | c :: _ => if x.durable then some (x, c) else none
    | [] => none
  | none => none

/-- Clusters not yet updated keep their former slot. -/
def Dev.keepFormer (d : Dev) (x : FwCommit) : Dev :=
  let act := x.todo.foldl (fun b c => setBit b c (x.former.toNat.testBit c)) d.sec.active
  { d with sec := { d.sec with active := act } }.writeFwSlot

/-- A cluster of the live update has been loaded. -/
def Dev.updateLoaded (d : Dev) (x : FwCommit) (c : Nat) : Dev :=
  if d.loadable x.slot c then
    ((d.runOn c x.slot).milestone 8).nextCluster { x with todo := x.todo.drop 1 }
  else ((d.loadFails c x.slot).keepFormer x).endCommit x stSignatureFail

/-- A held cluster has been loaded from its active slot (R308). -/
def Dev.heldLoaded (d : Dev) (c : Nat) : Dev :=
  let slot := d.sec.active.toNat.testBit c
  if d.loadable slot c then d.runOn c slot else d.loadFails c slot

/-- The reload of a cluster ends. -/
def Dev.reloadDone (d : Dev) (c : Nat) : Dev :=
  if d.sec.held.toNat.testBit c then d.heldLoaded c
  else match d.updating with
    | some (x, c') =>
      if c = c' ∧ (d.runningOn c x.since).isEmpty = true then d.updateLoaded x c else d
    | none => d

/-- The cluster's commands that a CLUSTER test waits for: all but the test's own. -/
def Dev.testWaitsFor (d : Dev) (y : ClusterTest) : List Exec :=
  (d.runningOn y.cluster y.since).filter (fun x => !(x.qid == y.qid && x.cid == y.cid))

/-- 100 ms after a cluster of a live update, or under a CLUSTER test, stopped fetching (R698). -/
def Dev.updateTimeout (d : Dev) (c : Nat) : Dev :=
  let d := match d.updating with
    | some (x, c') =>
      if c = c' ∧ x.startAt + 100 * msNs ≤ d.now ∧ 2 ≤ c then d.interruptRunning c x.since else d
    | none => d
  match d.life.clusterTest with
  | some y =>
    if c = y.cluster ∧ y.startAt + 100 * msNs ≤ d.now then (d.testWaitsFor y).foldl Dev.interruptCmd d else d
  | none => d

end Sys2Proof.Machine
end

