-- ==== Sys2Proof/Machine/Capability.lean ====
section
/-!
DEFINITION. What the device says of itself: capability values (21 R735, R736, 01 R33, R34) and the IDENTIFY
data (11 R408).
-/

namespace Sys2Proof.Machine

/-- MEMBER of the AU-960. -/
def member : Nat := 4

/-- Values of step BIST are reported from its end, those of step MEDIA from the end of MEDIA. -/
def Dev.pastBist (d : Dev) : Bool := decide (2 ≤ stageNum d.life.stage)
def Dev.pastMedia (d : Dev) : Bool := decide (4 ≤ stageNum d.life.stage)

def bitsSet (n x : Nat) : Nat := ((upTo n).filter x.testBit).length

def Dev.capLanes (d : Dev) : Nat := if d.pastMedia then 16 else 0
def Dev.capDies (d : Dev) : Nat := if d.pastMedia then bitsSet 8 d.lane.posMask.toNat else 0
def Dev.capMask (d : Dev) : Nat := if d.pastMedia then d.lane.posMask.toNat else 0

/-- Negotiated width in [3:0], ×16 as the maximum in [7:4]. -/
def Dev.capWidth (d : Dev) (h : Head) : Nat := (d.head h).width.toNat + 16 * 3

/-- Cache size less 3 MiB for each retired way (05 R179). -/
def Dev.capCache (d : Dev) : Nat := if d.pastBist then 48 - 3 * bitsSet 16 d.cache.retired.toNat else 0

def Dev.capEngines (d : Dev) : Nat := bool01 (d.pastBist && !d.life.noEngines)

def Dev.capZones (d : Dev) (n : Nat) : Nat := if d.pastMedia then n else 0

/-- CAP0 to CAP3 (R735). -/
def Dev.cap (d : Dev) : Nat → Nat
  | 0 => pack [(8, member), (8, Config.stepping.toNat), (8, d.capLanes), (8, d.capDies), (8, d.capMask),
      (8, d.capWidth .a), (8, d.capWidth .b), (8, 2)]
  | 1 => pack [(8, 16), (8, 4), (16, d.capCache), (1, d.capEngines), (7, 0), (8, 1), (16, 0)]
  | 2 => pack [(32, d.capZones d.life.physZones), (32, d.capZones d.life.userZones)]
  | _ => pack [(32, d.capZones d.life.spareZones), (32, d.capZones d.life.sysZones)]

/-- Running firmware version of cluster 0: that of the image it runs, whatever its slot holds now (R408, 19 R696). -/
def Dev.fwVersion (d : Dev) : Nat :=
  ((d.sec.runs.find? (fun p => p.1 == 0)).map (fun p => p.2.version.toNat)).getD 0

/-- The 4,096 B of IDENTIFY: (bytes, value) from byte 0 up, then zeros. -/
def Dev.identifyFields (d : Dev) : List (Nat × Nat) :=
  [(2, 1), (1, member), (1, Config.stepping.toNat), (1, d.capLanes), (1, d.capDies), (1, d.capMask), (1, 2),
   (1, d.capWidth .a), (1, d.capWidth .b), (1, 16), (1, 4), (2, d.capCache), (1, d.capEngines), (1, 0),
   (4, d.capZones d.life.physZones), (4, d.capZones d.life.spareZones), (4, d.capZones d.life.sysZones),
   (4, d.capZones d.life.userZones), (2, 64), (2, 4096), (2, 1008), (1, 128), (1, 32), (1, 24), (1, 8),
   (1, 32), (1, 64), (4, 196608), (4, 8192), (8, d.fwVersion), (4, 0), (16, Config.serial.toNat)]

def Dev.identifyBytes (d : Dev) : List Byte :=
  let l := d.identifyFields.flatMap (fun p => leBytes p.1 p.2)
  l ++ List.replicate (4096 - l.length) 0

end Sys2Proof.Machine
end

