-- ==== Sys2Proof/Machine/Submission.lean ====
section
/-!
DEFINITION. Doorbells, fetch and dispatch of submission entries, ORDERED, MSI-X coalescing and the admin pair
(11 R386-R407, R414-R419; 08 R312).
-/

namespace Sys2Proof.Machine

/-- Queue ID of a head's queue. -/
def qidOf (h : Head) (q : Nat) : Nat := 64 * headNum h + q

/-- The head's registers can be reached. -/
def Dev.headOn (d : Dev) (h : Head) : Bool :=
  d.life.running && !(d.head h).inReset && !(d.head h).retired

/-! ### Doorbells (R393, R394, R420) -/

/-- A doorbell of a queue that does not exist is a dead store (10 R373); outside ACTIVE it is ignored. -/
def Dev.doorbell (d : Dev) (h : Head) (q : Nat) (f : Dev → QPair → Dev) : Dev :=
  if d.headOn h = false then d
  else
    let p := d.pair (qidOf h q)
    match p.state with
    | .absent => d.lostStore h 1
    | .active => f d p
    | _ => d

def Dev.sqTail (d : Dev) (h : Head) (q tail : Nat) : Dev :=
  d.doorbell h q (fun d p =>
    if tail < p.sqDepth then d.setPair (qidOf h q) { p with sqTail := tail }
    else d.pairError (qidOf h q) 1)

def execSqTailDb (t : Nat) (h : Head) (q : Fin 64) (value : BitVec 32) (s : State) :
    Host.Outcome State Fault Refusal := s.after t (fun d => d.sqTail h q.val (fld value.toNat 0 12))

/-- Entries between two places of a ring. -/
def ringDist (depth a b : Nat) : Nat := (b + depth - a) % depth

def Dev.cqHead (d : Dev) (h : Head) (q head : Nat) : Dev :=
  d.doorbell h q (fun d p =>
    if head < p.cqDepth ∧ ringDist p.cqDepth p.cqHead head ≤ ringDist p.cqDepth p.cqHead p.cqTail then
      d.setPair (qidOf h q) { p with cqHead := head }
    else d.pairError (qidOf h q) 2)

def execCqHeadDb (t : Nat) (h : Head) (q : Fin 64) (value : BitVec 32) (s : State) :
    Host.Outcome State Fault Refusal := s.after t (fun d => d.cqHead h q.val (fld value.toNat 0 12))

/-! ### Fetch (R390, R391, R406) -/

/-- The CQ has a slot that no entry and no fetched command holds. -/
def QPair.cqRoom (p : QPair) : Bool :=
  decide (ringDist p.cqDepth p.cqHead p.cqTail + p.slots + 1 < p.cqDepth)

def QPair.fetchable (p : QPair) : Bool :=
  decide (p.state = .active) && decide (p.sqHead ≠ p.sqTail) && p.cqRoom

/-- Commands of a head fetched and not completed. -/
def Dev.inFlight (d : Dev) (h : Head) : Nat :=
  (d.q.exec.filter (fun x => decide (issuer x = h))).length +
  (upTo 64).foldl (fun n q => n + (d.pair (qidOf h q)).fetching.length) 0

def Dev.rr (d : Dev) : Head → Nat
  | .a => d.q.rrA
  | .b => d.q.rrB

def Dev.setRr (d : Dev) (h : Head) (n : Nat) : Dev :=
  match h with
  | .a => { d with q := { d.q with rrA := n } }
  | .b => { d with q := { d.q with rrB := n } }

/-- The queue whose turn it is; a round starts with the admin queue. -/
def Dev.nextQueue (d : Dev) (h : Head) : Option Nat :=
  let ok (q : Nat) : Bool := (d.pair (qidOf h q)).fetchable
  (((upTo 64).drop (d.rr h)).find? ok).orElse (fun _ => (upTo 64).find? ok)

/-- Request an entry: the slot of the CQ is reserved. -/
def Dev.fetchFrom (d : Dev) (h : Head) (q : Nat) : Dev :=
  let qid := qidOf h q
  let p := d.pair qid
  let (d, tag) := d.draw 2 h (qid * 2 ^ 24)
  let f : Fetch := { index := p.sqHead, start := d.now, seq := d.ev.headSeq, toggle := d.ev.toggle, tag := tag }
  let d := d.setPair qid { p with
    sqHead := (p.sqHead + 1) % p.sqDepth, slots := p.slots + 1, fetching := p.fetching ++ [f] }
  (d.setRr h ((q + 1) % 64)).send (.fetch qid p.sqHead)

def Dev.sqFetch (d : Dev) (h : Head) : Dev :=
  if d.headOn h && d.queuesServed && decide (d.ev.attnLevel (.head h) ≠ 7) && decide (d.inFlight h < 1024) then
    match d.nextQueue h with
    | some q => d.fetchFrom h q
    | none => d
  else d

def execSqFetch (t : Nat) (h : Head) (s : State) : Host.Outcome State Fault Refusal :=
  s.after t (fun d => d.sqFetch h)

/-! ### Opcodes (R407) -/

/-- Where an opcode may be used, and the bits of P0 to P6 that are not reserved. -/
structure OpInfo where
  admin : Bool
  early : Bool
  masks : List Nat
  deriving DecidableEq, Repr

def allBits : Nat := 2 ^ 64 - 1
def low32 : Nat := 2 ^ 32 - 1

def opInfo : Nat → Option OpInfo
  | 0x01 => some ⟨false, true, [allBits]⟩
  | 0x02 => some ⟨true, true, [0x00FFFF7FFFFFFF7F, allBits, allBits]⟩
  | 0x03 => some ⟨true, true, [0x7F]⟩
  | 0x04 => some ⟨false, true, [allBits]⟩
  | 0x05 => some ⟨false, true, [0xFFFF000F]⟩
  | 0x06 => some ⟨false, false, []⟩
  | 0x07 => some ⟨false, true, [0xFFFFFFFFFFFF, allBits]⟩
  | 0x08 => some ⟨true, false, [0x7FF]⟩
  | 0x09 => some ⟨true, true, [low32, allBits, low32]⟩
  | 0x0A => some ⟨true, true, [0x1F1]⟩
  | 0x10 => some ⟨false, false, [0xBFFFFFFF, allBits, allBits]⟩
  | 0x11 => some ⟨false, false, [0x3FF, allBits]⟩
  | 0x12 => some ⟨false, false, [0x3FF]⟩
  | 0x13 => some ⟨false, true, [0x3FF, allBits]⟩
  | 0x14 => some ⟨false, false, [0xF03FF, 0x3FFFFFFF]⟩
  | 0x15 => some ⟨false, false, [0x30303FF]⟩
  | 0x16 => some ⟨false, false, [0x3FF]⟩
  | 0x17 => some ⟨false, false, [0x3FF, allBits, allBits]⟩
  | 0x18 => some ⟨false, false, [0x3FF, allBits, allBits]⟩
  | 0x20 => some ⟨true, false, [0xFF, allBits, 0xFFFF]⟩
  | 0x21 => some ⟨true, false, [0x7F]⟩
  | 0x22 => some ⟨true, false, [0x7F03FF]⟩
  | 0x23 => some ⟨true, true, [0xF, allBits]⟩
  | 0x30 => some ⟨false, false, [0x103FF03FF, allBits, allBits, allBits, 0xFFFFFFFFFFF]⟩
  | 0x31 => some ⟨false, false, [0x3FF, allBits, allBits, allBits, allBits]⟩
  | 0x32 => some ⟨false, false, [0x3FF, allBits, allBits]⟩
  | 0x33 => some ⟨false, false, [0x3FF, allBits, allBits]⟩
  | 0x34 => some ⟨false, false, [0x3FF, allBits, allBits, allBits]⟩
  | 0x38 => some ⟨false, false, [0x1FF, allBits, low32]⟩
  | 0x39 => some ⟨false, false, [0x1FF, allBits, low32, low32]⟩
  | 0x3A => some ⟨false, false, [0x7, allBits, allBits, low32]⟩
  | 0x3B => some ⟨false, false, [0x7, allBits, low32, allBits]⟩
  | _ => none

/-- A reserved bit of the parameters is set. -/
def paramsReserved (masks : List Nat) (ps : List Word) : Bool :=
  (upTo 7).any (fun i => ((ps[i]?).getD 0).toNat &&& (allBits - lget masks i) != 0)

/-- An operand has an encoding that is reserved: KIND of SELF_TEST, PROT and OWNER of REGION_SET_ATTR, MODE and TO_HEAD of
TAKEOVER, DIGEST of OBJ_PUT (R11, R409). -/
def shardsBad (k m : Nat) : Bool :=
  decide (24 < k) || decide (8 < m) || decide (32 < k + m) || decide (k = 0 ∧ m ≠ 0) || decide (1 ≤ k ∧ m = 0)

def valueReserved (op : Nat) (ps : List Word) : Bool :=
  let f (i lo w : Nat) : Nat := fld ((ps[i]?).getD 0).toNat lo w
  match op with
  | 0x08 => decide (f 0 0 4 = 0) || decide (5 < f 0 0 4)
  | 0x15 => decide (f 0 16 2 = 3) || decide (f 0 24 2 = 0)
  | 0x14 => decide (f 1 12 2 = 3) || decide (f 1 24 2 = 0)
  | 0x30 => shardsBad (f 4 32 5) (f 4 37 4) || decide (3 < f 4 41 3)
  | _ => false

/-- Parameters that are address words (R407). -/
def addrParams : Nat → List Nat
  | 0x01 => [0]
  | 0x02 => [1, 2]
  | 0x07 | 0x09 | 0x13 | 0x20 | 0x23 | 0x38 | 0x39 => [1]
  | 0x30 | 0x31 | 0x34 => [3]
  | 0x3A => [1, 2]
  | 0x3B => [1, 3]
  | _ => []

/-- An address word has a reserved MTYPE (R11, R398, R399). -/
def mtypeReserved (op : Nat) (ps : List Word) : Bool :=
  (addrParams op).any (fun i => decide (mtype ((ps[i]?).getD 0) = 3))

/-- The status with which an entry ends at once, if it does. -/
def Dev.rejects (d : Dev) (qid op flags rsvd : Nat) (ps : List Word) : Option Nat :=
  match opInfo op with
  | none => some stInvalidOpcode
  | some i =>
    if 2 ≤ flags ∨ rsvd ≠ 0 ∨ paramsReserved i.masks ps = true ∨ valueReserved op ps = true then some stInvalidField
    else if mtypeReserved op ps = true then some stInvalidAddress
    else if i.admin ∧ qid % 64 ≠ 0 then some stInvalidQueue
    else if d.life.shutting.isSome then some stShuttingDown
    else if i.early = false ∧ d.ready = false then some stNotReady
    else if d.unavailable op = true then some stInternalUnavailable
    else if engineOp op ∧ d.life.noEngines = true then some stNotSupported
    else none

/-! ### An entry arrives (R312, R396, R404) -/

/-- The entry of a DPA ring, loaded by the device itself. -/
def Dev.ringEntry (d : Dev) (h : Head) (base : Word) (i : Nat) (ending : FetchEnd) : Dev × FetchEnd :=
  if mtype base = 1 then
    match d.liveRange h (addrOf base + 64 * i) 64 with
    | some (id, r, off) =>
      let (d, b) := d.loadRegion noAnswers r id off 64
      (d, if b.bad.isEmpty then .data (bytesSector b.bytes) else .poison)
    | none => (d, .linkError)
  else (d, ending)

/-- An entry that ends at once, under its own CID or 0xFFFF. -/
def Dev.endEntry (d : Dev) (qid cid status : Nat) (f : Fetch) : Dev :=
  let d := d.post qid cid status 0 (if cid = 0xFFFF then some f.index else none) false
  ((d.stageIf (traceTag f.tag) 3).traceEndIf (traceTag f.tag)).finishDelete qid

/-- WHO of a command's trace: opcode, CID, queue (14 R537). -/
def whoOf (tag : Option Nat) (who : Nat) (t : Trace) : Trace :=
  if traceTag tag t then { t with who := BitVec.ofNat 64 who } else t

def Dev.traceWho (d : Dev) (tag : Option Nat) (who : Nat) : Dev :=
  { d with ev := { d.ev with traces := d.ev.traces.map (whoOf tag who) } }

/-- A completion entry of a queue waits for its line (04 R133). -/
def Dev.postPending (d : Dev) (qid : Nat) : Bool :=
  d.bench.later.any (fun y => match y with
    | .post q _ _ _ _ _ => q == qid
    | _ => false)

/-- An ORDERED command waits until the completion entries of those fetched before it from its queue are visible
(R405). -/
def Dev.mayStart (d : Dev) (x : Exec) : Bool :=
  !x.ordered ||
  (!d.q.exec.any (fun y => y.qid == x.qid && y.orphan == x.orphan && decide (y.order < x.order)) &&
   !d.postPending x.qid)

def startExec (cluster : Nat) (x : Exec) (l : List Exec) : List Exec :=
  l.map (fun y => if y = x then { y with started := true, cluster := cluster } else y)

/-- The cluster that serves a queue: its own, or the sibling while that one is held or halted (08 R308, R309). -/
def Dev.servedBy (d : Dev) (qid : Nat) : Nat :=
  let home := if qid < 64 then 2 else 3
  if d.clusterDown home then 5 - home else home

/-- A command begins its work on its cluster. -/
def Dev.start (d : Dev) (x : Exec) : Dev :=
  let d := { d with q := { d.q with exec := startExec (d.servedBy x.qid) x d.q.exec } }
  d.stageIf (traceTag x.tag) 1

/-- A checked entry becomes a command. -/
def Dev.dispatch (d : Dev) (qid cid op flags : Nat) (ps : List Word) (f : Fetch) : Dev :=
  let x : Exec :=
    { qid := qid, cid := cid, opcode := op, ordered := flags.testBit 0, params := ps, started := false,
      order := d.q.order, fetchAt := f.start, orphan := false, tag := f.tag, seqAt := f.seq,
      toggleAt := f.toggle, parked := false, checked := false, cluster := 0 }
  let d := { d with q := { d.q with exec := d.q.exec ++ [x], order := d.q.order + 1 } }
  if d.mayStart x then d.start x else d

/-- The words of an entry. -/
def Dev.entryData (d : Dev) (qid : Nat) (f : Fetch) (e : Sector) : Dev :=
  let op := fld e.toNat 0 8
  let cid := fld e.toNat 16 16
  let ps := (upTo 7).map (fun i => BitVec.ofNat 64 (fld e.toNat (64 + 64 * i) 64))
  let d := (d.traceWho f.tag (pack [(8, op), (16, cid), (7, qid)])).stageIf (traceTag f.tag) 0
  if cid = 0xFFFF then d.endEntry qid 0xFFFF stInvalidField f
  else if d.q.exec.any (fun x => x.qid == qid && x.cid == cid && !x.orphan) then
    d.endEntry qid 0xFFFF stCidInUse f
  else match d.rejects qid op (fld e.toNat 8 8) (fld e.toNat 32 32) ps with
    | some st => d.endEntry qid cid st f
    | none => d.dispatch qid cid op (fld e.toNat 8 8) ps f

/-- The oldest fetch of a pair ends. -/
def Dev.entryArrive (d : Dev) (qid : Nat) (ending : FetchEnd) : Dev :=
  let p := d.pair qid
  match p.fetching with
  | [] => d
  | f :: rest =>
    let d := d.setPair qid { p with fetching := rest }
    let (d, e) := d.ringEntry (headOfQid qid) p.sqBase f.index ending
    match e with
    | .linkError => ((d.pairError qid 3).onPair qid releaseSlot).traceEndIf (traceTag f.tag)
    | .poison => d.endEntry qid 0xFFFF stPoisonConsumed f
    | .data x => d.entryData qid f x

def execSqEntryArrive (t : Nat) (qid : BitVec 7) (ending : FetchEnd) (s : State) :
    Host.Outcome State Fault Refusal :=
  s.after t (fun d => if d.life.running && d.queuesServed then d.entryArrive qid.toNat ending else d)

/-! ### ORDERED (R405) -/

def Dev.orderedStart (d : Dev) (qid cid : Nat) : Dev :=
  match d.q.exec.find? (fun x => x.qid == qid && x.cid == cid && !x.started) with
  | some x => if d.mayStart x then d.start x else d
  | none => d

def execOrderedStart (t : Nat) (qid : BitVec 7) (cid : BitVec 16) (s : State) :
    Host.Outcome State Fault Refusal :=
  s.after t (fun d => if d.life.running then d.orderedStart qid.toNat cid.toNat else d)

/-! ### MSI-X coalescing (R414) -/

def Dev.itimeExpire (d : Dev) (qid : Nat) : Dev :=
  let p := d.pair qid
  if p.ien && decide (0 < p.posted) && decide (p.itime ≠ 0) && d.due (p.oldestAt + p.itime * usNs) then
    (d.setPair qid { p with posted := 0 }).send (.msix (headOfQid qid) p.vector)
  else d

def execMsixItimeExpire (t : Nat) (qid : BitVec 7) (s : State) : Host.Outcome State Fault Refusal :=
  s.after t (fun d => d.itimeExpire qid.toNat)

/-! ### The admin pair (R387, R418, R419) -/

/-- A pair that has just become ACTIVE. -/
def newPair (sqBase cqBase : Word) (sqDepth cqDepth vector : Nat) (ien : Bool) (icount itime : Nat) : QPair :=
  { Reset.qpair with
    state := .active, sqBase := sqBase, cqBase := cqBase, sqDepth := sqDepth, cqDepth := cqDepth,
    vector := vector, ien := ien, icount := icount, itime := itime }

def Dev.admqEn (d : Dev) (h : Head) (en : Bool) : Dev :=
  let a := d.adm h
  if d.headOn h = false ∨ a.en = en then d
  else
    let qid := adminQid h
    if en then
      (d.setAdm h { a with en := true, rdy := false, enAt := d.now }).noteCfg h
    else (d.setAdm h { a with en := false, rdy := false }).deletePair qid none

def execAdmqEn (t : Nat) (h : Head) (value : BitVec 32) (s : State) : Host.Outcome State Fault Refusal :=
  s.after t (fun d => d.admqEn h (value.toNat.testBit 0))

def Dev.admqRdy (d : Dev) (h : Head) : Dev :=
  let a := d.adm h
  let c := a.cfg.toNat
  if a.en && !a.rdy && cfgOk c && d.headOn h && decide ((d.pair (adminQid h)).state = .absent) then
    (d.setAdm h { a with rdy := true }).setPair (adminQid h)
      (newPair a.sqBase a.cqBase (fld c 0 12 + 1) (fld c 12 12 + 1) (fld c 24 6) (c.testBit 30) 1 0)
  else d

def execAdmqRdy (t : Nat) (h : Head) (s : State) : Host.Outcome State Fault Refusal :=
  s.after t (fun d => d.admqRdy h)

end Sys2Proof.Machine
end

