-- ==== Sys2Proof/Machine/LaneCtl.lean ====
section
/-!
DEFINITION. Lane control, self-test of a lane or die, death of a die, restore (07 R279-R297, R300-R302, R745).
-/

namespace Sys2Proof.Machine

/-- A port by which registers are reached: a head that answers, or the sideband. -/
def Dev.portOn (d : Dev) : Port → Bool
  | .head h => d.life.running && d.headOn h
  | .sideband => d.life.running

/-! ### Take-out, TEST, RETURN (R302) -/

/-- Another lane has a tile out at a die position. -/
def Dev.otherOut (d : Dev) (lane pos : Nat) : Bool :=
  (upTo 16).any (fun i => i != lane && d.isOut i ((pos + 1) * 2 ^ 18 - 1))

/-- Die positions of a scope. -/
def Dev.scopePositions (d : Dev) (die : Option Nat) : List Nat :=
  match die with
  | some k => [k]
  | none => (upTo 8).filter d.posUsed

/-- The scope names a die at a position in use, or a lane. -/
def Dev.scopeOk (d : Dev) (die : Option Nat) : Bool :=
  match die with
  | some k => d.posUsed k
  | none => true

def Dev.opTakeOut (d : Dev) (lane : Nat) (die : Option Nat) : Dev × Nat :=
  if d.scopeOk die = false then (d, stLaneOpRefused)
  else if d.scopeState lane die ≠ .inService then (d, stSuccess)
  else if (d.scopePositions die).any (d.otherOut lane) then (d, stLaneOpRefused)
  else (d.takeOut lane die 6, stSuccess)

/-- TEST; cmd: the command that waits for the result. DESIGN CHOICE: a second TEST of a DEAD scope while the first still runs is
refused (log entry 171). -/
def Dev.opTest (d : Dev) (lane : Nat) (die : Option Nat) (cmd : Option (Nat × Nat)) : Dev × Nat :=
  if d.scopeOk die = false then (d, stLaneOpRefused)
  else match d.scopeState lane die with
    | .inService => (d, stBusyInService)
    | .detour => (d.startTest lane die cmd, stSuccess)
    | .dead =>
      if d.life.tests.any (fun r => r.lane == lane && decide (r.die = die)) then (d, stLaneOpRefused)
      else (d.startTest lane die cmd, stSuccess)
    | _ => (d, stLaneOpRefused)

/-- A scope goes to RESTORING from the first zone. -/
def Dev.startRestore (d : Dev) (lane : Nat) (die : Option Nat) : Dev :=
  ((d.setScope lane die .restoring).onLane lane (fun l => { l with cursor := 0, stripe := 0 })).laneRecord lane

def Dev.opReturn (d : Dev) (lane : Nat) (die : Option Nat) : Dev × Nat :=
  let r := (d.lane1 lane).testResult
  if d.scopeOk die = false then (d, stLaneOpRefused)
  else if (1 ≤ r ∧ r ≤ 3) ∧ d.scopeState lane die = .detour then (d.startRestore lane die, stSuccess)
  else (d, stLaneOpRefused)

/-- One LANE_CTRL operation code. -/
def Dev.laneOp (d : Dev) (op lane : Nat) (die : Option Nat) : Dev × Nat :=
  match op with
  | 1 => d.opTakeOut lane die
  | 2 => d.opTest lane die none
  | 3 => d.opReturn lane die
  | _ => (d, stLaneOpRefused)

/-- A write of LANE_CTRL (R301): the fields, and with GO the operation, its status in LAST_STATUS. -/
def Dev.writeLaneCtrl (d : Dev) (v : Nat) : Dev :=
  let d := { d with lane := { d.lane with
    ctrlLane := BitVec.ofNat 4 v, ctrlDie := BitVec.ofNat 3 (v / 16), ctrlScope := v.testBit 7,
    ctrlOp := BitVec.ofNat 2 (v / 256) } }
  if v.testBit 10 then
    let (d, st) := d.laneOp (fld v 8 2) (fld v 0 4) (if v.testBit 7 then none else some (fld v 4 3))
    { d with lane := { d.lane with lastStatus := BitVec.ofNat 12 st } }
  else d

/-- A write of LANE_CTRL whose operation is the row's. -/
def Dev.laneCtrlRow (d : Dev) (p : Port) (op : Nat) (value : BitVec 32) : Dev :=
  if d.portOn p && decide (fld value.toNat 8 2 = op) && value.toNat.testBit 10 then
    d.writeLaneCtrl value.toNat
  else d

def execLaneTakeOut (t : Nat) (p : Port) (value : BitVec 32) (s : State) : Host.Outcome State Fault Refusal :=
  s.after t (fun d => d.laneCtrlRow p 1 value)

def execLaneTest (t : Nat) (p : Port) (value : BitVec 32) (s : State) : Host.Outcome State Fault Refusal :=
  s.after t (fun d => d.laneCtrlRow p 2 value)

def execLaneReturn (t : Nat) (p : Port) (value : BitVec 32) (s : State) : Host.Outcome State Fault Refusal :=
  s.after t (fun d => d.laneCtrlRow p 3 value)

/-! ### Death of a die (R294, R295) -/

/-- A die dies: its PARITY and MIRROR zones are to retire, its FREE zones to be journalled. -/
def Dev.dieDead (d : Dev) (lane pos : Nat) : Dev :=
  if d.scopeState lane (some pos) = .dead then d
  else
    let d := d.setScope lane (some pos) .dead
    let d := d.each (d.mappedAt (· == pos)) (fun d lz =>
      match d.zoneOwner lz with
      | some (_, r, _) => if r.prot = .none then d else d.queueMove lz .retire
      | none => d)
    { d with zt := { d.zt with
        deadDue := d.zt.deadDue ++ [pos], reserve := d.zt.reserve.filter (fun z => zoneDie z != pos) } }.retireDead

/-! ### The end of a self-test (R287, R288, R745) -/

/-- Dies of the scope that failed: identification or program, or more than 4,096 bad tiles. -/
def Dev.failingDies (d : Dev) (die : Option Nat) (dieOk : Nat) (bad : List (Nat × Nat)) : List Nat :=
  (d.scopePositions die).filter (fun p =>
    !dieOk.testBit p || decide (4096 < (bad.filter (fun b => b.1 == p)).length))

/-- TEST_RESULT. -/
def testResultOf (die : Option Nat) (linkOk : Bool) (fails : List Nat) (bad : List (Nat × Nat)) : Nat :=
  if die = none ∧ linkOk = false then 4
  else if fails.isEmpty = false then 3
  else if bad.isEmpty then 1 else 2

/-- Bad tiles go into the list before restore begins, while it has room. -/
def Dev.listBadTiles (d : Dev) (bad : List (Nat × Nat)) : Dev :=
  d.each bad (fun d b =>
    let pz := b.1 * 2 ^ 18 + b.2
    if d.sys.badTiles.contains pz ∨ 32768 ≤ d.sys.badTiles.length then d else d.sysPut (.badTile pz true))

/-- The scope of a test acts on its result: every bad tile of it is listed, those of the dies that passed first. -/
def Dev.testActs (d : Dev) (lane : Nat) (die : Option Nat) (result : Nat) (fails : List Nat)
    (bad : List (Nat × Nat)) : Dev :=
  if result = 4 then d.setScope lane none .dead
  else
    let d := fails.foldl (fun d p => d.dieDead lane p) d
    let d := (d.listBadTiles (bad.filter (fun b => !fails.contains b.1))).listBadTiles
      (bad.filter (fun b => fails.contains b.1))
    if d.scopeState lane die = .dead then d
    else if d.lane.autoRepair then d.startRestore lane die
    else d.setScope lane die .detour

/-- Complete the command that waited for a test. -/
def Dev.answerTest (d : Dev) (run : TestRun) (result : Nat) : Dev :=
  match run.cmd with
  | some (qid, cid) =>
    match d.executing 0x08 qid cid with
    | some x => d.complete x stSuccess result
    | none => d
  | none => d

def Dev.selfTestDone (d : Dev) (lane : Nat) (linkOk : Bool) (dieOk : Nat) (bad : List (Nat × Nat)) : Dev :=
  match d.life.tests.find? (fun r => r.lane == lane) with
  | none => d
  | some run =>
    let d := { d with life := { d.life with tests := d.life.tests.filter (fun r => r != run) } }
    let bad := bad.filter (fun b => (d.scopePositions run.die).contains b.1)
    let fails := d.failingDies run.die dieOk bad
    let result := testResultOf run.die linkOk fails bad
    let d := d.onLane lane (fun l => { l with testResult := result })
    let d := if run.wasDead then d else d.testActs lane run.die result fails bad
    ((d.laneRecord lane).event (evLane lane 9)).answerTest run result

def execSelfTestDone (t : Nat) (lane : Fin 16) (linkOk : Bool) (dieOk : BitVec 8)
    (badTiles : List (Fin 8 × BitVec 18)) (s : State) : Host.Outcome State Fault Refusal :=
  s.after t (fun d =>
    if d.life.running then
      d.selfTestDone lane.val linkOk dieOk.toNat (badTiles.map (fun b => (b.1.val, b.2.toNat)))
    else d)

/-! ### Restore (R289-R293) -/

/-- A die position of a lane is being restored. -/
def Dev.restoring (d : Dev) (lane pos : Nat) : Bool :=
  let l := d.lane1 lane
  let st := vget .absent l.dies pos
  d.posUsed pos && (decide (st = .restoring) || (decide (l.lstate = .restoring) && decide (st = .inService)))

/-- The next zone of the scope at or after CURSOR. -/
def Dev.restoreNext (d : Dev) (lane : Nat) : Option Nat :=
  let c := (d.lane1 lane).cursor
  ((upTo 8).filter (fun p => d.restoring lane p && decide (c < (p + 1) * 2 ^ 18))).head?.map
    (fun p => max c (p * 2 ^ 18))

/-- Some scope of the lane is RESTORING. -/
def Dev.restoreOn (d : Dev) (lane : Nat) : Bool :=
  let l := d.lane1 lane
  decide (l.lstate = .restoring) || l.dies.any (fun s => decide (s = .restoring))

/-- Pass 1 of a line on the scope, which the host's reads still reach in Detour. -/
def Dev.restoreSense (d : Dev) (ans : Answers) (c : LineCtx) : Option Image :=
  if silentDie ans c.pla || !d.maySense c.pla then none else some (d.stored c.pla ^^^ noiseOf ans c.pla 1)

/-- Corrected bits of a line that confirms in pass 1. -/
def Dev.restoreGood (d : Dev) (ans : Answers) (c : LineCtx) : Option Nat :=
  match d.restoreSense ans c with
  | none => none
  | some img =>
    match d.confirm c false img with
    | .good _ _ n => some n
    | _ => none

/-- A FIRST sense of restore on a line's lane (R292). -/
def Dev.countFirst (d : Dev) (p : Pla) : Dev := (d.count (cntLane (plaLane p) 0) 1).laneBytes (plaLane p) 324 0

/-- The siblings of a line, sensed for its restore; those that confirm count towards an EARLY move (06 R255). -/
def Dev.restoreSiblings (d : Dev) (ans : Answers) (t : StripeCtx) (c : LineCtx) : Dev :=
  ((t.siblings c).foldl (fun d y => d.countFirst y.pla) d).noteSiblings ans t c false [1, 2, 3, 4, 5]

/-- A data line written back with fresh metadata, and then its stripe's parity line or its copy, formed from the images
(03 R105, 04 R143, R277). -/
def Dev.writeBackLine (d : Dev) (ans : Answers) (t : StripeCtx) (c : LineCtx) (img clean : Image) (plain : LineData) :
    Dev × ProgEnd :=
  let (d, checks) := (t.check.filter (fun y => decide (t.r.prot = .parity) || y.slot == c.slot)).foldl
    (fun (acc : Dev × List Copied) y =>
      let (d, x) := if t.r.prot = .parity then acc.1.parityFrom ans t c.pla clean else (acc.1, parityOf c.prof [clean])
      (d, acc.2 ++ [⟨y, x, 0⟩])) (d, [])
  let (d, r) := d.progLine ans c.prof c.pla img
  match d.afterProg c plain r with
  | (d, .took) => d.progLines ans checks
  | x => x

/-- Reconstruct a line and write it back onto its lane; a line that cannot be rebuilt is listed and written
as zeros (log entry 28). -/
def Dev.restoreLine (d : Dev) (ans : Answers) (t : StripeCtx) (c : LineCtx) : Dev × ProgEnd :=
  if (d.pinnedEntry c).isSome then (d, .took) else
  let v := ofVerdict c 6 (d.reconstruct ans t c false [1, 2, 3, 4, 5]).1
  let d := d.restoreSiblings ans t c
  match v with
  | some (.line cells m _ pass n) =>
    let (d, wseq) := (d.earlyIf c pass n).takeWseq t.lz
    let img := d.restamp c.pla c.prof cells m wseq
    (d.count (cntLane (plaLane c.pla) 10) 1).writeBackLine ans t c img img (d.payload c cells m)
  | _ =>
    if d.restBlank ans t c then (d.store c.pla blankImage, .took)
    else if d.recordRoom (if d.needsRecord t.region c.lineNo 2 then 1 else 0) = false then (d, .silent)
    else
      let (d, wseq) := ((d.poisonEvent c 2 6).enterPoison t.region c.lineNo 2 0xF).takeWseq t.lz
      let (d, img, clean) := d.zeroLine t c wseq false
      d.writeBackLine ans t c img clean 0

/-- The data or primary line of a stripe on the lane: rebuilt when the zone is marked, or when it does not
confirm. -/
def Dev.restoreData (d : Dev) (ans : Answers) (t : StripeCtx) (lane : Nat) (marked : Bool) : Dev × ProgEnd :=
  (t.data.filter (fun c => plaLane c.pla == lane)).foldl (fun (acc : Dev × ProgEnd) c =>
    let d := acc.1
    if t.r.prot = .none ∨ acc.2.kept = false then acc
    else if marked then d.restoreLine ans t c
    else
      let d := d.countFirst c.pla
      match d.restoreGood ans c with
      | some n => (d.earlyIf c 1 n, .took)
      | none => (d.missSenses ans c.pla 1).restoreLine ans t c) (d, .took)

/-- The poisoned-line list has room for the lines of a stripe that its parity would find unreadable (04 R175). -/
def Dev.parityListable (d : Dev) (ans : Answers) (t : StripeCtx) : Bool :=
  decide (t.r.prot = .none) || d.recordRoom (d.unreadable ans t 0 (fun _ => 2))

/-- The parity line or a copy of a stripe, from the data images (R277). -/
def Dev.recheck (d : Dev) (ans : Answers) (t : StripeCtx) (c : LineCtx) : Dev × ProgEnd :=
  let src := if t.r.prot = .mirror then t.data.filter (fun x => x.slot == c.slot) else t.data
  let (d, imgs) := src.foldl (fun (acc : Dev × List Image) x =>
    let (d, i) := (acc.1.countFirst x.pla).dataImage ans t x
    (d, acc.2 ++ [i])) (d, [])
  let img := if imgs.all (· == 0) then blankImage else parityOf c.prof imgs
  let (d, r) := d.progLine ans c.prof c.pla img
  d.afterProg c 0 r

/-- The parity line or copy of a stripe on the lane: sensed where the zone is not marked; a parity line is formed anew in
any case, a copy where it does not confirm (R289 steps 2 to 4). -/
def Dev.restoreCheck (d : Dev) (ans : Answers) (t : StripeCtx) (lane : Nat) (marked : Bool) : Dev × ProgEnd :=
  (t.check.filter (fun c => plaLane c.pla == lane)).foldl (fun (acc : Dev × ProgEnd) c =>
    let d := acc.1
    if marked then d.recheck ans t c
    else
      let d := d.countFirst c.pla
      match d.restoreGood ans c with
      | some n =>
        let d := d.earlyIf c 1 n
        if t.r.prot = .parity then d.recheck ans t c else (d, acc.2)
      | none => (d.missSenses ans c.pla 1).recheck ans t c) (d, .took)

/-- One stripe of a bound zone of the scope; whether restore may pass it. -/
def Dev.restoreStripe (d : Dev) (ans : Answers) (lz lane : Nat) (marked : Bool) (s : Nat) : Dev × Bool :=
  match d.stripe lz s with
  | some t =>
    if d.parityListable ans t = false then (d, false)
    else match d.restoreData ans t lane marked with
      | (d, r) =>
        if r.kept then
          let (d, r) := d.restoreCheck ans t lane marked
          (d, r.kept)
        else (d, false)
  | none => (d, true)

/-- The data line of a metadata stripe on the lane (R289): rebuilt where the zone is marked or the line does not
confirm; one that cannot be rebuilt is left as it is. -/
def Dev.restoreMetaData (d : Dev) (ans : Answers) (t : StripeCtx) (lane : Nat) (marked : Bool) : Dev :=
  d.each (t.data.filter (fun c => plaLane c.pla == lane)) (fun d c =>
    let d := if marked then d else d.countFirst c.pla
    if !marked && (d.restoreGood ans c).isSome then d
    else
      match ofVerdict c 6 (d.reconstruct ans t c false [1, 2, 3, 4, 5]).1 with
      | some (.line cells m _ _ _) => ((d.restoreSiblings ans t c).rewriteMeta ans t c cells m).count (cntLane lane 10) 1
      | _ => if d.restBlank ans t c then d.store c.pla blankImage else d)

/-- The parity line of a metadata stripe on the lane. -/
def Dev.restoreMetaCheck (d : Dev) (ans : Answers) (t : StripeCtx) (lane : Nat) (marked : Bool) : Dev :=
  d.each (t.check.filter (fun c => plaLane c.pla == lane)) (fun d p =>
    let d := if marked then d else d.countFirst p.pla
    let imgs := t.data.map (d.metaImage ans t)
    let d := t.data.foldl (fun d x => d.countFirst x.pla) d
    d.storeMeta ans p (if imgs.all (· == 0) then blankImage else parityOf .strong imgs))

/-- One stripe of a metadata zone of the scope. -/
def Dev.restoreMeta (d : Dev) (ans : Answers) (pz mstamp lane : Nat) (marked : Bool) (s : Nat) : Dev × Bool :=
  let t := metaStripe pz mstamp s
  ((d.restoreMetaData ans t lane marked).restoreMetaCheck ans t lane marked, true)

/-- The tile of a free zone on the lane is pre-cleared. -/
def Dev.clearTile (d : Dev) (lane pz : Nat) : Dev :=
  { d with medium := { d.medium with
      lines := d.medium.lines.filter (fun p =>
        let a : Pla := BitVec.ofNat 38 p.1
        !(plaLane a == lane && plaZone a == pz && (d.reachedBy a).isSome))
      waymarks := tset false d.medium.waymarks (tileOf lane pz) false } }

/-- Restore comes to a zone: a bad tile's zone is to retire, and the waymark block of a BOUND or METADATA zone's tile
stands (R289 step 1, 06 R224, R261). -/
def Dev.enterZone (d : Dev) (lane pz : Nat) : Dev :=
  let d :=
    if d.sys.badTiles.contains pz then
      match d.boundTo pz with
      | some lz => d.queueMove lz .retire
      | none => if d.isFree pz then d.retireZone pz else d
    else d
  if (d.boundTo pz).isSome || (d.metaStamp pz).isSome then
    { d with medium := { d.medium with waymarks := tset false d.medium.waymarks (tileOf lane pz) true } }
  else d

/-- CURSOR passes a zone, whose outage-map bit is cleared (R289 step 4, R291). -/
def Dev.passZone (d : Dev) (lane pz : Nat) : Dev :=
  let d := if d.sys.outage.contains pz then d.sysPut (.outage pz false) else d
  let d := d.onLane lane (fun l => { l with cursor := pz + 1, stripe := 0 })
  if (pz + 1) % 4096 = 0 then d.laneRecord lane else d

/-- Stripes that restore takes at once: each asks at most one sense of any lane (R292). DESIGN CHOICE: its senses and its
programs are made within the step and enter neither a lane queue nor the Bench (log entry 172). -/
def Dev.restoreWidth (d : Dev) : Nat := max 1 d.lane.restoreDepth.toNat

/-- One command of restore: the next stripes of the zone at CURSOR, and the zone's end (R289). -/
def Dev.restoreZone (d : Dev) (ans : Answers) (lane pz : Nat) : Dev :=
  let l := d.lane1 lane
  let first := if l.cursor = pz then l.stripe else 0
  let marked := d.sys.outage.contains pz
  let d := if first = 0 then d.enterZone lane pz else d
  let stripes (f : Dev → Nat → Dev × Bool) : Dev :=
    let (d, next, _) := (upTo d.restoreWidth).foldl (fun (acc : Dev × Nat × Bool) _ =>
      let (d, s, ok) := acc
      if ok && decide (s < 4096) then
        let (d, ok) := f d s
        (d, if ok then s + 1 else s, ok)
      else acc) (d, first, true)
    if d.restoreOn lane = false then d
    else if next < 4096 then d.onLane lane (fun l => { l with cursor := pz, stripe := next })
    else d.passZone lane pz
  match d.boundTo pz, d.metaStamp pz with
  | some lz, _ => stripes (fun d s => d.restoreStripe ans lz lane marked s)
  | none, some ms => stripes (fun d s => d.restoreMeta ans pz ms lane marked s)
  | none, none => (if marked then d.clearTile lane pz else d).passZone lane pz

/-- CURSOR has passed the last zone (R293); the bad-tile list is cleared of the scope's dies (R745). -/
def Dev.restoreEnd (d : Dev) (lane : Nat) : Dev :=
  let l := d.lane1 lane
  let mine := fun pz => d.restoring lane (zoneDie pz) || decide (vget .absent l.dies (zoneDie pz) = .dead)
  let d := d.each (d.sys.badTiles.filter mine) (fun d pz => d.sysPut (.badTile pz false))
  let back (s : ScopeState) : ScopeState := if s = .restoring then .inService else s
  ((d.onLane lane (fun l => { l with lstate := back l.lstate, dies := l.dies.map back })).laneRecord
    lane).event (evLane lane 1)

/-- The zone's updates in flight and a move of it, or into it, end before restore takes it. -/
def Dev.zoneQuiet (d : Dev) (pz : Nat) : Bool :=
  !d.zt.runs.any (fun m => m.source == pz || m.target == pz) &&
  (match d.boundTo pz with
  | some lz => !d.bench.updates.any (fun u => u.lzone == lz) && !d.zt.lost.contains lz
  | none => true)

def Dev.restoreStep (d : Dev) (ans : Answers) (lane : Nat) : Dev :=
  if d.background && d.restoreOn lane then
    match d.restoreNext lane with
    | some pz => if d.journalOk && d.zoneQuiet pz && d.tilesFree pz then d.restoreZone ans lane pz else d
    | none => d.restoreEnd lane
  else d

def execRestoreZone (t : Nat) (lane : Fin 16) (media : Answers) (s : State) : Host.Outcome State Fault Refusal :=
  s.afterMedia t (fun d => d.restoreStep media lane.val)

end Sys2Proof.Machine
end

