-- ==== Sys2Proof/Machine/Bist.lean ====
section
/-!
DEFINITION. BIST and what it finds (19 R688-R695, 18 R665): spares, REPAIR records, retirements, results,
and the SELF_TEST command.
-/

namespace Sys2Proof.Machine

/-! ### Units (R688, R693) -/

def bistGroup (unit : Nat) : Nat := if unit < 4096 then 0 else (unit - 0xF000) / 8

def bistPart (unit : Nat) : Nat := (unit - 0xF000) % 8

/-- What the retirement of a unit costs (R692). -/
inductive Retire where
  | way (w : Nat)
  | cluster (c : Nat)
  | engines
  | head (h : Head)
  | fail
  deriving DecidableEq, Repr

def logicRetire (group part : Nat) : Retire :=
  match group, part with
  | 1, 2 => .cluster 2
  | 1, 3 => .cluster 3
  | 1, 4 => .engines
  | 1, 5 => .engines
  | 1, 6 => .engines
  | 3, 0 => .head .a
  | 3, 1 => .head .a
  | 3, 2 => .head .b
  | 3, 3 => .head .b
  | _, _ => .fail

def retireOf (unit : BitVec 16) : Retire :=
  if unit.toNat < 4096 then
    match Config.macroUse unit with
    | .cacheWay w => .way w.val
    | .cluster c => if 2 ≤ c.val then .cluster c.val else .fail
    | .other => .fail
  else logicRetire (bistGroup unit.toNat) (bistPart unit.toNat)

/-- Lines of a way leave the cache: clean ones at once, dirty ones for the staging store as entries become free (05 R750). -/
def Dev.emptyWay (d : Dev) (w : Nat) : Dev :=
  d.each (d.cache.ways.filter (fun p => decide (p.1 % 16 = w))) (fun d p =>
    if wayDirty p.2 then
      let d := d.selectWay p.1
      if d.stagingFree then d.stageWay p.1 else d
    else d.setWay p.1 none)

def Dev.retireUnit (d : Dev) : Retire → Dev
  | .way w =>
    { d with cache := { d.cache with retired := setBit d.cache.retired w true } }.emptyWay w
  | .cluster c => { d with sec := { d.sec with halted := setBit d.sec.halted c true } }
  | .engines => { d with life := { d.life with noEngines := true } }
  | .head h => d.onHead h (fun x => { x with retired := true })
  | .fail => d

/-! ### REPAIR records (R665, R693) -/

def repairKind (p : BitVec 384) : Nat := cabFld p 2 1
def repairUnit (p : BitVec 384) : Nat := cabFld p 0 2

/-- REPAIR records of the pool, with those still to be written. -/
def Dev.repairs (d : Dev) : List (BitVec 384) :=
  poolPairs.filterMap d.cab.record ++
  (d.cab.queue ++ (d.cab.busy.map Prod.fst).toList).filterMap (fun r =>
    if r.typ.toNat = cabRepair then some r.payload else none)

/-- The lowest free pool pair. -/
def Dev.freePair (d : Dev) : Option Nat :=
  let asked := (d.cab.queue ++ (d.cab.busy.map Prod.fst).toList).map CabReq.pair
  poolPairs.find? (fun p => d.cab.pairFree p && !asked.contains p)

def Dev.putRepair (d : Dev) (pair unit kind spare addr source : Nat) : Dev :=
  let payload := cabPayload
    [(0, 2, unit), (2, 1, kind), (3, 1, spare), (4, 2, addr), (6, 1, source), (8, 8, d.wallNow)]
  { d with cab := d.cab.request (cabReq 2 pair cabRepair unit 16 payload .nothing) }

/-- The lowest free spare row or column of a macro: fuse repairs take the first. -/
def Dev.freeSpare (d : Dev) (unit : BitVec 16) (column : Bool) : Option Nat :=
  let fused := if column then (Config.fusedColumns unit).val else (Config.fusedRows unit).val
  let n := fused + (d.repairs.filter (fun p =>
    decide (repairUnit p = unit.toNat) && decide (repairKind p = if column then 2 else 1))).length
  if n < (if column then 2 else 4) then some n else none

/-- Retire a unit, and record it where the pool has a pair. -/
def Dev.bistRetire (d : Dev) (unit : BitVec 16) (source : Nat) : Dev × Nat :=
  match retireOf unit with
  | .fail => (d, 4)
  | r =>
    let d := d.retireUnit r
    match d.freePair with
    | some p => (d.putRepair p unit.toNat 3 0 0 source, 3)
    | none => (d, 3)

/-- One failure: repaired by a spare, or retired (R691, R692); the result it gives its group. -/
def Dev.bistFail (d : Dev) (f : BistFail) (source : Nat) : Dev × Nat :=
  match f.addr, d.freeSpare f.unit f.column with
  | some a, some n =>
    if 4096 ≤ f.unit.toNat then d.bistRetire f.unit source
    else match d.freePair with
      | some p => (d.putRepair p f.unit.toNat (if f.column then 2 else 1) n a.toNat source, 2)
      | none => (d.event (evPlatform 24) (detailOf [(32, f.unit.toNat)])).bistRetire f.unit source
  | _, _ => d.bistRetire f.unit source

/-- What a test leaves: the device, the worst result of each group, PASS where nothing fails, and the units that fail
and that no spare repairs. -/
structure BistRun where
  dev : Dev
  res : List Nat
  bad : List Nat

/-- All failures. -/
def Dev.bistFails (d : Dev) (l : List BistFail) (source : Nat) : BistRun :=
  l.foldl (fun (acc : BistRun) f =>
    let (d, r) := acc.dev.bistFail f source
    { dev := d, res := acc.res.modify (bistGroup f.unit.toNat) (max r),
      bad := if 3 ≤ r then acc.bad ++ [f.unit.toNat] else acc.bad }) { dev := d, res := [1, 1, 1, 1], bad := [] }

/-- The golden signature of a group: zero for group 0 (R688), the part's own for a logic group. -/
def bistGolden (g : Nat) : BitVec 256 := if g = 0 then 0 else Config.bistSignature g 0

/-- Word p of a logic group's signature: the MISR of partition p, the golden one unless it fails (R688). -/
def misrWord (g stamp : Nat) (bad : List Nat) (p : Nat) : Nat :=
  fld (if bad.contains (0xF000 + 8 * g + p) then Config.bistSignature g (stamp + 1) else bistGolden g).toNat (32 * p) 32

/-- The signature of a run: for group 0, the macro groups in which a failing cell stays; for a logic group, the MISRs of
its partitions. -/
def Dev.bistLeaves (d : Dev) (g : Nat) (bad : List Nat) : BitVec 256 :=
  if g = 0 then
    (bad.filter (fun u => decide (u < 4096))).foldl (fun s u => setBit s (Config.macroGroup (BitVec.ofNat 16 u)).val true) 0
  else BitVec.ofNat 256 (pack ((upTo 8).map (fun p => (32, misrWord g d.now bad p))))

/-- Write the golden record of a group where it is absent (log entry 77). -/
def Dev.keepGolden (d : Dev) (g : Nat) : Dev :=
  match d.cab.lookup cabBistSig g with
  | some _ => d
  | none => d.cabWrite cabBistSig g 33 (cabPayload [(0, 32, (bistGolden g).toNat)])

/-- BIST of every group: milestones, results, golden and last-result records (R688, R690). -/
def Dev.bistAll (d : Dev) (l : List BistFail) (source : Nat) : Dev :=
  let b := d.bistFails l source
  let d := (b.dev.milestone 11).when (b.res.contains 4) (·.milestone 12)
  let d := { d with life := { d.life with bistRes := b.res } }
  d.each (upTo 4) (fun d g => (d.keepGolden g).cabWrite cabBistSig (4 + g) 33
    (cabPayload [(0, 32, (d.bistLeaves g b.bad).toNat), (32, 1, lget b.res g)]))

/-! ### SELF_TEST (R694, R695) -/

/-- Ways neither retired nor scratch, in the twelve blocks of 1,024 sets, way by way. -/
def CacheBlock.toTest (c : CacheBlock) (l : List (Nat × Nat)) : List (Nat × Nat) :=
  l.filter (fun p => !c.retired.toNat.testBit p.1 && !c.isScratch (1024 * p.2) p.1)

def everyBlock : List (Nat × Nat) := (upTo 16).flatMap (fun w => (upTo 12).map (fun b => (w, b)))

/-- A dirty line of a way in a block, or one that is on its way to the medium. -/
def Dev.blockBusy (d : Dev) (way block : Nat) : Bool :=
  d.cache.ways.any (fun p => match p.2 with
    | some w => inBlock way block p.1 &&
        (w.dirty != 0 || d.bench.entries.any (fun e => decide (e.key = .user w.region w.line)))
    | none => false)

/-- The block is flushed: its march test runs, and behind a way's last block the failing macros of the way are repaired
or the way is retired. -/
def Dev.blockTested (d : Dev) (y : WayTest) (l : List BistFail) (way block : Nat) : Dev :=
  let d := { d with cache := { d.cache with ways := d.cache.ways.filter (fun p => !inBlock way block p.1) } }
  let (d, res) :=
    if y.todo.tail.any (fun p => p.1 == way) then (d, y.res)
    else
      let b := d.bistFails (l.filter (fun f =>
        decide (f.unit.toNat < 4096) && decide (retireOf f.unit = .way way))) 3
      (b.dev, max y.res (lget b.res 0))
  let todo := d.cache.toTest y.todo.tail
  let d := { d with cache := { d.cache with testing := some { y with todo := todo, res := res } } }
  (d.when (!todo.isEmpty) (fun d => match todo with
    | (w, b) :: _ => d.addWork (.wayFlush w b)
    | [] => d)).nextWork

/-- A CACHE_WAYS test goes on as far as its FLUSHes have ended, which the maintenance engine runs in turn with its other
work; n: the blocks it may pass. -/
def Dev.testWays (d : Dev) (x : Exec) (l : List BistFail) : Nat → Dev
  | 0 => d
  | n + 1 =>
    match d.cache.testing with
    | none => d
    | some y =>
      match y.todo with
      | [] => { d with cache := { d.cache with testing := none } }.complete x stSuccess y.res
      | (w, b) :: _ =>
        if d.working (.wayFlush w b) = false then d
        else if d.blockBusy w b then d.blockSelect w b
        else (d.blockTested y l w b).testWays x l n

/-- CACHE_WAYS begins. -/
def Dev.startWays (d : Dev) (x : Exec) : Dev :=
  let todo := d.cache.toTest everyBlock
  let d := { d with cache := { d.cache with
    testing := some { qid := x.qid, cid := x.cid, todo := todo, res := 1 } } }
  match todo with
  | (w, b) :: _ => d.addWork (.wayFlush w b)
  | [] => d

/-- The cluster that a unit belongs to. -/
def clusterOf (unit : BitVec 16) : Option Nat :=
  if unit.toNat < 4096 then
    match Config.macroUse unit with
    | .cluster c => some c.val
    | _ => none
  else if bistGroup unit.toNat = 1 ∧ bistPart unit.toNat < 4 then some (bistPart unit.toNat) else none

/-- The tests of a cluster's memories and logic; the cluster loads its slot again unless it is halted (R309, R698). -/
def Dev.runClusterTest (d : Dev) (x : Exec) (c : Nat) (l : List BistFail) : Dev :=
  let b := d.bistFails (l.filter (fun f => decide (clusterOf f.unit = some c))) 3
  let d := { b.dev with life := { b.dev.life with clusterTest := none } }
  let d := if d.clusterDown c then d else d.heldLoaded c
  d.complete x stSuccess (max (lget b.res 0) (lget b.res 1))

/-- CLUSTER: a cluster in service is held once the commands it runs have ended (R698). -/
def Dev.testCluster (d : Dev) (x : Exec) (l : List BistFail) : Dev :=
  match d.life.clusterTest with
  | some y => if (d.testWaitsFor y).isEmpty then d.runClusterTest x y.cluster l else d
  | none => d

/-- CLUSTER begins: clusters 0 and 1 are tested only while they are out of service. -/
def Dev.startCluster (d : Dev) (x : Exec) (c : Nat) (l : List BistFail) : Dev :=
  if 4 ≤ c then d.complete x stInvalidField 0
  else if c < 2 ∧ d.clusterDown c = false then d.complete x stBusyInService 0
  else
    let y : ClusterTest := { qid := x.qid, cid := x.cid, cluster := c, since := d.q.order, startAt := d.now }
    { d with life := { d.life with clusterTest := some y } }.testCluster x l

/-- LANE and DIE: the decisions of R302; the command waits for the test. -/
def Dev.testScope (d : Dev) (x : Exec) (lane : Nat) (die : Option Nat) : Dev :=
  let (d, st) := d.opTest lane die (some (x.qid, x.cid))
  if st = stSuccess then d else d.complete x st 0

/-- Commands whose in-service tests run. -/
def Dev.testers (d : Dev) : List (Nat × Nat) :=
  d.life.tests.filterMap TestRun.cmd ++ (d.cache.testing.map (fun y => (y.qid, y.cid))).toList ++
  (d.life.clusterTest.map (fun y => (y.qid, y.cid))).toList

/-- SELF_TEST: a test that runs goes on, and a second command is turned away. -/
def Dev.selfTest (d : Dev) (x : Exec) (l : List BistFail) : Dev :=
  if d.testers.contains (x.qid, x.cid) then (d.testWays x l 193).testCluster x l
  else if d.testers.isEmpty = false then d.complete x stBusyInService 0
  else match x.pn 0 0 4 with
    | 1 => d.testScope x (x.pn 0 4 4) none
    | 2 => d.testScope x (x.pn 0 4 4) (some (x.pn 0 8 3))
    | 3 => { d with life := { d.life with bistNext := true } }.complete x stSuccess 0
    | 4 => (d.startWays x).testWays x l 193
    | 5 => d.startCluster x (x.pn 0 4 4) l
    | _ => d.complete x stInvalidField 0

def execSelfTest (t : Nat) (qid : BitVec 7) (cid : BitVec 16) (bist : List BistFail) (s : State) :
    Host.Outcome State Fault Refusal :=
  s.after t (fun d => d.command 0x08 qid cid (fun d x => d.selfTest x bist))

end Sys2Proof.Machine
end

