-- ==== Sys2Proof/Machine/Commands.lean ====
section
/-!
DEFINITION. Native commands 0x01 to 0x0A (11 R407-R416): IDENTIFY, queue pairs, SET_TIME, WATCH, BARRIER,
EVENT_READ, and firmware (19 R696). SELF_TEST is in Bist.
-/

namespace Sys2Proof.Machine

/-! ### Commands that write a buffer -/

/-- Store a command's result bytes, and complete it (R376, R399, 04 R133, R167). -/
def Dev.deliver (d : Dev) (ans : Answers) (x : Exec) (w : Word) (bs : List Byte) (result : Nat) : Dev :=
  if d.saveRefused (issuer x) w bs.length then d.refuse x
  else
    let (d, dead) := d.saveCmd ans x w bs
    d.complete x (lostStatus dead) (if dead then 0 else result)

/-! ### IDENTIFY (R408) -/

def Dev.identify (d : Dev) (x : Exec) : Dev :=
  if d.bufferOk (issuer x) (x.p 0) 4096 then d.deliver noAnswers x (x.p 0) d.identifyBytes 0
  else d.complete x stInvalidAddress 0

def execIdentify (t : Nat) (qid : BitVec 7) (cid : BitVec 16) (s : State) : Host.Outcome State Fault Refusal :=
  s.after t (fun d => d.command 0x01 qid cid Dev.identify)

/-! ### Queue pairs (R387, R415, R416) -/

/-- The named pair is an I/O pair of the issuing head. -/
def ioPair (x : Exec) (q : Nat) : Bool := decide (q / 64 = x.qid / 64) && decide (q % 64 ≠ 0)

/-- A ring lies in host memory or in the DPA space and starts on a 4 KiB boundary (R388). -/
def ringField (w : Word) : Bool := decide (addrOf w % 4096 = 0) && decide (mtype w ≠ 2)

def Dev.createQpair (d : Dev) (x : Exec) : Dev :=
  let q := x.pn 0 0 7
  let sd := x.pn 0 8 12
  let cd := x.pn 0 20 12
  if ioPair x q = false ∨ (d.pair q).state ≠ .absent then d.complete x stInvalidQueue 0
  else if sd = 0 ∨ cd = 0 ∨ ringField (x.p 1) = false ∨ ringField (x.p 2) = false then
    d.complete x stInvalidField 0
  else if d.bufferOk (issuer x) (x.p 1) (64 * (sd + 1)) && d.bufferOk (issuer x) (x.p 2) (16 * (cd + 1)) then
    (d.setPair q (newPair (x.p 1) (x.p 2) (sd + 1) (cd + 1) (x.pn 0 32 6) ((x.p 0).toNat.testBit 38)
      (x.pn 0 40 8) (x.pn 0 48 8))).complete x stSuccess 0
  else d.complete x stInvalidAddress 0

def execCreateQpair (t : Nat) (qid : BitVec 7) (cid : BitVec 16) (s : State) :
    Host.Outcome State Fault Refusal :=
  s.after t (fun d => d.command 0x02 qid cid Dev.createQpair)

/-- DELETE_QPAIR waits for the pair's commands; it completes with them (R416). -/
def Dev.deleteQpair (d : Dev) (x : Exec) : Dev :=
  let q := x.pn 0 0 7
  let p := d.pair q
  if p.deleter = some (x.qid, x.cid) then d
  else if ioPair x q = false ∨ p.state = .absent ∨ p.state = .deleting then d.complete x stInvalidQueue 0
  else d.deletePair q (some (x.qid, x.cid))

def execDeleteQpair (t : Nat) (qid : BitVec 7) (cid : BitVec 16) (s : State) :
    Host.Outcome State Fault Refusal :=
  s.after t (fun d => d.command 0x03 qid cid Dev.deleteQpair)

/-! ### SET_TIME (R413) -/

def Dev.setTimeCmd (d : Dev) (x : Exec) : Dev :=
  let ns := (x.p 0).toNat
  if ns = 0 then d.complete x stInvalidField 0
  else
    let d := d.takeTime ns
    d.complete x stSuccess d.therm.offCase.toNat

def execSetTime (t : Nat) (qid : BitVec 7) (cid : BitVec 16) (s : State) : Host.Outcome State Fault Refusal :=
  s.after t (fun d => d.command 0x04 qid cid Dev.setTimeCmd)

/-! ### WATCH (R411, R412) -/

def Dev.park (d : Dev) (x : Exec) : Dev :=
  let l := d.q.exec.map (fun (y : Exec) => if y = x then { y with parked := true } else y)
  { d with q := { d.q with exec := l } }

/-- A WATCH ends at once when something has changed since its fetch, else it is parked; a ninth is
refused. -/
def Dev.watchCmd (d : Dev) (x : Exec) : Dev :=
  if x.parked then d
  else if d.watchChanged x then d.complete x stSuccess (watchResult d false)
  else if 8 ≤ d.watches (issuer x) then d.complete x stWatchLimit 0
  else d.park x

def execWatch (t : Nat) (qid : BitVec 7) (cid : BitVec 16) (s : State) : Host.Outcome State Fault Refusal :=
  s.after t (fun d => d.command 0x05 qid cid Dev.watchCmd)

def Dev.watchExpire (d : Dev) (x : Exec) : Dev :=
  let n := x.pn 0 16 16
  if x.parked && decide (n ≠ 0) && d.due (x.fetchAt + n * 10 * msNs) then
    d.complete x stSuccess (watchResult d true)
  else d

def execWatchTimeout (t : Nat) (qid : BitVec 7) (cid : BitVec 16) (s : State) :
    Host.Outcome State Fault Refusal :=
  s.after t (fun d => d.command 0x05 qid cid Dev.watchExpire)

/-! ### BARRIER (10 R371-R375) -/

/-- The counts are reported and start again at 0; a barrier whose completion is discarded reports to none, and leaves them
(R374). -/
def Dev.barrier (d : Dev) (x : Exec) : Dev :=
  let h := issuer x
  let lost := (d.head h).lost
  let refused := (d.head h).refused
  let st := if 0 < lost then stBarrierLostStore else if 0 < refused then stExposedReadOnly else stSuccess
  (if x.orphan then d else d.onHead h (fun y => { y with lost := 0, refused := 0 })).complete x st (lost + refused * 65536)

def execBarrier (t : Nat) (qid : BitVec 7) (cid : BitVec 16) (s : State) : Host.Outcome State Fault Refusal :=
  s.after t (fun d => d.command 0x06 qid cid Dev.barrier)

/-! ### EVENT_READ (14 R520, R522) -/

def logBytes (r : LogRec) : List Byte :=
  leBytes 4 r.seq.toNat ++ leBytes 2 (r.src + 1024 * r.level + 8192 * r.kind) ++
  leBytes 1 (bool01 r.asserted) ++ leBytes 1 0 ++ leBytes 8 r.stamp ++ leBytes 8 r.last ++
  leBytes 4 r.count ++ leBytes 4 0 ++ leBytes 32 r.detail.toNat

/-- Records from a sequence on, oldest first. -/
def EventBlock.from (e : EventBlock) (first : BitVec 32) (n : Nat) : List LogRec :=
  ((e.log.filter (fun r => !seqLater first r.seq)).reverse).take n

def Dev.eventRead (d : Dev) (x : Exec) : Dev :=
  let first := BitVec.ofNat 32 (x.pn 0 0 32)
  let n := x.pn 0 32 16
  if n = 0 ∨ 4096 < n ∨ seqLater first (d.ev.headSeq + 1) = true then d.complete x stInvalidField 0
  else
    let l := d.ev.from first n
    let next := match l.getLast? with
      | some r => (r.seq + 1).toNat
      | none => first.toNat
    let bs := l.flatMap logBytes
    if d.bufferOk (issuer x) (x.p 1) (64 * n) then
      d.deliver noAnswers x (x.p 1) bs (l.length + 65536 * next)
    else d.complete x stInvalidAddress 0

def execEventRead (t : Nat) (qid : BitVec 7) (cid : BitVec 16) (s : State) : Host.Outcome State Fault Refusal :=
  s.after t (fun d => d.command 0x07 qid cid Dev.eventRead)

/-! ### Firmware (19 R696) -/

def Dev.fwDownload (d : Dev) (x : Exec) (host : List HostBytes) : Dev :=
  let off := x.pn 0 0 32
  let n := x.pn 2 0 32
  if n = 0 ∨ n % 4096 ≠ 0 ∨ 2 ^ 25 < off + n then d.complete x stInvalidField 0
  else if d.bufferOk (issuer x) (x.p 1) n = false then d.complete x stInvalidAddress 0
  else
    let (d, b) := d.load host noAnswers (issuer x) (x.p 1) n
    if b.macFail then d.complete x stMacFail 0
    else if b.bad.isEmpty = false then d.complete x stPoisonConsumed 0
    else (d.downloadFw off b.bytes).complete x stSuccess 0

def execFwDownload (t : Nat) (qid : BitVec 7) (cid : BitVec 16) (host : List HostBytes) (s : State) :
    Host.Outcome State Fault Refusal :=
  s.after t (fun d => d.command 0x09 qid cid (fun d x => d.fwDownload x host))

/-- FW_COMMIT runs once; a live update under way goes on by the cluster reloads. -/
def Dev.fwCommit (d : Dev) (x : Exec) : Dev :=
  match d.sec.commit with
  | some c => if c.asker = .cmd x.qid x.cid then d else d.complete x stBusyInService 0
  | none =>
    d.commitFw (.cmd x.qid x.cid) ((x.p 0).toNat.testBit 0) (BitVec.ofNat 4 (x.pn 0 4 4))
      ((x.p 0).toNat.testBit 8)

def execFwCommit (t : Nat) (qid : BitVec 7) (cid : BitVec 16) (s : State) : Host.Outcome State Fault Refusal :=
  s.after t (fun d => d.command 0x0A qid cid Dev.fwCommit)

end Sys2Proof.Machine
end

