-- ==== Sys2Proof/Machine/Mailbox.lean ====
section
/-!
DEFINITION. The primary mailbox of a head (09 R330): event logs and their interrupt policy (R347), firmware
(19 R696), time, logs, identification, health and alerts (R346), label storage, the poison list (R349).
-/

namespace Sys2Proof.Machine

/-- A head's mailbox is reachable. -/
def Dev.boxOn (d : Dev) (h : Head) : Bool :=
  d.life.running && !(d.head h).inReset && !(d.head h).retired

/-- A mailbox command and its reply. -/
def Dev.mailbox (d : Dev) (h : Head) (f : Dev → Dev × Reply) : Dev :=
  if d.boxOn h then
    let (d, r) := f d
    d.send (.mailbox h .success r)
  else d

/-- A mailbox command that only reports. -/
def Dev.report (d : Dev) (h : Head) (r : Dev → Reply) : Dev := d.mailbox h (fun d => (d, r d))

def Dev.unsupported (d : Dev) (h : Head) : Dev :=
  if d.boxOn h then d.send (.mailbox h .unsupported .none) else d

/-! ### What a head advertises (R329) -/

inductive CxlFeature where
  | type3 | multiLogical | io | mem | cache | backInvalidate | dynamicCapacity | flitModes | widthsAndRates | hdmDecoders
  | poison | persistent | gpf | ideContainment | ideSkid | cdat | resets | mailbox | memoryEvents | scanSanitizeErase
  | injectClearPoison | backgroundOperation
  deriving DecidableEq, Repr

/-- Features that a head supports; it advertises no other. -/
def CxlFeature.supported : CxlFeature → Bool
  | .multiLogical | .cache | .backInvalidate | .dynamicCapacity | .ideSkid | .scanSanitizeErase | .injectClearPoison => false
  | _ => true

/-- A DSMAS entry of a head's CDAT, one for each region: its handle, window and persistence. -/
structure Dsmas where
  handle      : Nat
  base        : Nat
  length      : Nat
  nonVolatile : Bool
  deriving DecidableEq, Repr

/-- The DSMAS entries of a head. DESIGN CHOICE: regions that hold a window and that it owns (log entry 179). -/
def Dev.cdat (d : Dev) (h : Head) : List Dsmas :=
  d.regionsL.filterMap (fun p =>
    if p.2.typ = .direct ∧ ownsRegion h p.2 = true then
      some { handle := p.1, base := p.2.dpaBase, length := p.2.dpaSize, nonVolatile := true }
    else none)

/-- DSLBIS: the latencies, in ns, of a read from media and of a write, and a head's bandwidth in GB/s, as the device
architecture gives them (01 R30). -/
structure Dslbis where
  readNs    : Nat
  writeNs   : Nat
  bandwidth : Nat
  deriving DecidableEq, Repr

def dslbis : Dslbis := { readNs := 310, writeNs := 60, bandwidth := 100 }

/-! ### Events (R347) -/

/-- Persistent capacity of a head (R338): the end of its highest window, in multiples of 256 MiB. -/
def Dev.capacity (d : Dev) (h : Head) : Nat :=
  let top := d.regionsL.foldl (fun m p =>
    if p.2.typ = .direct ∧ ownsRegion h p.2 = true then max m (p.2.dpaBase + p.2.dpaSize) else m) 0
  ceilDiv top (2 ^ 28) * 2 ^ 28

/-- A change of capacity posts a Memory Module Event. -/
def Dev.updateCapacity (d : Dev) (h : Head) : Dev :=
  let c := d.capacity h
  if (d.head h).capacity = c then d
  else (d.onHead h (fun x => { x with capacity := c })).moduleEvent h .informational

def Dev.updateCapacities (d : Dev) : Dev := (d.updateCapacity .a).updateCapacity .b

def HeadSt.logOf (x : HeadSt) (log : CxlLog) : List CxlRec := x.logs.filter (fun r => decide (r.log = log))

def execGetEventRecords (t : Nat) (h : Head) (log : CxlLog) (s : State) : Host.Outcome State Fault Refusal :=
  s.after t (fun d => d.report h (fun d =>
    .events ((d.head h).logOf log) (lget (d.head h).overflow (logIndex log))))

/-- Records named by handle leave the log; no handle clears all of it. The log's overflow count restarts. -/
def clearRecords (log : CxlLog) (handles : List (BitVec 16)) (x : HeadSt) : HeadSt :=
  let gone (r : CxlRec) : Bool :=
    decide (r.log = log) && (handles.isEmpty || handles.any (fun k => k.toNat == r.handle % 65536))
  { x with logs := x.logs.filter (fun r => !gone r), overflow := x.overflow.set (logIndex log) 0 }

def execClearEventRecords (t : Nat) (h : Head) (log : CxlLog) (handles : List (BitVec 16)) (s : State) :
    Host.Outcome State Fault Refusal :=
  s.after t (fun d => d.mailbox h (fun d => (d.onHead h (clearRecords log handles), .none)))

def execGetEventInterruptPolicy (t : Nat) (h : Head) (s : State) : Host.Outcome State Fault Refusal :=
  s.after t (fun d => d.report h (fun d => .policy (d.head h).policy))

def execSetEventInterruptPolicy (t : Nat) (h : Head) (policy : BitVec 32) (s : State) :
    Host.Outcome State Fault Refusal :=
  s.after t (fun d => d.mailbox h (fun d => (d.onHead h (fun x => { x with policy := policy }), .none)))

/-! ### Firmware (19 R696) -/

def execGetFwInfo (t : Nat) (h : Head) (s : State) : Host.Outcome State Fault Refusal :=
  s.after t (fun d => d.report h (fun d =>
    .fwInfo (d.sec.runSlot.toNat.testBit 0) (d.sec.active.toNat.testBit 0)
      (d.sec.fw0.map FwImage.version) (d.sec.fw1.map FwImage.version)))

/-- Transfer FW runs as the mailbox's background operation (09 R329). DESIGN CHOICE: it ends within the step that starts it
(log entry 177). -/
def Dev.transferFw (d : Dev) (h : Head) (offset : Nat) (bytes : List Byte) : Dev :=
  ((d.send (.mailbox h .started .none)).downloadFw offset bytes).send (.backgroundDone h .success)

def execTransferFw (t : Nat) (h : Head) (offset : BitVec 32) (bytes : List Byte) (s : State) :
    Host.Outcome State Fault Refusal :=
  s.after t (fun d => if d.boxOn h then d.transferFw h offset.toNat bytes else d)

def execActivateFw (t : Nat) (h : Head) (slot : Bool) (mask : BitVec 4) (activate : Bool) (s : State) :
    Host.Outcome State Fault Refusal :=
  s.after t (fun d => if d.boxOn h then d.commitFw (.box h) slot mask activate else d)

/-! ### Time and logs -/

def execGetTimestamp (t : Nat) (h : Head) (s : State) : Host.Outcome State Fault Refusal :=
  s.after t (fun d => d.report h (fun d => .timestamp d.wallNow))

/-- Set Timestamp is taken as a SET_TIME, whose value 0 changes nothing (11 R413). -/
def Dev.setTimestamp (d : Dev) (h : Head) (ns : Nat) : Dev :=
  if d.boxOn h then
    if ns = 0 then d.send (.mailbox h (.status stInvalidField) .none)
    else (d.takeTime ns).send (.mailbox h .success .none)
  else d

def execSetTimestamp (t : Nat) (h : Head) (ns : Word) (s : State) : Host.Outcome State Fault Refusal :=
  s.after t (fun d => d.setTimestamp h ns.toNat)

def execGetSupportedLogs (t : Nat) (h : Head) (s : State) : Host.Outcome State Fault Refusal :=
  s.after t (fun d => d.report h (fun _ => .logs ["CEL"]))

/-- The commands of R330 that the mailbox supports. -/
def celNames : List String :=
  ["Get Event Records", "Clear Event Records", "Get Event Interrupt Policy", "Set Event Interrupt Policy",
   "Get FW Info", "Transfer FW", "Activate FW", "Get Timestamp", "Set Timestamp", "Get Supported Logs",
   "Get Log", "Identify Memory Device", "Get Partition Info", "Get Health Info", "Get Alert Configuration",
   "Set Alert Configuration", "Get LSA", "Set LSA", "Get Poison List"]

def execGetLog (t : Nat) (h : Head) (s : State) : Host.Outcome State Fault Refusal :=
  s.after t (fun d => d.report h (fun _ => .cel celNames))

/-! ### Identification, health and alerts (R338, R346) -/

def execIdentifyMemoryDevice (t : Nat) (h : Head) (s : State) : Host.Outcome State Fault Refusal :=
  s.after t (fun d => d.report h (fun d => .identify 0 (d.capacity h) 131072))

def execGetPartitionInfo (t : Nat) (h : Head) (s : State) : Host.Outcome State Fault Refusal :=
  s.after t (fun d => d.report h (fun d => .partition 0 (d.capacity h)))

def execSetPartitionInfo (t : Nat) (h : Head) (s : State) : Host.Outcome State Fault Refusal :=
  s.after t (fun d => d.unsupported h)

def execGetHealthInfo (t : Nat) (h : Head) (s : State) : Host.Outcome State Fault Refusal :=
  s.after t (fun d => d.report h (fun d => .health (d.ev.attnLevel (.head h)) d.lifetime.dirty))

def execGetAlertConfiguration (t : Nat) (h : Head) (s : State) : Host.Outcome State Fault Refusal :=
  s.after t (fun d => d.report h (fun d => .alerts (d.head h).alerts))

def execSetAlertConfiguration (t : Nat) (h : Head) (cfg : Word) (s : State) :
    Host.Outcome State Fault Refusal :=
  s.after t (fun d => d.mailbox h (fun d => (d.onHead h (fun x => { x with alerts := cfg }), .none)))

/-! ### Label storage: 128 KiB for each head, in a SYSTEM region. DESIGN CHOICE: what reaches past its end is left out
(log entry 146). -/

def labelSize : Nat := 2 ^ 17

def Dev.labels (d : Dev) : Head → Memory
  | .a => d.sys.labelA
  | .b => d.sys.labelB

def execGetLsa (t : Nat) (h : Head) (offset length : Nat) (s : State) : Host.Outcome State Fault Refusal :=
  s.after t (fun d => d.report h (fun d => .bytes (readBytes (d.labels h) offset (min length (labelSize - offset)))))

def execSetLsa (t : Nat) (h : Head) (offset : Nat) (bytes : List Byte) (s : State) :
    Host.Outcome State Fault Refusal :=
  s.after t (fun d => d.mailbox h (fun d =>
    (d.each (storePieces offset (bytes.take (labelSize - offset))) (fun d p => d.sysPut (.label (decide (h = .b)) p.1 p.2)), .none)))

/-! ### The poison list (R349) -/

/-- Poisoned sectors of a line in the list or in the cache, with their causes, DEADLINE answers left out. -/
def Dev.poisonOf (d : Dev) (r : Region) (region line : Nat) : List (Nat × Nat) :=
  (upTo 4).filterMap (fun s =>
    if hasSec (d.listed region line) s then some (s, d.listedCause region line s)
    else match d.findWay r region line with
      | some (_, w) =>
        if hasSec w.poison s && hasSec w.valid s && decide (lget w.cause s ≠ 4) then some (s, lget w.cause s)
        else none
      | none => none)

/-- Lines of a region that the list or the cache may name. -/
def Dev.poisonLines (d : Dev) (region : Nat) : List Nat :=
  ((d.sys.poison.filter (fun p => p.region == region)).map PoisonRec.line ++
   d.cache.ways.filterMap (fun p => match p.2 with
     | some w => if w.region = region ∧ w.poison ≠ 0 then some w.line else none
     | none => none)).eraseDups

/-- The entry of a line in the poison list. DESIGN CHOICE: where its sectors carry several causes, the first one's gives the
source (log entry 178). -/
def poisonEntry (r : Region) (line : Nat) (l : List (Nat × Nat)) : List (Nat × Nat × PoisonSource) :=
  match l with
  | [] => []
  | (s, c) :: _ =>
    let last := l.foldl (fun m p => max m p.1) s
    [(r.dpaBase + 256 * line + 64 * s, last + 1 - s, if c = 6 ∨ c = 5 then .inside else .unknown)]

def Dev.poisonList (d : Dev) (h : Head) : List (Nat × Nat × PoisonSource) :=
  d.regionsL.flatMap (fun p =>
    if p.2.typ = .direct ∧ ownsRegion h p.2 = true then
      (d.poisonLines p.1).flatMap (fun line => poisonEntry p.2 line (d.poisonOf p.2 p.1 line))
    else [])

def execGetPoisonList (t : Nat) (h : Head) (s : State) : Host.Outcome State Fault Refusal :=
  s.after t (fun d => d.report h (fun d => .poison (d.poisonList h)))

/-- Every other opcode. -/
def execMailboxUnsupported (t : Nat) (h : Head) (_opcode : BitVec 16) (s : State) :
    Host.Outcome State Fault Refusal := s.after t (fun d => d.unsupported h)

end Sys2Proof.Machine
end

