-- ==== Sys2Proof/Machine/Regions.lean ====
section
/-!
DEFINITION. Region commands (09 R337-R352, 11 R409, R410, 12 R422-R424, 15 R565) and DISCARD (06 R258-R264).
-/

namespace Sys2Proof.Machine

/-! ### Checks that every command on a region makes -/

/-- Slots of every key the region's lines may expect are LOADED (15 R566). -/
def Dev.regionKeyed (d : Dev) (r : Region) : Bool :=
  d.keyLoaded r.keyId && (match r.rekey with
    | some q => d.keyLoaded q.oldKey && d.keyLoaded q.newKey
    | none => true)

/-- REGION_LOCKED and KEY_NOT_LOADED (R316, R566). -/
def Dev.regionBlock (d : Dev) (r : Region) : Option Nat :=
  if r.locked then some stRegionLocked
  else if d.regionKeyed r = false then some stKeyNotLoaded
  else none

/-- The command's region, P0 [9:0]; absent regions end it. -/
def Dev.onRegion (d : Dev) (x : Exec) (f : Dev → Nat → Region → Dev) : Dev :=
  let id := x.pn 0 0 10
  match d.region id with
  | none => d.complete x stInvalidRegion 0
  | some r => f d id r

/-- The command's region, owned by the issuing head. -/
def Dev.onOwned (d : Dev) (x : Exec) (f : Dev → Nat → Region → Dev) : Dev :=
  d.onRegion x (fun d id r =>
    if ownsRegion (issuer x) r then f d id r else d.complete x stNotOwner 0)

/-- The command's region, owned, neither locked down nor without its key. -/
def Dev.onUsable (d : Dev) (x : Exec) (f : Dev → Nat → Region → Dev) : Dev :=
  d.onOwned x (fun d id r =>
    match d.regionBlock r with
    | some st => d.complete x st 0
    | none => f d id r)

/-! ### Attribute words (R409) -/

def typCode : RegionType → Nat
  | .direct => 0
  | .index => 1
  | .heap => 2
  | .system => 3

def protCode : Prot → Nat
  | .parity => 0
  | .mirror => 1
  | .none => 2

def ownerCode : Owner → Nat
  | .a => 1
  | .b => 2
  | .both => 3

def typOf : Nat → Option RegionType
  | 0 => some .direct
  | 1 => some .index
  | 2 => some .heap
  | _ => none

def protOf : Nat → Option Prot
  | 0 => some .parity
  | 1 => some .mirror
  | 2 => some .none
  | _ => none

def ownerOf : Nat → Option Owner
  | 1 => some .a
  | 2 => some .b
  | 3 => some .both
  | _ => none

def attrWord (id : Nat) (r : Region) : Nat :=
  pack [(10, id), (2, typCode r.typ), (2, protCode r.prot), (1, bool01 (decide (r.profile = .light))),
    (1, bool01 r.mac), (7, r.keyId), (1, bool01 r.lockOnMac), (2, ownerCode r.owner), (3, r.rclass),
    (1, bool01 r.xovr), (1, bool01 r.locked), (1, 0)]

/-- A region as an attribute word describes it, of no zones yet; none for a reserved value or a combination
that R341, R422, R559 do not allow. -/
def regionOf (w : Nat) : Option Region :=
  match typOf (fld w 10 2), protOf (fld w 12 2), ownerOf (fld w 24 2) with
  | some typ, some prot, some owner =>
    let r : Region :=
      { typ := typ, prot := prot, profile := if w.testBit 14 then .light else .strong,
        mac := w.testBit 15, keyId := fld w 16 7, lockOnMac := w.testBit 23, owner := owner,
        rclass := fld w 26 3, xovr := w.testBit 29, locked := false, extents := [], dpaBase := 0,
        dpaSize := 0, rekey := none }
    if (r.lockOnMac = true ∧ r.mac = false) ∨ (r.xovr = true ∧ (typ ≠ .direct ∨ prot ≠ .none))
        ∨ (typ ≠ .direct ∧ prot = .none) ∨ (r.mac = true ∧ r.keyId = 0) then none
    else some r
  | _, _, _ => none

/-! ### Logical zones (R343, log entry 29) -/

def insertExt (e : Nat × Nat) : List (Nat × Nat) → List (Nat × Nat)
  | [] => [e]
  | x :: l => if e.1 ≤ x.1 then e :: x :: l else x :: insertExt e l

/-- Gaps between extents in rising order, from a logical zone on. -/
def gapsFrom : Nat → List (Nat × Nat) → List (Nat × Nat)
  | pos, [] => if pos < 2 ^ 21 then [(pos, 2 ^ 21 - pos)] else []
  | pos, (f, n) :: l => if pos < f then (pos, f - pos) :: gapsFrom (f + n) l else gapsFrom (f + n) l

/-- Logical zones that no region holds. -/
def Dev.freeExtents (d : Dev) : List (Nat × Nat) :=
  gapsFrom 0 ((d.regionsL.flatMap (fun p => p.2.extents)).foldr insertExt [])

/-- n zones from the lowest gaps. -/
def takeGaps : Nat → List (Nat × Nat) → Option (List (Nat × Nat))
  | 0, _ => some []
  | _ + 1, [] => none
  | n + 1, (f, k) :: l =>
    if n + 1 ≤ k then some [(f, n + 1)] else (takeGaps (n + 1 - k) l).map ((f, k) :: ·)

/-- n zones: the first gap that holds them all, else the lowest gaps. -/
def pickZones (n : Nat) (gaps : List (Nat × Nat)) : Option (List (Nat × Nat)) :=
  match gaps.find? (fun g => decide (n ≤ g.2)) with
  | some g => some [(g.1, n)]
  | none => takeGaps n gaps

/-- Extents put behind a list; one that continues the last extent lengthens it. -/
def joinExts (l m : List (Nat × Nat)) : List (Nat × Nat) :=
  match l.getLast?, m with
  | some (f, n), (g, k) :: rest => if f + n = g then l.dropLast ++ (f, n + k) :: rest else l ++ m
  | _, _ => l ++ m

/-- Zones to lengthen a region by: those behind its last extent if they are free, else a pick. -/
def Dev.growZones (d : Dev) (l : List (Nat × Nat)) (n : Nat) : Option (List (Nat × Nat)) :=
  let gaps := d.freeExtents
  match l.getLast? with
  | some (f, k) =>
    match gaps.find? (fun g => g.1 == f + k && decide (n ≤ g.2)) with
    | some g => some [(g.1, n)]
    | none => pickZones n gaps
  | none => pickZones n gaps

/-- R297, R298: allocations are refused at SPARE_CRIT and past USER_ZONES. -/
def Dev.spareRefuses (d : Dev) (n : Nat) : Bool :=
  decide (d.spare < 4096) || decide (d.life.userZones < d.allocated + n)

/-! ### REGION_CREATE -/

def mib256 : Nat := 2 ^ 28
def roundUp (n k : Nat) : Nat := ceilDiv n k * k

/-- The lowest free window of a size (R337). -/
def Dev.freeWindow (d : Dev) (size : Nat) : Option Nat :=
  let l := d.regionsL.filter (fun p => decide (p.2.typ = .direct))
  let free (b : Nat) : Bool := decide (b + size ≤ 2 ^ 45) &&
    l.all (fun p => decide (b + size ≤ p.2.dpaBase) || decide (p.2.dpaBase + p.2.dpaSize ≤ b))
  let bases := 0 :: l.map (fun p => p.2.dpaBase + p.2.dpaSize)
  (bases.filter free).foldl (fun m b => some (match m with
    | some a => min a b
    | none => b)) none

/-- The region ID asked for, or the lowest free one. -/
def Dev.pickId (d : Dev) (w : Nat) : Option Nat :=
  if w.testBit 31 then (upTo 1008).find? (fun i => (d.region i).isNone)
  else if fld w 0 10 < 1008 ∧ (d.region (fld w 0 10)).isNone = true then some (fld w 0 10)
  else none

/-- The window of a region: none where the DPA space holds none. -/
def Dev.windowFor (d : Dev) (r : Region) (size : Nat) : Option Nat :=
  if r.typ = .direct then d.freeWindow size else some 0

/-- The checks of a creation after its fields, in order, and the region made. -/
def Dev.createRegion (d : Dev) (x : Exec) (r : Region) (zones dpa : Nat) : Dev :=
  let w := (x.p 0).toNat
  match d.pickId w with
  | none => d.complete x (if w.testBit 31 then stNoRegionId else stRegionIdUnavailable) 0
  | some id =>
    if r.keyId = 0 ∧ d.sec.plaintext = false then d.complete x stPlaintextDisabled 0
    else if d.keyLoaded r.keyId = false then d.complete x stKeyNotLoaded 0
    else if d.spareRefuses zones then d.complete x stNoSpareZones 0
    else match pickZones zones d.freeExtents, d.windowFor r dpa with
      | none, _ => d.complete x stNoSpareZones 0
      | some _, none => d.complete x stDpaSpaceFull 0
      | some ext, some base =>
        if 16 < ext.length then d.complete x stExtentLimit 0
        else
          let r := { r with extents := ext, dpaBase := base, dpaSize := dpa }
          let d := (d.sysPut (.region id (some r))).updateCapacities
          d.complete x stSuccess (id + base / mib256 * 1024)

def Dev.regionCreate (d : Dev) (x : Exec) : Dev :=
  let size := (x.p 1).toNat
  let dpa := (x.p 2).toNat
  match regionOf (x.p 0).toNat with
  | none => d.complete x stInvalidField 0
  | some r =>
    let dpa' := if r.typ = .direct then roundUp dpa mib256 else 0
    let zones := ceilDiv size (zoneBytes r.prot)
    if size = 0 ∨ (r.typ ≠ .direct ∧ dpa ≠ 0) ∨ (r.typ = .direct ∧ dpa' < zones * zoneBytes r.prot) then
      d.complete x stInvalidField 0
    else d.createRegion x r zones dpa'

def execRegionCreate (t : Nat) (qid : BitVec 7) (cid : BitVec 16) (s : State) :
    Host.Outcome State Fault Refusal :=
  s.after t (fun d => d.command 0x10 qid cid Dev.regionCreate)

/-! ### REGION_GROW (R343, R344, R423, R576) -/

def Dev.growRegion (d : Dev) (x : Exec) (id : Nat) (r : Region) : Dev :=
  let zones := ceilDiv (x.p 1).toNat (zoneBytes r.prot)
  if r.typ = .index then d.complete x stInvalidRegion 0
  else if r.rekey.isSome then d.complete x stRekeyActive 0
  else if zones < r.zones ∨ (r.typ = .direct ∧ r.dpaSize < zones * zoneBytes r.prot) then
    d.complete x stInvalidField 0
  else if zones = r.zones then d.complete x stSuccess zones
  else if d.spareRefuses (zones - r.zones) then d.complete x stNoSpareZones 0
  else match d.growZones r.extents (zones - r.zones) with
    | none => d.complete x stNoSpareZones 0
    | some l =>
      let ext := joinExts r.extents l
      if 16 < ext.length then d.complete x stExtentLimit 0
      else (d.sysPut (.region id (some { r with extents := ext }))).complete x stSuccess zones

def execRegionGrow (t : Nat) (qid : BitVec 7) (cid : BitVec 16) (s : State) :
    Host.Outcome State Fault Refusal :=
  s.after t (fun d => d.command 0x11 qid cid (fun d x => d.onUsable x (fun d id r => d.growRegion x id r)))

/-! ### Unbinding (06 R259) -/

/-- Logical zones of a region, in order. -/
def Region.zoneList (r : Region) : List Nat := r.extents.flatMap (fun e => (upTo e.2).map (fun i => e.1 + i))

/-- Nothing of a zone is in flight, no move of it runs, and its entry can be used. DESIGN CHOICE: the manual does not
say what an unbind does to a move of its zone; it waits for the move (log entry 131). -/
def Dev.zoneStill (d : Dev) (lz : Nat) : Bool :=
  !d.zt.lost.contains lz && !d.bench.updates.any (fun u => u.lzone == lz) && !d.zt.runs.any (fun m => m.lzone == lz)

/-- Reads of a zone in flight as it is unbound end here, on zeros. DESIGN CHOICE: the manual lets such a read return
the old value or zeros (log entry 131). -/
def Dev.endReads (d : Dev) (lz : Nat) : Dev :=
  d.each (d.lane.reads.filter (fun x => x.lzone == lz)) (fun d x =>
    d.onRead x.id (fun d x t c => d.finishRead x t c .zeros))

/-- Release a logical zone: UNBIND, then UNMAPPED and FREE_DIRTY. -/
def Dev.unbind (d : Dev) (lz : Nat) : Dev :=
  let e := d.zte lz
  let d := { d with zt := { d.zt with
    moves := d.zt.moves.filter (fun m => m.lzone != lz), binds := d.zt.binds.filter (· != lz)
    overdue := d.zt.overdue.filter (· != lz), updates := tset 0 d.zt.updates lz 0 } }
  if zMapped e then
    (((d.journal .unbind 0 lz (zPz e) 0).writeZte lz 0).setPstateLast (zPz e) psDirty lz)
  else d

/-- Lines from lo up to hi of a region leave every store, and the poisoned-line list. -/
def Dev.forget (d : Dev) (region lo hi : Nat) : Dev :=
  let d := d.dropRange region lo hi
  let hit (r l : Nat) : Bool := r == region && decide (lo ≤ l) && decide (l < hi)
  let gone := ((d.sys.poison.filter (fun p => hit p.region p.line)).map PoisonRec.line).eraseDups
  let d := d.each gone (fun d l => d.sysPut (.poison region l []))
  let d := d.each (d.sys.lineIntent.filter (fun p => hit p.1 p.2)) (fun d p =>
    d.sysPut (.lineIntent p.1 p.2 false))
  d.each (d.sys.saved.filter (fun p => hit p.region p.line)) (fun d p => d.sysPut (.saved region p.line none))

/-! ### REGION_DELETE (R424) -/

/-- The newest payload of a line, without side effects; zeros where none can be had. -/
def Dev.peekLine (d : Dev) (ans : Answers) (region : Nat) (r : Region) (line : Nat) : LineData :=
  match d.lineStripe region r line with
  | none => 0
  | some (t, c) =>
    let base := match d.readEnd ans t c false with
      | .line cells m _ _ _ => d.payload c cells m
      | _ => 0
    (d.overCopies r region line ⟨base, 0, sameCause 0, false⟩).data

/-- The 32 B entries of a bucket whose VALID is 1 (12 R435). -/
def validWords (x : LineData) : List Nat :=
  ((upTo 8).map (fun i => fld x.toNat (256 * i) 256)).filter (fun w => w.testBit 222)

/-- Buckets of an INDEX region (12 R434). -/
def Region.buckets (r : Region) : Nat := min r.lines (2 ^ 29)

/-- Zone k of a region holds lines: it is bound, or lines of it wait in the cache or the Bench. -/
def Dev.zoneHolds (d : Dev) (id : Nat) (r : Region) (k : Nat) : Bool :=
  let n := zoneLines r.prot
  let mine (region line : Nat) : Bool := region == id && decide (line / n = k)
  (match r.zoneAt k with
    | some lz => zMapped (d.zte lz)
    | none => false) ||
  d.cache.ways.any (fun p => match p.2 with
    | some w => mine w.region w.line
    | none => false) ||
  d.bench.entries.any (fun e => match e.key with
    | .user region line => mine region line
    | .sys _ _ => false)

/-- Buckets of an index that can hold an entry. -/
def Dev.usedBuckets (d : Dev) (id : Nat) (r : Region) : List Nat :=
  let n := zoneLines r.prot
  ((upTo r.zones).filter (d.zoneHolds id r)).flatMap (fun k =>
    ((upTo n).map (fun i => k * n + i)).filter (fun b => decide (b < r.buckets)))

/-- A bucket of the index holds a valid entry. -/
def Dev.hasEntry (d : Dev) (region : Nat) (r : Region) : Bool :=
  (d.usedBuckets region r).any (fun b => !(validWords (d.peekLine noAnswers region r b)).isEmpty)

/-- Key of a heap zone record: region and zone index. -/
def heapKey (region k : Nat) : Nat := region * 2 ^ 21 + k

def Dev.heapZone (d : Dev) (region k : Nat) : HeapZone := tget heapDefault d.sys.heap (heapKey region k)

/-- Write a heap zone record: each of its two lines that changes (R425). -/
def Dev.putHeapKey (d : Dev) (key : Nat) (h : HeapZone) : Dev :=
  let old := tget heapDefault d.sys.heap key
  [false, true].foldl (fun d upper => d.when (decide (heapMerge old h upper ≠ old)) (·.sysPut (.heap key upper h))) d

def Dev.heapUnits (d : Dev) (region : Nat) (r : Region) : Nat :=
  (upTo r.zones).foldl (fun n k => n + (d.heapZone region k).validUnits) 0

/-- Objects lie in the region: a valid entry, or VALID_UNITS above 0. DESIGN CHOICE: an index whose key is not loaded cannot
be read, and its count of entries stands for it (log entry 180). -/
def Dev.holdsObjects (d : Dev) (id : Nat) (r : Region) : Bool :=
  match r.typ with
  | .index => if d.regionKeyed r then d.hasEntry id r else decide (0 < tget 0 d.obj.counts id)
  | .heap => decide (0 < d.heapUnits id r)
  | _ => false

/-- The region goes, with its lines, its zones and its records. -/
def Dev.dropRegion (d : Dev) (id : Nat) (r : Region) : Dev :=
  let d := ((d.each r.zoneList Dev.endReads).forget id 0 r.lines).each r.zoneList Dev.unbind
  let d := d.each ((d.sys.heap.map Prod.fst).filter (fun k => k / 2 ^ 21 == id)) (fun d k =>
    d.putHeapKey k heapDefault)
  let d := { d with obj := { d.obj with
    parts := d.obj.parts.filter (fun p => p.region != id), over90 := d.obj.over90.filter (· != id)
    counts := tset 0 d.obj.counts id 0, badSlots := d.obj.badSlots.filter (·.1 != id)
    running := d.obj.running.filter (· != id) } }
  ((d.forgetMac (fun x => x.1 == id)).sysPut (.region id none)).updateCapacities

/-- A deletion waits for the journal and for what is in flight in the region's zones. -/
def Dev.deleteRegion (d : Dev) (x : Exec) (id : Nat) (r : Region) : Dev :=
  if r.locked then d.complete x stRegionLocked 0
  else if d.holdsObjects id r then d.complete x stInvalidField 0
  else if d.journalFits r.zones && r.zoneList.all d.zoneStill then (d.dropRegion id r).complete x stSuccess 0
  else d

def execRegionDelete (t : Nat) (qid : BitVec 7) (cid : BitVec 16) (s : State) :
    Host.Outcome State Fault Refusal :=
  s.after t (fun d => d.command 0x12 qid cid (fun d x => d.onOwned x (fun d id r => d.deleteRegion x id r)))

/-! ### REGION_QUERY (R410) -/

def queryBytes (id : Nat) (r : Region) : List Byte :=
  leBytes 8 (attrWord id r) ++ leBytes 4 r.zones ++ leBytes 4 0 ++ leBytes 8 r.dpaBase ++
  leBytes 8 r.dpaSize ++ leBytes 2 r.extents.length ++ leBytes 30 0

/-- The descriptor of a SYSTEM region: its ID and TYPE, no window, and no lockdown; the rest are free values, which the manual
does not state (log entry 82). -/
def systemBytes (id : Nat) : List Byte :=
  let attr := setFld (setFld (fld (Config.systemAttr id).toNat 0 30) 0 10 id) 10 2 3
  leBytes 8 attr ++ leBytes 4 (Config.systemZones id).toNat ++ leBytes 20 0 ++
  leBytes 2 (Config.systemExtents id).toNat ++ leBytes 30 0

/-- REGION_QUERY of a SYSTEM region, IDs 1,008 to 1,023, which the device creates (R342, 19 R684). -/
def Dev.querySystem (d : Dev) (x : Exec) (id : Nat) : Dev :=
  if d.bufferOk (issuer x) (x.p 1) 64 then d.deliver noAnswers x (x.p 1) (systemBytes id) 0
  else d.complete x stInvalidAddress 0

def Dev.queryRegion (d : Dev) (x : Exec) (id : Nat) (r : Region) : Dev :=
  if d.bufferOk (issuer x) (x.p 1) 64 then d.deliver noAnswers x (x.p 1) (queryBytes id r) 0
  else d.complete x stInvalidAddress 0

def execRegionQuery (t : Nat) (qid : BitVec 7) (cid : BitVec 16) (s : State) :
    Host.Outcome State Fault Refusal :=
  s.after t (fun d => d.command 0x13 qid cid (fun d x =>
    if d.life.formatted && decide (1008 ≤ x.pn 0 0 10) then d.querySystem x (x.pn 0 0 10)
    else d.onRegion x (fun d id r => d.queryRegion x id r)))

/-! ### REGION_SET_ATTR (R350, R409) -/

/-- The fields selected by P0 [19:16], from P1. -/
def setAttrs (sel w : Nat) (r : Region) : Region :=
  { r with
    lockOnMac := if sel.testBit 0 then w.testBit 23 else r.lockOnMac
    xovr := if sel.testBit 1 then w.testBit 29 else r.xovr
    rclass := if sel.testBit 2 then fld w 26 3 else r.rclass
    profile := if sel.testBit 3 then (if w.testBit 14 then .light else .strong) else r.profile }

def attrsOk (r : Region) : Bool :=
  (!r.lockOnMac || r.mac) && (!r.xovr || (decide (r.typ = .direct) && decide (r.prot = .none)))

/-- A new profile is reached by moves of the region's zones (R57). -/
def Dev.profileMoves (d : Dev) (r : Region) : Dev :=
  d.each (r.zoneList.filter (fun lz => zMapped (d.zte lz) && decide (zProfile (d.zte lz) ≠ r.profile)))
    (fun d lz => d.queueMove lz .profile)

def Dev.setAttr (d : Dev) (x : Exec) (id : Nat) (r : Region) : Dev :=
  let sel := x.pn 0 16 4
  let r' := setAttrs sel (x.p 1).toNat r
  if sel = 0 ∨ attrsOk r' = false then d.complete x stInvalidField 0
  else ((d.sysPut (.region id (some r'))).profileMoves r').complete x stSuccess 0

def execRegionSetAttr (t : Nat) (qid : BitVec 7) (cid : BitVec 16) (s : State) :
    Host.Outcome State Fault Refusal :=
  s.after t (fun d => d.command 0x14 qid cid (fun d x => d.onUsable x (fun d id r => d.setAttr x id r)))

/-! ### TAKEOVER (R351, R352) -/

/-- A head has been in reset or without a link for 100 ms. -/
def Dev.headDead (d : Dev) (h : Head) : Bool :=
  let x := d.head h
  (x.inReset && d.due (x.resetAt + 100 * msNs)) || (!x.linkUp && d.due (x.linkDownAt + 100 * msNs))

def ownersDead (d : Dev) (r : Region) : Bool :=
  [Head.a, Head.b].all (fun h => !ownsRegion h r || d.headDead h)

def ownerOfHead : Head → Owner
  | .a => .a
  | .b => .b

/-- The switch point. -/
def Dev.giveRegion (d : Dev) (id : Nat) (r : Region) (o : Owner) : Dev :=
  (d.sysPut (.region id (some { r with owner := o }))).updateCapacities

/-- The new owner by the mode, where its condition holds. -/
def Dev.takeoverTo (d : Dev) (x : Exec) (r : Region) : Option Owner :=
  let h := issuer x
  match x.pn 0 16 2 with
  | 0 => if ownsRegion h r then ownerOf (x.pn 0 24 2) else none
  | 1 => if !ownsRegion h r && ownersDead d r then some (ownerOfHead h) else none
  | _ => if ownsRegion h r then none else some (ownerOfHead h)

def Dev.takeover (d : Dev) (x : Exec) (id : Nat) (r : Region) : Dev :=
  let mode := x.pn 0 16 2
  if mode = 3 ∨ (mode = 0 ∧ x.pn 0 24 2 = 0) then d.complete x stInvalidField 0
  else match d.regionBlock r with
    | some st => d.complete x st 0
    | none =>
      match d.takeoverTo x r with
      | none => d.complete x stTakeoverRefused 0
      | some o =>
        let d := d.giveRegion id r o
        (d.when (decide (mode = 2)) (·.event (evHead (issuer x) 8))).complete x stSuccess 0

def execTakeover (t : Nat) (qid : BitVec 7) (cid : BitVec 16) (s : State) :
    Host.Outcome State Fault Refusal :=
  s.after t (fun d => d.command 0x15 qid cid (fun d x => d.onRegion x (fun d id r => d.takeover x id r)))

/-! ### REGION_UNLOCK (08 R317) -/

def Dev.unlockRegion (d : Dev) (x : Exec) (id : Nat) (r : Region) : Dev :=
  if d.regionKeyed r = false then d.complete x stKeyNotLoaded 0
  else if r.locked then
    (((d.sysPut (.region id (some { r with locked := false }))).event (evSecurity 2)).moduleEventBoth
      .warning).complete x stSuccess 0
  else d.complete x stSuccess 0

def execRegionUnlock (t : Nat) (qid : BitVec 7) (cid : BitVec 16) (s : State) :
    Host.Outcome State Fault Refusal :=
  s.after t (fun d => d.command 0x16 qid cid (fun d x => d.onOwned x (fun d id r => d.unlockRegion x id r)))

/-! ### DISCARD (06 R258-R260) -/

/-- A whole-line range of a DIRECT region: first line and the line after the last. -/
def discardRange (x : Exec) (r : Region) : Option (Nat × Nat) :=
  let off := (x.p 1).toNat
  let n := (x.p 2).toNat
  if off % 256 = 0 ∧ n % 256 = 0 ∧ off + n ≤ r.size then some (off / 256, (off + n) / 256) else none

/-- Zone positions of a region wholly inside a range of lines. -/
def wholeZones (r : Region) (lo hi : Nat) : List Nat :=
  let z := zoneLines r.prot
  (upTo r.zones).filter (fun k => decide (lo ≤ k * z) && decide (k * z + z ≤ hi))

/-- Lines of the range in zones it covers in part. -/
def partLines (r : Region) (lo hi : Nat) : List Nat :=
  let z := zoneLines r.prot
  let a := min hi (ceilDiv lo z * z)
  let b := max a (hi / z * z)
  (upTo (a - lo)).map (fun i => lo + i) ++ (upTo (hi - b)).map (fun i => b + i)

/-- The logical zones wholly inside the range are unbound. -/
def Dev.unbindWhole (d : Dev) (id : Nat) (r : Region) (lo hi : Nat) : Dev :=
  let z := zoneLines r.prot
  d.each (wholeZones r lo hi) (fun d k =>
    match r.zoneAt k with
    | some lz => ((d.endReads lz).forget id (k * z) (k * z + z)).unbind lz
    | none => d)

/-- Zero writes of lines, one by one, while the Bench has room (R133); those that are left. -/
def zeroLines (r : Region) (id : Nat) : List Nat → Dev → Dev × List Nat
  | [], d => (d, [])
  | l :: rest, d => if d.roomForLine then zeroLines r id rest (d.zeroWrite r id l) else (d, l :: rest)

/-- The zones to be unbound can be (R231). -/
def Dev.discardOk (d : Dev) (r : Region) (lo hi : Nat) : Bool :=
  let whole := (wholeZones r lo hi).filterMap r.zoneAt
  whole.isEmpty || (d.journalFits whole.length && whole.all d.zoneStill)

/-- The checks of a DISCARD before it starts: a status, or the range. -/
def Dev.discardCheck (d : Dev) (x : Exec) (id : Nat) (r : Region) : Nat ⊕ (Nat × Nat) :=
  if r.typ ≠ .direct then .inl stInvalidRegion
  else match discardRange x r with
    | none => .inl stBadRange
    | some (lo, hi) =>
      if (partLines r lo hi).any (fun l => d.writeRefused r id l) then .inl stExposedReadOnly
      else .inr (lo, hi)

/-- The unbinds once, then the zero writes as the Bench takes them; the lines that are left, which the command keeps
behind its parameters. -/
def Dev.discardGoes (d : Dev) (x : Exec) (id : Nat) (r : Region) (lo hi : Nat) : Dev × List Nat :=
  if x.parked then zeroLines r id x.zeroLeft d
  else zeroLines r id (partLines r lo hi) (d.unbindWhole id r lo hi)

def Dev.discard (d : Dev) (x : Exec) (id : Nat) (r : Region) : Dev :=
  match d.discardCheck x id r with
  | .inl st => if st = stExposedReadOnly then d.refuse x else d.complete x st 0
  | .inr (lo, hi) =>
    if x.parked || d.discardOk r lo hi then
      match d.discardGoes x id r lo hi with
      | (d, []) => d.complete x stSuccess 0
      | (d, l) => d.keep x l
    else d

def execDiscard (t : Nat) (qid : BitVec 7) (cid : BitVec 16) (s : State) :
    Host.Outcome State Fault Refusal :=
  s.after t (fun d => d.command 0x17 qid cid (fun d x => d.onUsable x (fun d id r => d.discard x id r)))

/-! ### SECURE_DISCARD (06 R262, R264) -/

/-- Reset a list of lines; a line whose tile is out of service cannot be. -/
def Dev.resetLines (d : Dev) (ans : Answers) (l : List Pla) : Dev :=
  d.each l (fun d p =>
    if d.inService p = false then d.noteReset (d.cellOf p) (d.stored p != blankImage)
    else if ans.residue.contains p then d.noteReset (d.cellOf p) true
    else (d.store p blankImage).noteReset (d.cellOf p) false)

/-- Lines at GAP of a zone whose stale stripe the range covers. -/
def staleLines (r : Region) (e k lo hi : Nat) : List Pla :=
  let first := lineIndex r.prot k (gapStripe e) 0
  if zMapped e ∧ first < hi ∧ lo < first + stripeLines r.prot then
    (upTo 16).map (fun i => mkPla i (zPz e) (zGap e))
  else []

/-- Logical zones that the range touches, with their positions. -/
def touchedZones (r : Region) (lo hi : Nat) : List (Nat × Nat) :=
  let z := zoneLines r.prot
  ((upTo r.zones).filter (fun k => decide (lo < k * z + z) && decide (k * z < hi))).filterMap (fun k =>
    (r.zoneAt k).map (fun lz => (k, lz)))

/-- Physical zones in a PSTATE that last held one of the logical zones. -/
def Dev.lastHeld (d : Dev) (st : Nat) (lzs : List Nat) : List Nat :=
  (d.sys.wear.filter (fun p => decide (wState p.2.toNat = st) && lzs.contains (wLast p.2.toNat))).map Prod.fst

/-- Places of the lines that the zero writes wrote. -/
def Dev.zeroPlaces (d : Dev) (id : Nat) (r : Region) (lo hi : Nat) : List Pla :=
  (partLines r lo hi).flatMap (fun l => match d.lineStripe id r l with
    | some (t, c) => (c :: t.check).map LineCtx.pla
    | none => [])

/-- A line on a tile out of service that a zero write could not reach, and that still holds what it held. -/
def Dev.leftOver (d : Dev) (p : Pla) : Bool := !d.inService p && decide (d.stored p ≠ blankImage)

/-- Its second part, once the zero writes have verified: old copies of the covered lines are reset, and every line that
has not reached code 179, here or under a zero write, is logged (R262, R264); a released zone that background work has
pre-cleared in between counts with the lines it left. -/
def Dev.secureEnd (d : Dev) (ans : Answers) (x : Exec) (id : Nat) (r : Region) (lo hi : Nat) : Dev :=
  let zs := touchedZones r lo hi
  let stale := zs.flatMap (fun z => staleLines r (d.zte z.2) z.1 lo hi)
  let d := d.resetLines ans stale
  let lzs := zs.map Prod.snd
  let dirty := d.lastHeld psDirty lzs
  let retired := d.lastHeld psRetired lzs
  let d := d.each dirty (fun d z => d.preclearZone z ans)
  let d := d.each retired (fun d z => d.preclearCells z ans)
  let lines := (stale ++ d.zeroPlaces id r lo hi).filter (fun p => d.residueAt p || d.leftOver p)
  let zones := (dirty ++ retired).flatMap d.uncleared
  let d := d.each (lines ++ zones.filter (fun p => !ans.residue.contains p)) Dev.residueEvent
  let before := (d.lastHeld psClear lzs).flatMap d.uncleared
  d.complete x (if lines.isEmpty && zones.isEmpty && before.isEmpty then stSuccess else stMediaResidue) 0

/-- The zero writes have verified and nothing of the zones is in flight: the second part. -/
def Dev.secureNext (d : Dev) (ans : Answers) (x : Exec) (id : Nat) (r : Region) (lo hi : Nat) : Dev :=
  if (partLines r lo hi).any (fun l => d.inBench r id l) then d
  else if (touchedZones r lo hi).all (fun z => d.zoneStill z.2) then d.secureEnd ans x id r lo hi
  else d

/-- A SECURE_DISCARD: the discard, its zero writes selected for write-back at once, then the resets. -/
def Dev.secureDiscard (d : Dev) (ans : Answers) (x : Exec) (id : Nat) (r : Region) : Dev :=
  match d.discardCheck x id r with
  | .inl st => if st = stExposedReadOnly then d.refuse x else d.complete x st 0
  | .inr (lo, hi) =>
    if x.parked || d.discardOk r lo hi then
      let (d, l) := d.discardGoes x id r lo hi
      let d := (d.each (partLines r lo hi) (fun d l => d.selectLine r id l)).keep x l
      if l.isEmpty then d.secureNext ans (x.kept l) id r lo hi else d
    else d

def execSecureDiscard (t : Nat) (qid : BitVec 7) (cid : BitVec 16) (media : Answers) (s : State) :
    Host.Outcome State Fault Refusal :=
  s.afterMedia t (fun d => d.command 0x18 qid cid (fun d x =>
    d.onUsable x (fun d id r => d.secureDiscard media x id r)))

end Sys2Proof.Machine
end

