-- ==== Sys2Proof/Machine/Keys.lean ====
section
/-!
DEFINITION. Keys (15 R560-R579), sessions and secrets (15 R584, R585, 18 R669-R673), range rekey (15
R568-R576), SEC_CFG, and the end of a Cabinet write (18 R660, R661, R741).
-/

namespace Sys2Proof.Machine

/-! ### Sessions (R584, R585) -/

def SecBlock.sess (s : SecBlock) : Port → BitVec 3
  | .head .a => s.sessA
  | .head .b => s.sessB
  | .sideband => s.sessS

def SecBlock.setSess (s : SecBlock) (p : Port) (x : BitVec 3) : SecBlock :=
  match p with
  | .head .a => { s with sessA := x }
  | .head .b => { s with sessB := x }
  | .sideband => { s with sessS := x }

/-- A session of a partition is open on a port: 0 vendor, 1 owner, 2 service. -/
def Dev.session (d : Dev) (p : Port) (part : Nat) : Bool := (d.sec.sess p).toNat.testBit part

def Dev.putSession (d : Dev) (p : Port) (part : Nat) (on : Bool) : Dev :=
  { d with sec := d.sec.setSess p (setBit (d.sec.sess p) part on) }

/-- A register write that needs a session not open: discarded, with one event. -/
def Dev.denied (d : Dev) : Dev := d.event (evSecurity 3)

/-! ### A secret block or key from its source -/

/-- A record whose data is poisoned is not written: the previous copy stands, and one event is logged (08 R307, 14
R511). -/
def Dev.cabAbandoned (d : Dev) (what : Option (Nat × Nat)) : Dev :=
  match what.bind (fun r => (cabPair r.1 r.2).map (fun p => (p, r))) with
  | some (p, r) => d.event (evPlatform 23) (cabDetail p (d.cab.target p).1 r.1 r.2)
  | none => d

/-- Load a command's source, ending the command where it cannot be used (R399, R313, R314); what: the record that it is
for. -/
def Dev.source (d : Dev) (host : List HostBytes) (x : Exec) (w : Word) (n : Nat) (what : Option (Nat × Nat))
    (f : Dev → List Byte → Dev) : Dev :=
  if d.usable x w n = false then d.complete x stInvalidAddress 0
  else
    let (d, b) := d.load host noAnswers (issuer x) w n
    if b.macFail then d.complete x stMacFail 0
    else if b.bad.isEmpty = false then (d.cabAbandoned what).complete x stPoisonConsumed 0
    else f d b.bytes

/-- A Cabinet write waits for this command. -/
def Dev.cabWaits (d : Dev) (x : Exec) : Bool :=
  (d.cab.queue ++ (d.cab.busy.map Prod.fst).toList).any (fun r =>
    match r.after with
    | .keyLoad q c _ _ => q == x.qid && c == x.cid
    | .change q c _ => q == x.qid && c == x.cid
    | .setKwk q c _ => q == x.qid && c == x.cid
    | _ => false)

/-- Slots that a KEY_LOAD in progress will fill. -/
def Dev.slotsAsked (d : Dev) : List Nat :=
  (d.cab.queue ++ (d.cab.busy.map Prod.fst).toList).filterMap (fun r =>
    match r.after with
    | .keyLoad _ _ s _ => some s
    | _ => none)

/-! ### KEY_LOAD (R564) -/

/-- Check value: the first 8 bytes of SHA-256 of the key material. -/
def checkValue (key : List Byte) : BitVec 64 := BitVec.ofNat 64 (leNat ((sha256 key).take 8))

def loadedSlot (key : List Byte) : KeySlot :=
  { state := .loaded, key := BitVec.ofNat 768 (leNat key), check := checkValue key }

def Dev.putSlot (d : Dev) (k : Nat) (x : KeySlot) : Dev :=
  { d with sec := { d.sec with slots := tset slotFree d.sec.slots k x } }

/-- A successful KEY_LOAD (15 R591, 18 R668). -/
def Dev.keyLoads (d : Dev) (x : Exec) (k : Nat) : Dev :=
  ({ d with sec := { d.sec with zeroised := false } }.milestone 9).complete x stSuccess k

/-- A load into a FREE slot: its record first (R564). -/
def Dev.loadFree (d : Dev) (x : Exec) (k : Nat) (key : List Byte) : Dev :=
  d.cabWrite cabKey k 8 (cabPayload [(0, 8, (checkValue key).toNat)])
    (.keyLoad x.qid x.cid k (BitVec.ofNat 768 (leNat key)))

/-- The rows of R564 from the slot on. A load into a slot whose record another load is writing waits for it. -/
def Dev.loadSlot (d : Dev) (x : Exec) (k : Nat) (key : List Byte) : Dev :=
  let s := d.slot k
  match s.state with
  | .free => if d.slotsAsked.contains k then d.hold x else d.loadFree x k key
  | .loaded | .absent =>
    if s.check = checkValue key then (d.putSlot k (loadedSlot key)).keyLoads x k
    else d.complete x stKeyInUse 0
  | _ => d.complete x stKeyInUse 0

/-- The lowest FREE slot. -/
def Dev.freeKeySlot (d : Dev) : Option Nat :=
  ((upTo 127).map (· + 1)).find? (fun k => decide ((d.slot k).state = .free) && !d.slotsAsked.contains k)

/-- The rows of R564 from the unwrap on. -/
def Dev.unwrapped (d : Dev) (x : Exec) (bs : List Byte) : Dev :=
  let fail (d : Dev) : Dev := (d.event (evSecurity 3)).complete x stAuthFail 0
  match d.sec.kwk with
  | none => fail d
  | some kwk =>
    match keyUnwrap (leBytes 32 kwk.toNat) bs with
    | none => fail d
    | some key =>
      if key.take 32 = (key.drop 32).take 32 then d.complete x stInvalidField 0
      else if (x.p 0).toNat.testBit 7 then
        match d.freeKeySlot with
        | none => d.complete x stNoKeySlot 0
        | some k => d.loadSlot x k key
      else d.loadSlot x (x.pn 0 0 7) key

def Dev.keyLoad (d : Dev) (x : Exec) (host : List HostBytes) : Dev :=
  if d.cabWaits x then d
  else if x.pn 2 0 16 ≠ 104 ∨ (x.pn 0 0 7 = 0 ∧ (x.p 0).toNat.testBit 7 = false) then
    d.complete x stInvalidField 0
  else
    let k := if (x.p 0).toNat.testBit 7 then d.freeKeySlot else some (x.pn 0 0 7)
    d.source host x (x.p 1) 104 (k.map (fun k => (cabKey, k))) (fun d bs => d.unwrapped x bs)

def execKeyLoad (t : Nat) (qid : BitVec 7) (cid : BitVec 16) (host : List HostBytes) (s : State) :
    Host.Outcome State Fault Refusal :=
  s.after t (fun d => d.command 0x20 qid cid (fun d x => d.keyLoad x host))

/-! ### Closing a slot (R577-R579) -/

/-- A rekey with key k runs somewhere. -/
def Dev.rekeying (d : Dev) (k : Nat) : Bool :=
  d.regionsL.any (fun p => match p.2.rekey with
    | some q => q.oldKey == k || q.newKey == k
    | none => false)

/-- CLOSING: the maintenance engine runs a FLUSH of the lines under the key, and the slot closes once none is left
(R578, 05 R206). -/
def Dev.startClosing (d : Dev) (k : Nat) (retire : Bool) : Dev :=
  (d.putSlot k { d.slot k with state := .closing }).addWork (.keyFlush k retire)

def Dev.keyRetire (d : Dev) (x : Exec) : Dev :=
  let k := x.pn 0 0 7
  if x.parked then d
  else if k = 0 then d.complete x stInvalidField 0
  else if (d.slot k).state ≠ .loaded then d.complete x stKeyNotLoaded 0
  else if d.rekeying k then d.complete x stKeyInUse 0
  else (d.startClosing k true).park x

def execKeyRetire (t : Nat) (qid : BitVec 7) (cid : BitVec 16) (s : State) :
    Host.Outcome State Fault Refusal :=
  s.after t (fun d => d.command 0x21 qid cid Dev.keyRetire)

/-- Every LOADED slot closes, to end ABSENT; ZEROISED is set when the last has closed. -/
def Dev.zeroiseKeys (d : Dev) : Dev :=
  let ks := (d.sec.slots.filter (fun p => decide (p.2.state = .loaded))).map Prod.fst
  (ks.foldl (fun d k => d.startClosing k false) d).zeroiseEnds

/-- SEC_CTRL.ZEROISE from a head with an open owner session; otherwise one ZEROISE_REFUSED event. -/
def Dev.zeroise (d : Dev) (p : Port) : Dev :=
  if d.portOn p = false then d
  else if (match p with
    | .head _ => d.session p 1
    | .sideband => false) then d.zeroiseKeys
  else d.event (evSecurity 8)

def execZeroise (t : Nat) (p : Port) (s : State) : Host.Outcome State Fault Refusal :=
  s.after t (fun d => d.zeroise p)

/-! ### RANGE_REKEY (R571) -/

def Dev.rangeRekey (d : Dev) (x : Exec) (id : Nat) (r : Region) : Dev :=
  let n := x.pn 0 16 7
  if n = r.keyId ∨ (r.mac = true ∧ n = 0) then d.complete x stInvalidField 0
  else if n = 0 ∧ d.sec.plaintext = false then d.complete x stPlaintextDisabled 0
  else if d.keyLoaded r.keyId = false ∨ d.keyLoaded n = false then d.complete x stKeyNotLoaded 0
  else if r.locked then d.complete x stRegionLocked 0
  else if r.rekey.isSome then d.complete x stRekeyActive 0
  else
    let q : Rekey :=
      { oldKey := r.keyId, newKey := n, persist := 0, limit := min r.lines (zoneLines r.prot),
        boundary := 0, resumed := false }
    (d.sysPut (.region id (some { r with rekey := some q }))).complete x stSuccess 0

def execRangeRekey (t : Nat) (qid : BitVec 7) (cid : BitVec 16) (s : State) :
    Host.Outcome State Fault Refusal :=
  s.after t (fun d => d.command 0x22 qid cid (fun d x => d.onOwned x (fun d id r => d.rangeRekey x id r)))

/-! ### The stripe at BOUNDARY (R572-R575) -/

/-- BOUNDARY moves on; it is not kept in the region table (R573). -/
def Dev.setBoundary (d : Dev) (id : Nat) (r : Region) (q : Rekey) (b : Nat) : Dev :=
  let r' := { r with rekey := some { q with boundary := b, resumed := q.resumed && decide (b < q.limit) } }
  { d with sys := { d.sys with regions := tset none d.sys.regions id (some r') } }

def Dev.putRekey (d : Dev) (id : Nat) (r : Region) (q : Rekey) : Dev :=
  d.sysPut (.region id (some { r with rekey := some q }))

/-- The rekey has ended (R574). -/
def Dev.endRekey (d : Dev) (id : Nat) (r : Region) (q : Rekey) : Dev :=
  (d.sysPut (.region id (some { r with keyId := q.newKey, rekey := none }))).event (evSecurity 7)
    (detailOf [(32, id), (34, q.oldKey), (35, q.newKey)])

/-- A data line under the new key: its image, its payload, which is zeros for a blank line, and the image that its parity
line or copy takes (08 R319, R320). -/
def Dev.rekeyLine (d : Dev) (ans : Answers) (t : StripeCtx) (c : LineCtx) (key wseq : Nat) (full : Bool) :
    Dev × Copied × Image :=
  let r := d.readEnd ans t c true
  let d := (d.noteRead ans true t c r).forgetOld c.region c.lineNo
  let (d, x) := match r with
    | .line cells m _ _ _ => (d, d.payload c cells m)
    | .zeros => (d, 0)
    | .poison cause _ => (d.enterPoison t.region c.lineNo cause 0xF, 0)
  let (img, clean) := d.build c wseq key full x
  (d.buildFired c, ⟨c, img, x⟩, clean)

/-- The line at which a region with lock-on-MAC locks and the rekey pauses, with its pass (R316): the first whose MAC
fails and had not failed before (R576). -/
def Dev.macStops (d : Dev) (ans : Answers) (t : StripeCtx) : Option (LineCtx × Nat) :=
  if t.r.lockOnMac then
    (t.data.filter (fun c => !d.sec.macLines.contains (c.region, c.lineNo))).findSome? (fun c =>
      match d.readEnd ans t c true with
      | .poison 3 pass => some (c, pass)
      | _ => none)
  else none

/-- The intent of a whole stripe: the zone's mark, or a record of each line without protection (04 R155, R158). -/
def Dev.stripeIntent (d : Dev) (t : StripeCtx) : Dev :=
  match t.r.prot with
  | .none => d.each t.data (fun d c => d.markIntent t c.lineNo false)
  | p => d.markIntent t 0 (decide (p = .parity))

/-- The line-intent records of a stripe without protection go once its lines have verified (04 R158). -/
def Dev.endIntent (d : Dev) (t : StripeCtx) : Dev :=
  if t.r.prot = .none then
    d.each t.data (fun d c =>
      if d.sys.lineIntent.contains (t.region, c.lineNo) then d.sysPut (.lineIntent t.region c.lineNo false) else d)
  else d

/-- Re-encrypt one stripe as one update, each line programmed and verified. -/
def Dev.rekeyStripe (d : Dev) (ans : Answers) (t : StripeCtx) (q : Rekey) : Dev × Bool :=
  let (d, wseq) := (d.stripeIntent t).takeWseq t.lz
  let full := decide (t.r.prot ≠ .none) && !d.bench.exposed
  let (d, data, cleans) := t.data.foldl (fun (acc : Dev × List Copied × List Copied) c =>
    let (d, x, clean) := acc.1.rekeyLine ans t c q.newKey wseq full
    (d, acc.2.1 ++ [x], acc.2.2 ++ [{ x with image := clean }])) (d, [], [])
  let (d, r) := d.progAll ans data (copyChecks t (zPz t.e) (roundabout t.e t.s) (zProfile t.e) cleans)
  let d := (d.countUpdate t.lz).markCopied t.lz t.s
  (d.when r.kept (·.endIntent t), r.kept)

/-- The intent of a whole stripe can be recorded. -/
def Dev.stripeIntentOk (d : Dev) (t : StripeCtx) : Bool :=
  match t.r.prot with
  | .none =>
    decide (d.sys.lineIntent.length + (t.data.filter (fun c =>
      !d.sys.lineIntent.contains (t.region, c.lineNo))).length ≤ 4096)
  | _ => d.intentOk t 0

/-- The intent of the stripe can be recorded, nothing of it is in flight, and its tiles take programs. -/
def Dev.rekeyOk (d : Dev) (ans : Answers) (t : StripeCtx) : Bool :=
  !d.stripeBusy t.lz t.s && !d.zt.lost.contains t.lz && !d.wseqStuck t.lz && !d.moveHolds t.lz &&
  !d.restoreHolds (zPz t.e) && d.tilesFree (zPz t.e) && !t.all.any (fun c => d.lineRead c.pla) &&
  !d.gapWaits t.lz && d.stripeIntentOk t && d.copyRoom ans t

/-- One unit of a rekey: the end, a new LIMIT, a zone passed over, or a stripe. -/
def Dev.rekeyUnit (d : Dev) (ans : Answers) (id : Nat) (r : Region) (q : Rekey) : Dev :=
  let z := zoneLines r.prot
  if r.lines ≤ q.boundary then d.endRekey id r q
  else if q.limit ≤ q.boundary then
    d.putRekey id r { q with persist := q.limit, limit := min r.lines (q.limit + z), resumed := false }
  else match d.lineStripe id r q.boundary with
    | none => d
    | some (t, _) =>
      if zMapped t.e = false then d.setBoundary id r q (min q.limit ((q.boundary / z + 1) * z))
      else if d.rekeyOk ans t = false then d
      else match d.macStops ans t with
        | some (y, pass) => d.siblingMac t.r y pass
        | none =>
          let (d, ok) := d.rekeyStripe ans t q
          if ok then
            (d.forgetMac (fun x => x.1 == id && t.data.any (fun c => c.lineNo == x.2))).setBoundary id r q
              (q.boundary + stripeLines r.prot)
          else d

def Dev.rekeyStep (d : Dev) (ans : Answers) (id : Nat) : Dev :=
  match d.region id with
  | none => d
  | some r =>
    match r.rekey with
    | none => d
    | some q =>
      if d.background && !d.clearFirst && !r.locked && d.keyLoaded q.oldKey && d.keyLoaded q.newKey then
        d.rekeyUnit ans id r q
      else d

def execRekeyStripe (t : Nat) (region : BitVec 10) (media : Answers) (s : State) :
    Host.Outcome State Fault Refusal :=
  s.afterMedia t (fun d => d.rekeyStep media region.toNat)

/-! ### CABINET_AUTH (18 R669-R673) -/

/-- A secret matches its partition's verifier; all zeros where no record was ever written. -/
def Dev.secretMatches (d : Dev) (part : Nat) (secret : List Byte) : Bool :=
  match d.cab.lookup cabPassword part with
  | some p => decide (leNat (sha256 (leBytes 16 (cabFld p 0 16) ++ secret)) = cabFld p 16 32)
  | none => decide (part ≠ 0) && decide (leNat secret = 0)

def Dev.partitionLocked (d : Dev) (part : Nat) : Bool :=
  d.sec.locks.toNat.testBit part || d.cab.lostPassword part

/-- A failed OPEN; the eighth locks the partition (R671). -/
def Dev.openFails (d : Dev) (part : Nat) : Dev :=
  let n := lget d.sec.fails part + 1
  let d := ({ d with sec := { d.sec with fails := d.sec.fails.set part n } }.event (evSecurity 3)).milestone 10
  if n = 8 then ({ d with sec := { d.sec with locks := setBit d.sec.locks part true } }).event (evSecurity 4)
  else d

def Dev.authOpen (d : Dev) (x : Exec) (part : Nat) (block : List Byte) : Dev :=
  if d.partitionLocked part then d.complete x stPartitionLocked 0
  else if d.secretMatches part block then
    ({ (d.putSession (.head (issuer x)) part true) with
      sec := { (d.putSession (.head (issuer x)) part true).sec with fails := d.sec.fails.set part 0 } }).complete
      x stSuccess 0
  else (d.openFails part).complete x stAuthFail 0

def Dev.authClose (d : Dev) (x : Exec) (part : Nat) (block : List Byte) : Dev :=
  if leNat block ≠ 0 then d.complete x stInvalidField 0
  else (d.putSession (.head (issuer x)) part false).complete x stSuccess 0

/-- CHANGE: a session of the partition, or a vendor session for one whose record is lost (R673). -/
def Dev.authChange (d : Dev) (x : Exec) (part : Nat) (block : List Byte) : Dev :=
  let p := Port.head (issuer x)
  if d.session p part = false ∧ (d.cab.lostPassword part && d.session p 0) = false then
    d.complete x stAuthFail 0
  else if leNat block = 0 then d.complete x stInvalidField 0
  else
    let salt := Config.freeSalt d.draws
    let v := leNat (sha256 (leBytes 16 salt.toNat ++ block))
    { d with draws := d.draws + 1 }.cabWrite cabPassword part 48
      (cabPayload [(0, 16, salt.toNat), (16, 32, v)]) (.change x.qid x.cid part)

def Dev.authKwk (d : Dev) (x : Exec) (part : Nat) (block : List Byte) : Dev :=
  if part ≠ 1 then d.complete x stInvalidField 0
  else if d.session (.head (issuer x)) 1 = false then d.complete x stAuthFail 0
  else
    d.cabWrite cabKwk 0 40 (cabPayload [(0, 40, leNat (keyWrap d.rootKey block))])
      (.setKwk x.qid x.cid (BitVec.ofNat 256 (leNat block)))

def Dev.cabinetAuth (d : Dev) (x : Exec) (host : List HostBytes) : Dev :=
  let part := x.pn 0 0 2
  if d.cabWaits x then d
  else if part = 3 then d.complete x stInvalidField 0
  else
    let what : Option (Nat × Nat) :=
      match x.pn 0 2 2 with
      | 2 => some (cabPassword, part)
      | 3 => some (cabKwk, 0)
      | _ => none
    d.source host x (x.p 1) 32 what (fun d block =>
    match x.pn 0 2 2 with
    | 0 => d.authOpen x part block
    | 1 => d.authClose x part block
    | 2 => d.authChange x part block
    | _ => d.authKwk x part block)

def execCabinetAuth (t : Nat) (qid : BitVec 7) (cid : BitVec 16) (host : List HostBytes) (s : State) :
    Host.Outcome State Fault Refusal :=
  s.after t (fun d => d.command 0x23 qid cid (fun d x => d.cabinetAuth x host))

/-! ### The end of a Cabinet write (18 R660, R661, R741) -/

/-- Complete the command that waited for a record. -/
def Dev.cabAnswer (d : Dev) (op qid cid : Nat) (f : Dev → Exec → Dev) : Dev :=
  match d.q.exec.find? (fun x => x.qid == qid && x.cid == cid && x.opcode == op) with
  | some x => f d x
  | none => d

/-- What a durable record brings about; a record that failed leaves the old state in force. -/
def Dev.cabAfter (d : Dev) (a : CabAfter) (ok : Bool) : Dev :=
  match a with
  | .nothing | .erase => d
  | .keyLoad q c k key =>
    if ok then
      let x : KeySlot := { state := .loaded, key := key, check := checkValue (leBytes 96 key.toNat) }
      let d := d.putSlot k x
      d.cabAnswer 0x20 q c (fun d x => d.keyLoads x k)
    else d.cabAnswer 0x20 q c (fun d x => d.complete x stInternalError 0)
  | .change q c _ =>
    d.cabAnswer 0x23 q c (fun d x => d.complete x (if ok then stSuccess else stInternalError) 0)
  | .setKwk q c kwk =>
    if ok then
      { d with sec := { d.sec with kwk := some kwk } }.cabAnswer 0x23 q c (fun d x => d.complete x stSuccess 0)
    else d.cabAnswer 0x23 q c (fun d x => d.complete x stInternalError 0)
  | .fwCommit => if ok then d.commitDurable else d.commitRefused
  | .ztPtr => if ok then d.ckptDurable else d

/-- One slot write and its read-back end: durable, repeated once, or given up with one event. -/
def Dev.cabDone (d : Dev) (ok : Bool) : Dev :=
  match d.cab.busy with
  | none => d
  | some (r, n) =>
    if ok then { d with cab := d.cab.done r }.cabAfter r.after true
    else if n = 0 then { d with cab := { d.cab.put r true with busy := some (r, 1) } }
    else
      let slot := (d.cab.target r.pair).1
      let d := { d with cab := ({ d.cab.put r true with busy := none }).startNext }.event (evPlatform 23)
        (cabDetail r.pair slot r.typ.toNat r.id.toNat)
      d.cabAfter r.after false

def execCabinetWriteDone (t : Nat) (ok : Bool) (s : State) : Host.Outcome State Fault Refusal :=
  s.after t (fun d => if d.pwr.vaux then d.cabDone ok else d)

/-- Every write asked for is made at once: a step that ends only when they are durable. -/
def drainCab : Nat → Dev → Dev
  | 0, d => d
  | n + 1, d =>
    let d := { d with cab := d.cab.startNext }
    if d.cab.busy.isNone then d else drainCab n (d.cabDone true)

def Dev.cabDrain (d : Dev) : Dev := drainCab (3 * d.cab.queue.length + 6) d

/-! ### SEC_CFG (R589) -/

def offSecCfg : Nat := 0x22000

/-- Key ID 0 is some region's. -/
def Dev.plainRegion (d : Dev) : Bool := d.regionsL.any (fun p => p.2.keyId == 0)

/-- A write of SEC_CFG from a port with an open owner session. -/
def Dev.writeSecCfg (d : Dev) (p : Port) (v : Nat) : Dev :=
  if d.session p 1 = false then d.denied
  else if d.sec.secLock then d.regReserved p offSecCfg
  else if v.testBit 0 = false ∧ d.plainRegion = true then d.regReserved p offSecCfg
  else { d with sec := { d.sec with plaintext := v.testBit 0, secLock := v.testBit 31 } }

def execSecCfgWrite (t : Nat) (p : Port) (value : BitVec 32) (s : State) : Host.Outcome State Fault Refusal :=
  s.after t (fun d => if d.portOn p then d.writeSecCfg p value.toNat else d)

end Sys2Proof.Machine
end

