-- ==== Sys2Proof/Machine/Energy.lean ====
section
/-!
DEFINITION. The hold-up bank as the Bench sees it (16 R618-R624, 04 R164-R168): ENERGY_LIMIT from C, ESR and
the bank's voltage, the first ENERGY_LIMIT of a start, the conditions of EXPOSED, the parts of a bank test
that other work brings on, and memory ready (19 R680), which the first ENERGY_LIMIT or EXPOSED brings about.
Voltages in mV, C in nF, ESR in microhm, times on the always-on clock.
-/

namespace Sys2Proof.Machine

/-! ### ENERGY_LIMIT (R620) -/

/-- ESR while no test has passed since VAUX power-on: 200 milliohm. -/
def esrDefault : Nat := 200000

/-- ENERGY_LIMIT, exactly: 0.45 C (V^2 - V_FLOOR^2), less 40 mJ, over 750 nJ; V_FLOOR = 6 V + 10 A ESR. -/
def energyOf (cap esr mv : Nat) : Nat :=
  (9 * cap * ((100 * mv) ^ 2 - (600000 + esr) ^ 2) - 8 * 10 ^ 18) / (15 * 10 ^ 13)

/-- ENERGY_LIMIT with V_USE mv, where a test has given C. -/
def PowerBlock.energyAt (p : PowerBlock) (mv : Nat) : Option Nat :=
  p.capNf.map (fun c => energyOf c (p.esrUohm.getD esrDefault) mv)

/-- V_TARGET, and V_USE of TEST_CAP (R618, R623). -/
def vTarget : Nat := 12000
def vTest : Nat := 9000

/-- A result of FAIL_CAP, FAIL_ESR or FAIL_MEAS (R624). -/
def testFailed (result : Nat) : Bool := decide (2 ≤ result) && decide (result ≤ 4)

/-- The newest valid test is less than 26 h old, and no test since was cut off (R622, R624). -/
def Dev.testFresh (d : Dev) : Bool :=
  match d.pwr.testedAt with
  | some a => decide (d.aon - a < 26 * hourNs) && decide (d.pwr.result.toNat ≠ 6)
  | none => false

/-! ### EXPOSED (R164-R168) -/

/-- A condition of R164 holds. -/
def Dev.exposedCond (d : Dev) : Bool :=
  let p := d.pwr
  (match p.energy with
    | some e => decide (e < 8192)
    | none => decide (1500 * msNs ≤ d.now)) ||
  (decide (p.bankMv.toNat < 6000) && p.vinGood && p.chargedOnce) ||
  (testFailed p.result.toNat && decide (p.test ≠ .recharging)) ||
  p.chgFault

/-- Enter EXPOSED: every Bench entry is to be programmed (R165). -/
def Dev.enterExposed (d : Dev) : Dev :=
  { d with
    bench := { d.bench with exposed := true }
    pwr := { d.pwr with testAt := if d.pwr.test = BankTest.idle then d.aon else d.pwr.testAt } }.selectAll

/-- The conditions of R164, evaluated outside a drain. -/
def Dev.checkExposed (d : Dev) : Dev :=
  if d.life.running && decide (d.pwr.state = .on) && !d.bench.draining && !d.bench.exposed && d.exposedCond then
    d.enterExposed
  else d

/-! ### Memory ready (19 R680, R686) -/

/-- What follows an unclean stop at memory ready: one event, and the recount (R163, R461). -/
def Dev.noteUnclean (d : Dev) : Dev :=
  if d.life.lastStop = .unclean then
    let d := d.event (evPlatform 3)
    { d with obj := { d.obj with recount := d.regionsL.any (fun p => decide (p.2.typ = .index)) } }
  else d

/-- A SET_TIME that came before memory ready (11 R413). -/
def Dev.takeHeldTime (d : Dev) : Dev :=
  match d.q.heldTime with
  | some w => ({ d with q := { d.q with heldTime := none } }).applyTime w.toNat
  | none => d

/-- Memory ready. -/
def Dev.memoryStarts (d : Dev) : Dev :=
  let d := { d with
    life := { d.life with stage := .ready, readyMs := min 65535 (d.now / msNs) }
    therm := { d.therm with readyAt := some d.now, driftCkAt := d.now } }
  let up (x : HeadSt) : HeadSt := { x with memActive := x.linkUp }
  let d := (((d.onHead .a up).onHead .b up).noteUnclean).takeHeldTime
  d.each d.leftMoving Dev.recoverMove

/-- Step ENERGY ends with the first ENERGY_LIMIT or with EXPOSED. -/
def Dev.tryReady (d : Dev) : Dev :=
  if d.life.running && decide (d.life.stage = .energy) && (d.pwr.energy.isSome || d.bench.exposed) then
    d.memoryStarts
  else d

/-! ### The first ENERGY_LIMIT of a start (R622) -/

/-- A bank test is wanted: it waits until the bank has been charged for 1 s (R623 step 1). -/
def Dev.wantTest (d : Dev) : Dev :=
  if d.pwr.test = .idle ∨ d.pwr.test = .postponed then
    { d with pwr := { d.pwr with test := .waitCharged } }
  else d

/-- Once the bank is charged: the newest test gives ENERGY_LIMIT, or a test runs. -/
def Dev.firstEnergy (d : Dev) : Dev :=
  if d.life.running && decide (d.pwr.state = .on) && d.pwr.energy.isNone && d.pwr.charged then
    if d.testFresh then
      { d with pwr := { d.pwr with energy := d.pwr.energyAt (min vTarget d.pwr.bankMv.toNat) } }
    else d.wantTest
  else d

/-- A start gives no ENERGY_LIMIT of its own. A charge reported before a warm start is one since the last ON (04 R164). -/
def Dev.startEnergy (d : Dev) : Dev :=
  { d with pwr := { d.pwr with
      energy := none, energyNext := none, testCap := none, test := .idle, testAt := d.aon,
      chargedOnce := d.pwr.charged || (d.life.warm && d.pwr.chargedOnce) } }

/-! ### A bank test's end (R623 step 6) and its hold (step 2) -/

/-- TEST_CAP is released; the ENERGY_LIMIT of the test takes effect, and EXPOSED is left or entered. -/
def Dev.releaseTest (d : Dev) : Dev :=
  let p := d.pwr
  let d := { d with pwr := { p with
    testCap := none, test := .idle, testAt := d.aon, energyNext := none,
    energy := match p.energyNext with
      | some e => some e
      | none => p.energy } }
  if d.bench.exposed && !d.exposedCond && decide (16384 ≤ d.pwr.energy.getD 0) then
    { d with bench := { d.bench with exposed := false } }
  else d.checkExposed

/-- The load is applied once occupancy and reservations are within TEST_CAP. -/
def Dev.testGoesOn (d : Dev) : Dev :=
  let fits := match d.pwr.testCap with
    | some c => decide (d.occupancy + d.reservedLines ≤ c)
    | none => true
  if decide (d.pwr.test = .holding) && fits then { d with pwr := { d.pwr with test := .loaded } } else d

/-- Power fails during a test: the load is removed; the result is ABORTED unless it has been given (R624). -/
def Dev.abortTest (d : Dev) : Dev :=
  let p := d.pwr
  let cut := decide (p.test = .holding) || decide (p.test = .loaded)
  let result := if cut then 6 else p.result
  ({ d with pwr := { p with
      test := .idle, testCap := none, energyNext := none, testAt := d.aon, result := result } }).when cut
    (·.event (evBank 0))

/-! ### Bank readings (R618, R164) -/

/-- Within 0.1 V of V_TARGET. -/
def nearTarget (mv : Nat) : Bool := decide (11900 ≤ mv) && decide (mv ≤ 12100)

/-- A reading of the bank: charged or not, what a charged bank ends, and the conditions of EXPOSED. -/
def Dev.bankReads (d : Dev) (mv : Nat) : Dev :=
  let p := { d.pwr with bankMv := BitVec.ofNat 16 mv }
  if p.test = .loaded then { d with pwr := p }
  else
    let near := nearTarget mv
    let d := { d with pwr := { p with
      charged := near, chargedAt := if near && !p.charged then d.aon else p.chargedAt,
      chargedOnce := p.chargedOnce || (near && decide (p.state = PwrState.on)), chgFault := p.chgFault && !near } }
    let d := if near && decide (d.pwr.test = .recharging) then d.releaseTest else d
    (d.firstEnergy.checkExposed).tryReady

end Sys2Proof.Machine
end

