-- ==== Sys2Proof/Machine/Start.lean ====
section
/-!
DEFINITION. A start (19 R677-R686): what a device reset keeps, then the steps REPAIR to CHECKS of R679 as one
step of the model (log entry 31): repairs, BIST, clusters, lanes and dies, keys and drift, the Zone Table from
its checkpoint and journal or a format, resync (04 R172) and the checks. Step ENERGY ends under Energy.
-/

namespace Sys2Proof.Machine

/-! ### A device reset (R677, R678, 21 R730) -/

/-- A Cabinet write goes on over a device reset; what waited for it is gone. -/
def orphanReq (r : CabReq) : CabReq :=
  match r.after with
  | .erase => r
  | _ => { r with after := .nothing }

def CabBlock.orphan (c : CabBlock) : CabBlock :=
  { c with
    queue := c.queue.map orphanReq
    busy := c.busy.map (fun p => (orphanReq p.1, p.2)) }

/-- A head keeps its PERST# pin; its configuration space answers once PERST# is high (R331). -/
def startHead (x : HeadSt) : HeadSt :=
  let y : HeadSt := { Reset.head with inReset := x.inReset, resetAt := 0 }
  if x.inReset then y else y.answersCfg

/-- Heads whose PERST# is high answer their configuration space from the start on (R331). -/
def Dev.cfgHeads (d : Dev) : Dev :=
  d.each [Head.a, Head.b] (fun d h => if (d.head h).cfgReady then d.send (.cfgReady h) else d)

/-- Drift and thermal state of the always-on domain; a warm start keeps DRIFT_CFG, which a cold start resets
(R730). -/
def startTherm (x : ThermBlock) (warm : Bool) : ThermBlock :=
  let t := { Reset.therm with
    epos := x.epos, hdie := x.hdie, eaTable := x.eaTable, aonAt := x.aonAt, tripped := x.tripped,
    offCase := x.offCase, offCharge := x.offCharge, ckWall := x.ckWall }
  if warm then { t with ea := x.ea, toff := x.toff, driftLock := x.driftLock } else t

/-- Firmware slots lie on the medium; fields locked until the next cold start outlive a warm start, and so do
the failure counts and locks of partitions (18 R671). -/
def startSec (x : SecBlock) (warm : Bool) : SecBlock :=
  let s := { Reset.sec with fw0 := x.fw0, fw1 := x.fw1 }
  if warm then { s with
    plaintext := x.plaintext, secLock := x.secLock, testUnlocked := x.testUnlocked, injAllow := x.injAllow,
    injLock := x.injLock, fails := x.fails, locks := x.locks }
  else s

/-- The kind of the last stop: the DRAIN record against the power-up count (R682). -/
def Dev.lastStopOf (d : Dev) (warm : Bool) : LastStop :=
  match d.cab.lookup cabDrainRec 0 with
  | none => .unclean
  | some p =>
    if cabFld p 4 4 + (if warm then 0 else 1) = d.mile 0 then
      match cabFld p 0 1 with
      | 2 => .orderly
      | 1 => .drained
      | _ => .unclean
    else .unclean

/-- A region's owner, lockdown and attributes, as a record gives them (09 R353). -/
def keepRegion (s : SysData) (id : Nat) (x : Region) : SysData :=
  match tget none s.regions id with
  | some y => { s with regions := tset none s.regions id (some { y with
      owner := x.owner, locked := x.locked, lockOnMac := x.lockOnMac, rclass := x.rclass, xovr := x.xovr,
      profile := x.profile }) }
  | none => s

/-- What a record that waits in the Bench for its program leaves of itself after any stop. -/
def keepRec (s : SysData) (r : SysRec) : SysData :=
  match r with
  | .intent _ _ | .lineIntent _ _ _ => applySys s r
  | .region id (some x) => keepRegion s id x
  | _ => s

/-- Intent bits and records that wait in the Bench for their programs outlive any stop, and so do a region's owner,
lockdown and attributes (04 R162 step 3, R170, 09 R353). DEDUCED: the manual promises what a torn line reads as and whose a
region is after any stop, which these records decide (log entry 57). -/
def Dev.keptTables (d : Dev) : SysData :=
  d.bench.entries.foldl (fun s e => match e.kind with
    | .system recs => recs.foldl keepRec s
    | _ => s) d.nv

/-- The device as a device reset leaves it; took: what the steps of the start take. -/
def Dev.afterReset (d : Dev) (warm : Bool) (took : Nat) : Dev :=
  { Reset.dev with
    now := took / 5 * 5
    aon := d.aon + took / 5 * 5
    draws := d.draws
    medium := d.medium
    sys := d.keptTables
    nv := d.keptTables
    cache := { Reset.cache with abandoned := d.life.maintCut }
    headA := startHead d.headA
    headB := startHead d.headB
    obj := { Reset.obj with counts := d.obj.counts }
    zt := { Reset.zt with
      chargeFrom := if d.pwr.continuity then d.zt.chargeFrom else none
      deferred := d.pwr.continuity && d.zt.chargeFrom.isSome }
    sec := startSec d.sec warm
    pwr := d.pwr
    therm := startTherm d.therm warm
    cab := d.cab.orphan
    life := { Reset.life with
      warm := warm, lastStop := d.lastStopOf warm, bistNext := d.life.bistNext,
      resets := d.life.resets + 1, running := true, tap := d.life.tap, testEn := d.life.testEn,
      smbus := d.life.smbus }
    out := d.out }

/-! ### Halts (R685) -/

def Dev.halt (d : Dev) (cause : Nat) : Dev :=
  ({ d with life := { d.life with stage := .halted, halt := cause } }).level (evPlatform 26) true
    (detailOf [(32, cause), (33, stageNum d.life.stage)])

def Dev.setStage (d : Dev) (st : Stage) : Dev := { d with life := { d.life with stage := st } }

/-- A step of a start that has not halted. -/
def Dev.atStage (d : Dev) (st : Stage) (f : Dev → Dev) : Dev :=
  if d.life.stage = .halted then d else f (d.setStage st)

/-! ### Steps 1 to 3: REPAIR, BIST, BOOT -/

/-- Retirements that REPAIR records hold (R692); a row or column spare changes no behaviour. -/
def Dev.stepRepair (d : Dev) : Dev :=
  d.each d.repairs (fun d p =>
    if repairKind p = 3 then d.retireUnit (retireOf (BitVec.ofNat 16 (repairUnit p))) else d)

/-- Start-up BIST is required (R689). -/
def Dev.bistNeeded (d : Dev) : Bool :=
  d.life.bistNext || decide (d.life.lastStop ≠ .orderly) ||
  (upTo 8).any (fun i => match d.cab.lookup cabBistSig i with
    | none => true
    | some p => decide (4 ≤ i) && !(decide (cabFld p 32 1 = 1) || decide (cabFld p 32 1 = 2)))

def Dev.stepBist (d : Dev) (l : List BistFail) : Dev :=
  if d.bistNeeded then
    let d := { d with life := { d.life with bistRan := true, bistNext := false } }.bistAll l 2
    if d.life.bistRes.contains 4 then d.halt 1 else d
  else d

/-- The FW_SLOT record, or slot 0 on every cluster (18 R664). -/
def Dev.readFwSlot (d : Dev) : Dev :=
  match d.cab.lookup cabFwSlot 0 with
  | some p => { d with sec := { d.sec with
      active := BitVec.ofNat 4 (cabFld p 24 1), badBits := BitVec.ofNat 8 (cabFld p 25 1) } }
  | none => { d with sec := { d.sec with active := 0, badBits := 0 } }

/-- One cluster: the slot named for it, then the other (R308, R309). -/
def Dev.bootCluster (d : Dev) (c : Nat) : Dev :=
  if d.sec.halted.toNat.testBit c then d
  else
    let d := d.heldLoaded c
    if d.sec.held.toNat.testBit c then d.heldLoaded c else d

def Dev.stepBoot (d : Dev) : Dev :=
  let d := d.readFwSlot.each (upTo 4) Dev.bootCluster
  if d.sec.halted.toNat.testBit 0 ∨ d.sec.halted.toNat.testBit 1 then d.halt 3 else d

/-! ### Step 4: MEDIA (01 R15, R16, 18 R664) -/

def scopeOfNum : Nat → ScopeState
  | 0 => .inService
  | 1 => .detour
  | 2 => .detour
  | 3 => .restoring
  | 4 => .dead
  | _ => .inService

/-- A lane as its record leaves it; a test that a stop cut off leaves its scope in Detour. -/
def laneOfRecord (p : BitVec 384) : Lane :=
  { Reset.lane1 with
    lstate := scopeOfNum (cabFld p 0 1), cause := cabFld p 1 1,
    dies := Vector.ofFn (fun (i : Fin 8) => scopeOfNum (cabFld p 4 3 / 8 ^ i.val % 8)),
    cursor := cabFld p 8 4, testResult := cabFld p 12 1, present := BitVec.ofNat 8 (cabFld p 13 1) }

def answeredOf (x : StartInputs) (lane : Nat) : BitVec 8 :=
  if x.trained.toNat.testBit lane then (x.dies[lane]?).getD 0 else 0

/-- Dies of a lane that count as present: those that answered and those recorded; every die of a lane that
failed training and has no record. -/
def Dev.presentOf (d : Dev) (x : StartInputs) (lane : Nat) : BitVec 8 :=
  match d.cab.lookup cabLane lane with
  | some p => answeredOf x lane ||| BitVec.ofNat 8 (cabFld p 13 1)
  | none => if x.trained.toNat.testBit lane then answeredOf x lane else 0xFF

/-- Die positions in use. -/
def Dev.positionsInUse (d : Dev) (x : StartInputs) : BitVec 8 :=
  (upTo 16).foldl (fun m i => m &&& d.presentOf x i) 0xFF

/-- A lane from its record, the dies at unused positions ABSENT. -/
def Dev.loadLane (d : Dev) (x : StartInputs) (lane : Nat) : Dev :=
  let l := match d.cab.lookup cabLane lane with
    | some p => laneOfRecord p
    | none => Reset.lane1
  d.setLane lane { l with
    trained := x.trained.toNat.testBit lane,
    dies := Vector.ofFn (fun (i : Fin 8) =>
      if d.posUsed i.val then vget .absent l.dies i.val else ScopeState.absent) }

/-- A scope that serves, wholly or in part, goes to Detour. -/
def Dev.failScope (d : Dev) (lane : Nat) (die : Option Nat) (cause : Nat) : Dev :=
  match d.scopeState lane die with
  | .inService => d.takeOut lane die cause
  | .restoring => d.takeOut lane die cause
  | _ => d

/-- Failures that the start finds: a lane that does not train (TRAIN_FAIL), a recorded die that does not
answer (ABSENT); the dies present go into the record. -/
def Dev.checkLane (d : Dev) (x : StartInputs) (lane : Nat) : Dev :=
  let d :=
    if x.trained.toNat.testBit lane then
      d.each (upTo 8) (fun d p =>
        if d.posUsed p && !(answeredOf x lane).toNat.testBit p then d.failScope lane (some p) 4 else d)
    else d.failScope lane none 3
  let present := if x.trained.toNat.testBit lane ∨ (d.cab.lookup cabLane lane).isSome = true then
    d.presentOf x lane else d.lane.posMask
  if (d.lane1 lane).present = present then d
  else (d.onLane lane (fun l => { l with present := present })).laneRecord lane

def zonesPerPosition : Nat := 2 ^ 18

/-- Zone counts of the positions in use. DESIGN CHOICE: 01 gives the figures of 128 dies only; with fewer positions in
use the model keeps its sixteenth of the zones as spares, and its 8,192 zones of system reserve (log entry 12). -/
def Dev.countZones (d : Dev) : Dev :=
  let n := ((upTo 8).filter d.posUsed).length * zonesPerPosition
  { d with life := { d.life with
      physZones := n, spareZones := n / 16, sysZones := min n 8192,
      userZones := n - n / 16 - min n 8192 } }

/-- Drift tables of the dies (02 R74). -/
def Dev.loadNu (d : Dev) : Dev :=
  d.each (upTo 128) (fun d i =>
    match d.cab.lookup cabDriftCal i with
    | some p => { d with lane := { d.lane with
        nu := tset defaultNu d.lane.nu i ((upTo 16).map (fun j => cabFld p (2 * j) 2)) } }
    | none => d)

def Dev.stepMedia (d : Dev) (x : StartInputs) : Dev :=
  let d := { d with lane := { d.lane with posMask := d.positionsInUse x } }
  let d := d.each (upTo 16) (fun d i => d.loadLane x i)
  ((d.each (upTo 16) (fun d i => d.checkLane x i)).countZones).loadNu

/-! ### Step 5: KEYS (15 R563, 02 R77-R81, 18 R662) -/

def Dev.loadKeys (d : Dev) : Dev :=
  let d := d.each ((upTo 128).filter (fun k => decide (1 ≤ k))) (fun d k =>
    match d.cab.lookup cabKey k with
    | some p =>
      let x : KeySlot := { state := .absent, key := 0, check := BitVec.ofNat 64 (cabFld p 0 8) }
      { d with sec := { d.sec with slots := tset slotFree d.sec.slots k x } }
    | none => d)
  match d.cab.lookup cabKwk 0 with
  | some p => { d with sec := { d.sec with
      kwk := (keyUnwrap d.rootKey (leBytes 40 p.toNat)).map (fun b => BitVec.ofNat 256 (leNat b)) } }
  | none => d

/-- The copy of part j of the drift set that carries a generation. -/
def CabBlock.ckptPart (c : CabBlock) (gen j : Nat) : Option (BitVec 384) :=
  (match c.slot (46 + j) 0, c.slot (46 + j) 1 with
   | a, b => [a, b].filterMap id).find? (fun x => cabValid (46 + j) x && decide (cabFld x.payload 0 4 = gen)) |>.map
    CabSlot.payload

/-- The set of one commit copy: its payload and the integrals. -/
def CabBlock.ckptSet (c : CabBlock) (commit : BitVec 384) : Option (BitVec 384 × List Nat) :=
  (allSome ((upTo 28).map (fun j => c.ckptPart (cabFld commit 0 4) (j + 1)))).map (fun l =>
    (commit, l.flatMap (fun p => (upTo 5).map (fun i => cabFld p (8 + 8 * i) 8))))

/-- Valid commit copies, newest first. -/
def CabBlock.commits (c : CabBlock) : List (BitVec 384) :=
  match c.winner 46 with
  | none => []
  | some (s, x) =>
    (if x.typ.toNat = cabDriftCkpt then [x.payload] else []) ++
    (match c.slot 46 (1 - s) with
     | some y => if cabValid 46 y && decide (y.typ.toNat = cabDriftCkpt) then [y.payload] else []
     | none => [])

/-- The drift checkpoint set in force. -/
def CabBlock.driftSet (c : CabBlock) : Option (BitVec 384 × List Nat) := c.commits.findSome? c.ckptSet

/-- The integrals that a list E_0-E_7, H_000-H_127 gives; zeros where it gives none (R79). -/
def Dev.restoreIntegrals (d : Dev) (l : List Nat) : Dev :=
  { d with therm := { d.therm with
      epos := Vector.ofFn (fun (i : Fin 8) => lget l i.val)
      hdie := Vector.ofFn (fun (i : Fin 128) => lget l (8 + i.val)) } }

/-- The off interval waits for a SET_TIME, measured from a wall time (R79). -/
def Dev.awaitTime (d : Dev) (wall : Nat) : Dev :=
  { d with
    therm := { d.therm with offCase := 3, offCharge := 0, ckWall := some wall }
    zt := { d.zt with deferred := true } }

/-- The integrals of the checkpoint set, awaiting SET_TIME or charged at the worst; without a set, zeros charged at
the worst (R79, R81). -/
def Dev.restoreDrift (d : Dev) : Dev :=
  match d.cab.driftSet with
  | none => (d.restoreIntegrals []).chargeWorst
  | some (commit, l) =>
    let d := d.restoreIntegrals l
    if cabFld commit 16 1 = 1 then d.awaitTime (cabFld commit 8 8) else d.chargeWorst

/-- Drift across the stop. While an earlier interval is unresolved it stays so, and goes on from the wall time that the
checkpoint still holds (R83). DESIGN CHOICE: the manual does not say when the continuity flag is set again; here, at
this step, before the interval is resolved (log entry 133). DESIGN CHOICE: OFF_CHARGE is 0 at OFF_CASE 0b000, where the
supervisor has integrated the interval and nothing is charged (log entry 135). -/
def Dev.loadDrift (d : Dev) : Dev :=
  if d.pwr.continuity then
    match d.therm.offCase, d.therm.ckWall with
    | 3, some wall => d.awaitTime wall
    | _, _ => { d with therm := { d.therm with offCase := 0, offCharge := 0 } }
  else { d with pwr := { d.pwr with continuity := true } }.restoreDrift

def Dev.stepKeys (d : Dev) : Dev := d.loadKeys.loadDrift

/-! ### Step 6: ZT (06 R230, R748, 19 R684) -/

/-- Valid copies of the pointer record, the winner first. -/
def CabBlock.ztPtrs (c : CabBlock) : List (BitVec 384) :=
  match c.winner 3 with
  | none => []
  | some (s, x) =>
    (if x.typ.toNat = cabZtPtr then [x.payload] else []) ++
    (match c.slot 3 (1 - s) with
     | some y => if cabValid 3 y && decide (y.typ.toNat = cabZtPtr) then [y.payload] else []
     | none => [])

/-- The checkpoint that a ZT_PTR payload names, its zones' stamps as this start takes them (R224). -/
def Dev.ckptOf (d : Dev) (p : BitVec 384) : Ckpt :=
  let a := cabFld p 0 4
  let b := cabFld p 4 4
  let j := cabFld p 8 4
  { zone0 := a, zone1 := b, mstamp0 := d.agedStamp a (cabFld p 20 2), mstamp1 := d.agedStamp b (cabFld p 22 2),
    jzone := j, joffset := cabFld p 12 2, jmstamp := d.agedStamp j (cabFld p 24 2),
    jseqStart := BitVec.ofNat 32 (cabFld p 16 4) }

/-- The first checkpoint that reads, with its Zone Table (R230 step 1). -/
def firstCkpt (ans : Answers) : List Ckpt → Dev → Dev × Option (Ckpt × Sparse (BitVec 64))
  | [], d => (d, none)
  | c :: l, d =>
    match d.readZt ans c with
    | (d, some zt) => (d, some (c, zt))
    | (d, none) => firstCkpt ans l d

/-- The journal that each checkpoint names. -/
def Dev.readJournals (d : Dev) (ans : Answers) (l : List Ckpt) : Dev × List JRead :=
  l.foldl (fun (acc : Dev × List JRead) c =>
    let (d, x) := acc.1.readJournal ans c
    (d, acc.2 ++ [x])) (d, [])

/-- Of two readings of a journal, the one that goes further back. -/
def longerJournal (x y : JRead) : JRead := if x.zones.length < y.zones.length then y else x

/-- A PSTATE brought back by replay, with LAST_LZONE where the record gives one. -/
def Dev.replayState (d : Dev) (pz st : Nat) (last : Option Nat) : Dev :=
  let r := d.wearRec pz
  let w := mkWear (wWear r) st (last.getD (wLast r))
  if BitVec.ofNat 64 r = w then d else d.sysPut (.wear pz w)

/-- The effect of one journal record (R225). -/
def Dev.replay (d : Dev) (r : JRec) : Dev :=
  let z := r.zone.toNat
  let a := r.arg.toNat
  let e := r.image.toNat
  match r.typ with
  | .bind => (d.setZte z e).replayState (zPz e) psBound none
  | .unbind => (d.setZte z e).replayState a psDirty (some z)
  | .gap => d.setZte z e
  | .moveStart => (d.setZte z (zWithState (d.zte z) 2)).replayState a psFilling none
  | .switch => ((d.setZte z e).replayState (zPz e) psBound none).replayState a psDirty (some z)
  | .moveAbort => (d.setZte z (zWithState (d.zte z) 1)).replayState a psDirty (some z)
  | .pclrDone => d.replayState z psClear none
  | .retire => d.replayState z psRetired none
  | .stamp => d.setZte z e
  | .link => d.replayState z psMeta none

/-- PSTATE METADATA stands for the metadata zones alone (R748). -/
def Dev.fixMeta (d : Dev) (metas : List Nat) : Dev :=
  let stale := (d.sys.wear.filter (fun p => decide (wState p.2.toNat = psMeta) && !metas.contains p.1)).map Prod.fst
  let d := d.each stale (fun d z => d.replayState z psDirty none)
  d.each metas (fun d z => d.replayState z psMeta none)

/-- Saved lines are pinned entries again, and their zones are to retire (04 R751). -/
def Dev.loadSaved (d : Dev) : Dev :=
  d.each d.sys.saved (fun d p =>
    d.addEntry { mkEntry p.region p.line .victim p.data p.valid p.poison (sameCause 1) with
      state := EntryState.pinned, image := some 0 })

/-- A rekey goes on behind a crossing range that reaches from PERSIST to LIMIT (15 R569). -/
def resumeRekey (r : Region) : Region :=
  { r with rekey := r.rekey.map (fun q => { q with boundary := q.persist, resumed := true }) }

def Dev.resumeRekeys (d : Dev) : Dev :=
  { d with sys := { d.sys with regions := d.sys.regions.map (fun p => (p.1, p.2.map resumeRekey)) } }

/-- The Zone Table from a checkpoint and the journal after it (R230 steps 2 and 3); all: what both copies of the pointer
name. The chain is kept from the oldest zone on that leads to the checkpoint's own. -/
def Dev.rebuildZt (d : Dev) (ans : Answers) (all : List Ckpt) (c : Ckpt) (zt : Sparse (BitVec 64)) : Dev :=
  let (d, x) := d.readJournal ans c
  let (d, chains) := d.readJournals ans (all.filter (· != c))
  let back := (chains.filter (fun y => y.zones.any (fun z => z.pzone == c.jzone))).foldl longerJournal x
  let d := { d with zt := { d.zt with
    entries := zt, ckpts := all, jseqNext := x.next, recsSince := (x.next - c.jseqStart).toNat,
    jzones := back.zones, readBack := back.recs } }
  (d.each x.recs Dev.replay).fixMeta
    ((all.flatMap (fun c => [c.zone0, c.zone1]) ++ (x :: chains).flatMap (fun y => y.zones.map JZone.pzone)).eraseDups)

/-- The lowest physical zones outside the system reserve at positions in use. -/
def Dev.lowestZones (d : Dev) (n : Nat) : List Nat :=
  (((upTo 8).filter d.posUsed).flatMap (fun p =>
    (upTo (8192 + n)).map (fun i => p * zonesPerPosition + i))).filter (fun z => !d.isReserve z) |>.take n

/-- Format (R684). -/
def Dev.format (d : Dev) (ans : Answers) : Dev :=
  let d := { d with sys := Reset.sysData, nv := Reset.sysData, zt := { d.zt with
    entries := [], jzones := [], ckpts := [], jseqNext := 0 } }
  let eight := d.lowestZones 8
  let d := d.each eight (fun d z => (((d.preclearCells z ans).setPstate z psClear).addWear z 64).count (cntPlace 2) 1)
  match eight with
  | j :: a :: b :: rest =>
    let jm := d.mstampOf j
    let c : Ckpt :=
      { zone0 := a, zone1 := b, mstamp0 := d.mstampOf a, mstamp1 := d.mstampOf b, jzone := j, joffset := 0,
        jmstamp := jm, jseqStart := 0 }
    let d := ((d.takeMeta j).takeMeta a).takeMeta b
    let d := { d with zt := { d.zt with
      jzones := [{ pzone := j, mstamp := jm, first := 0, used := 0, wseq := 0 }], ckpts := [c] } }
    let d := d.each rest (fun d z => d.journalPut .pclrDone 0 z 0 0)
    ((d.cabWrite cabZtPtr 0 26 (ztPtrPayload c)).putLifetime
      { dirty := if d.life.lastStop = .unclean then 1 else 0, svn := d.runningSvn, wall := 0 }).cabSettle
  | _ => d

/-- Once the tables are loaded: the heads' capacities as they stand (09 R338), PLAINTEXT_EN (15 R589), saved lines, rekeys. -/
def Dev.ztLoaded (d : Dev) : Dev :=
  let d := { d with life := { d.life with formatted := true } }
  let d := if d.plainRegion then { d with sec := { d.sec with plaintext := true } } else d
  let d := (d.onHead .a (fun x => { x with capacity := d.capacity .a })).onHead .b (fun x => { x with
    capacity := d.capacity .b })
  d.resumeRekeys.loadSaved

def Dev.stepZt (d : Dev) (ans : Answers) : Dev :=
  match d.cab.record 0, d.cab.ztPtrs with
  | none, [] => (d.format ans).ztLoaded
  | _, l =>
    let all := l.map d.ckptOf
    match firstCkpt ans all d with
    | (d, some (c, zt)) => (d.rebuildZt ans all c zt).ztLoaded
    | (d, none) => d.halt 2

/-! ### Step 7: RESYNC (04 R171, R172) -/

/-- A line that confirms in some pass: its cells and metadata. -/
def Dev.resyncSense (d : Dev) (ans : Answers) (c : LineCtx) : Option (LineData × Meta) :=
  match d.tryPasses ans c false [1, 2, 3, 4, 5] with
  | some (.good cells m _, _, _) => some (cells, m)
  | _ => none

/-- A second confirmed copy of the line at its zone's gap offset (06 R235, R236), when its WSEQ is the higher: its value
stands (R161). -/
def Dev.newerCopy (d : Dev) (ans : Answers) (t : StripeCtx) (c : LineCtx) : Option (LineData × Meta) :=
  match d.resyncSense ans c, d.resyncSense ans (c.movedTo (zPz t.e) (zGap t.e) c.prof) with
  | some (_, m), some (x, k) => if m.wseq < k.wseq then some (x, k) else none
  | _, _ => none

def Dev.lineFails (d : Dev) (ans : Answers) (c : LineCtx) : Bool :=
  d.inService c.pla && (d.resyncSense ans c).isNone

/-- List a line, or keep it as a pinned entry of poisoned sectors while the list has no room (04 R175). -/
def Dev.listOrPin (d : Dev) (cause : Nat) (c : LineCtx) : Dev :=
  if d.recordRoom (if d.needsRecord c.region c.lineNo cause then 1 else 0) then d.enterPoison c.region c.lineNo cause 0xF
  else d.addEntry { mkEntry c.region c.lineNo .victim 0 0xF 0xF (sameCause cause) with state := .pinned }

/-- List every data or primary line among some lines. -/
def Dev.listLines (d : Dev) (l : List LineCtx) (cause : Nat) : Dev :=
  d.each (l.filter (fun c => c.line.isSome)) (fun d c => d.listOrPin cause c)

/-- Lines that confirm count towards an EARLY move of their zone (06 R255). -/
def Dev.resyncEarly (d : Dev) (ans : Answers) (l : List LineCtx) : Dev :=
  d.each l (fun d c =>
    if d.inService c.pla then
      match d.tryPasses ans c false [1, 2, 3, 4, 5] with
      | some (.good _ _ n, _, pass) => d.earlyIf c pass n
      | _ => d
    else d)

/-- A line as resync leaves it, and whether it is programmed for that. -/
abbrev Settled := Copied × Bool

/-- A data or primary line with a value of its own: kept, or rewritten from a newer copy. -/
def Dev.settled (d : Dev) (ans : Answers) (t : StripeCtx) (c : LineCtx) (wseq : Nat) : Option Settled :=
  match d.newerCopy ans t c, d.resyncSense ans c with
  | some (x, m), _ => some (⟨c, d.restamp c.pla c.prof x m wseq, d.payload c x m⟩, true)
  | none, some (x, m) => some (⟨c, goodImage c x m, d.payload c x m⟩, false)
  | none, none => none

/-- A line that counts as zeros and is left as it is: one that has been listed. -/
def unsettled (c : LineCtx) : Settled := (⟨c, 0, 0⟩, false)

/-- The stripe's data lines as resync leaves them; fix: what becomes of one that does not confirm. -/
def Dev.settleData (d : Dev) (ans : Answers) (t : StripeCtx) (wseq : Nat) (fix : LineCtx → Settled) : List Settled :=
  t.data.map (fun c => (d.settled ans t c wseq).getD (fix c))

/-- Program the lines that need it, then the stripe's parity line or copies from all of them (R172 step 8). -/
def Dev.writeSettled (d : Dev) (ans : Answers) (t : StripeCtx) (l : List Settled) : Dev :=
  let data := l.map Prod.fst
  (d.progAll ans ((l.filter Prod.snd).map Prod.fst)
    (copyChecks t (zPz t.e) (roundabout t.e t.s) (zProfile t.e) data)).1

/-- A line rewritten as zeros. -/
def Dev.settledZero (d : Dev) (t : StripeCtx) (wseq : Nat) (c : LineCtx) : Settled :=
  (⟨c, d.plainImage c wseq (t.r.writeKey c.idx) false 0, 0⟩, true)

/-- What a line on an out lane stands for in its stripe. -/
def Dev.standing (d : Dev) (ans : Answers) (t : StripeCtx) (c : LineCtx) : Image :=
  match d.reconstruct ans t c false [1, 2, 3, 4, 5] with
  | (.good _ _ _, img) => img
  | _ => 0

/-- A PARITY stripe (R172). DESIGN CHOICE: a line that fails alone and that the stripe cannot rebuild is listed TORN, as
where two fail (log entry 161). -/
def Dev.resyncParity (d : Dev) (ans : Answers) (t : StripeCtx) (full : Bool) : Dev :=
  match t.check with
  | [] => d
  | p :: _ =>
    if d.stripeBlank ans t then d
    else
      let d := d.resyncEarly ans t.all
      let out := t.all.filter (fun c => !d.inService c.pla)
      let fails := t.data.filter (d.lineFails ans)
      let (d, wseq) := if fails.isEmpty && t.data.all (fun c => (d.newerCopy ans t c).isNone) then (d, 0)
        else d.takeWseq t.lz
      let keep (d : Dev) (fix : LineCtx → Settled) : Dev := d.writeSettled ans t (d.settleData ans t wseq fix)
      if out.isEmpty = false then
        if fails.isEmpty && !d.lineFails ans p then
          if t.data.all (fun c => (d.newerCopy ans t c).isNone) then d
          else keep d (fun c => (⟨c, d.standing ans t c, 0⟩, false))
        else keep (d.listLines (out ++ fails) 2) unsettled
      else if d.isBlank ans p then keep d (d.settledZero t wseq)
      else
        let fullSeen := full && t.data.any (fun c => match d.resyncSense ans c with
          | some (_, m) => m.full
          | none => false)
        match fails with
        | [] => keep d unsettled
        | [c] =>
          match fullSeen, d.reconstruct ans t c false [1, 2, 3, 4, 5] with
          | false, (.good x m n, _) =>
            keep (d.earlyIf c 6 n) (fun _ => (⟨c, d.restamp c.pla c.prof x m wseq, d.payload c x m⟩, true))
          | _, _ => keep (d.listLines [c] 6) unsettled
        | l => keep (d.listLines l 6) unsettled

/-- One primary of a MIRROR stripe and its copy: the primary as resync leaves it (R171, R172), or none where the pair is
left alone; a copy that reads BLANK holds zeros. -/
def Dev.settlePair (d : Dev) (ans : Answers) (t : StripeCtx) (c k : LineCtx) : Dev × Option Settled :=
  if d.inService c.pla = false ∨ d.inService k.pla = false then
    match d.newerCopy ans t c with
    | some (x, m) =>
      let (d, wseq) := d.takeWseq t.lz
      (d, some (⟨c, d.restamp c.pla c.prof x m wseq, d.payload c x m⟩, true))
    | none => (d, none)
  else
    let d := d.resyncEarly ans [c, k]
    let (d, wseq) := if (d.resyncSense ans c).isSome && (d.newerCopy ans t c).isNone then (d, 0) else d.takeWseq t.lz
    match d.settled ans t c wseq with
    | some x => (d, some x)
    | none =>
      if d.isBlank ans k then (d, if d.isBlank ans c then none else some (d.settledZero t wseq c))
      else
        match (d.resyncSense ans k).bind (fun x => c.reads (parityOf c.prof [goodImage k x.1 x.2])) with
        | some (x, m, _) => (d.earlyIf c 6 0, some (⟨c, d.restamp c.pla c.prof x m wseq, d.payload c x m⟩, true))
        | none => (d.listLines [c] 6, some (unsettled c))

/-- A MIRROR stripe with a line on an out lane and a line that fails (R172 step 7): the lines of both are listed, and the
copies are written from the primaries, zeros for those listed (step 8). -/
def Dev.resyncTorn (d : Dev) (ans : Answers) (t : StripeCtx) (bad : List LineCtx) : Dev :=
  let d := d.listLines bad 2
  let imgs := (d.settleData ans t 0 unsettled).map (fun x => if bad.contains x.1.ctx then 0 else x.1.image)
  (d.progLines ans ((t.check.filter (fun k => !((imgs[k.slot]?).getD 0 == 0 && d.isBlank ans k))).map (fun k =>
    ⟨k, parityOf k.prof [(imgs[k.slot]?).getD 0], 0⟩))).1

/-- A MIRROR stripe: as above, or pair by pair, the primary where it needs a program, then the copy from it (R172
step 8). -/
def Dev.resyncMirror (d : Dev) (ans : Answers) (t : StripeCtx) : Dev :=
  let out := t.all.filter (fun c => !d.inService c.pla)
  let fails := t.all.filter (fun c => d.lineFails ans c && !d.isBlank ans c)
  if out.isEmpty = false ∧ fails.isEmpty = false then d.resyncTorn ans t (out ++ fails)
  else d.each t.data (fun d c => d.each (t.check.filter (fun k => k.slot == c.slot)) (fun d k =>
    match d.settlePair ans t c k with
    | (d, some (x, again)) =>
      (d.progAll ans (if again then [x] else []) [⟨k, parityOf k.prof [x.image], 0⟩]).1
    | (d, none) => d))

/-- A marked zone, stripe by stripe; its mark goes. -/
def Dev.resyncZone (d : Dev) (ans : Answers) (pz : Nat) : Dev :=
  let full := (d.intent pz).toNat.testBit 1
  let d := match d.boundTo pz with
    | some lz => d.each (upTo 4096) (fun d s =>
        match d.stripe lz s with
        | some t =>
          match t.r.prot with
          | .parity => d.resyncParity ans t full
          | .mirror => d.resyncMirror ans t
          | .none => d
        | none => d)
    | none => d
  d.sysPut (.intent pz 0)

/-- A record of the line-intent log: a line that does not confirm is torn. -/
def Dev.resyncLine (d : Dev) (ans : Answers) (p : Nat × Nat) : Dev :=
  let d := match d.region p.1 with
    | some r =>
      match d.lineStripe p.1 r p.2 with
      | some (t, c) =>
        if zMapped t.e = false then d
        else if (d.resyncSense ans c).isNone then d.listLines [c] 6
        else
          let d := d.resyncEarly ans [c]
          match d.newerCopy ans t c with
          | some (x, m) =>
            let (d, wseq) := d.takeWseq t.lz
            (d.progLines ans [⟨c, d.restamp c.pla c.prof x m wseq, d.payload c x m⟩]).1
          | none => d
      | none => d
    | none => d
  d.sysPut (.lineIntent p.1 p.2 false)

def Dev.stepResync (d : Dev) (ans : Answers) : Dev :=
  if d.life.lastStop = .unclean then
    let d := d.each (d.sys.intent.map Prod.fst) (fun d pz => d.resyncZone ans pz)
    d.each d.sys.lineIntent (fun d p => d.resyncLine ans p)
  else d

/-! ### Step 8: CHECKS (R679, 02 R68, R82, 06 R245, R253, 21 R738) -/

/-- A record of a move or of a bind of a zone. -/
def movesZone (z : BitVec 21) (r : JRec) : Bool :=
  decide (r.zone = z) && (match r.typ with
    | .moveStart | .switch | .moveAbort | .bind | .unbind => true
    | _ => false)

/-- MOVE_ABORT records that are the last of their move but for the RETIRE of the target (06 R245). -/
def abortedMoves : List JRec → List JRec
  | [] => []
  | r :: l =>
    if r.typ = .moveAbort ∧ l.any (movesZone r.zone) = false ∧
        l.any (fun x => decide (x.typ = .retire) && decide (x.zone = r.arg)) = true
    then r :: abortedMoves l else abortedMoves l

/-- Such a move is queued again, and its target's lines are to be reset again. -/
def Dev.requeueAborted (d : Dev) (r : JRec) : Dev :=
  let d := d.queueMove r.zone.toNat (reasonOf r.reason.toNat)
  { d with zt := { d.zt with resetDue := d.zt.resetDue ++ [r.arg.toNat] } }

/-- Moves wanted by what stands: zones on dead positions and bad tiles, or whose lines are pinned; a profile
that differs from the region's; a sequence near its end; wear (06 R245, R248). -/
def Dev.checkMoves (d : Dev) (lz : Nat) : Dev :=
  let e := d.zte lz
  let pz := zPz e
  match d.zoneOwner lz with
  | none => d
  | some (id, r, k) =>
    let n := zoneLines r.prot
    let pinned := d.sys.saved.any (fun p => p.region == id && decide (p.line / n = k))
    let dead := d.posDead (zoneDie pz) && decide (r.prot ≠ .none)
    let d := if d.sys.badTiles.contains pz || pinned || dead then d.queueMove lz .retire else d
    let d := if zProfile e = r.profile then d else d.queueMove lz .profile
    let d := if 2 ^ 40 - 2 ^ 36 ≤ d.wseqOf lz then d.queueMove lz .refresh true else d
    d.hotTrigger pz lz

def Dev.mappedZones (d : Dev) : List Nat := (d.zt.entries.filter (fun p => zMapped p.2.toNat)).map Prod.fst

def Dev.stepChecks (d : Dev) : Dev :=
  let d := d.each (abortedMoves d.zt.readBack) Dev.requeueAborted
  let d := { d with zt := { d.zt with clampDue := true, deadDue := (upTo 8).filter (fun p => d.posUsed p && d.posDead p) } }
  let d := d.zoneStep.runClamp.retireDead
  let d := if d.zt.deferred then d else d.checkZones (fun _ => true)
  (d.each d.mappedZones Dev.checkMoves).coldTrigger

/-! ### The start as a whole -/

/-- The dirty shutdown count of a start that finds no drain-complete record, also of one that then halts (09 R346). A start
that is to format has no count yet. -/
def Dev.countUnclean (d : Dev) : Dev :=
  if d.life.lastStop ≠ .unclean ∨ (d.cab.record 0 = none ∧ d.cab.ztPtrs = []) then d
  else d.putLifetime { d.lifetime with dirty := min (2 ^ 32 - 1) (d.lifetime.dirty + 1) }

def Dev.stepEnergy (d : Dev) : Dev := ((d.firstEnergy).checkExposed).tryReady

/-- A device reset and the start that follows it. -/
def Dev.startUp (d : Dev) (warm : Bool) (x : StartInputs) : Dev :=
  let d := (d.afterReset warm x.took).startEnergy.countUnclean.cfgHeads
  let d := d.atStage .repair Dev.stepRepair
  let d := d.atStage .bist (fun d => d.stepBist x.bist)
  let d := d.atStage .boot Dev.stepBoot
  let d := d.atStage .media (fun d => d.stepMedia x)
  let d := d.atStage .keys Dev.stepKeys
  let d := d.atStage .zt (fun d => d.stepZt x.media)
  let d := d.atStage .resync (fun d => d.stepResync x.media)
  let d := d.atStage .checks Dev.stepChecks
  d.atStage .energy Dev.stepEnergy

end Sys2Proof.Machine
end

