-- ==== Sys2Proof/Machine/Drain.lean ====
section
/-!
DEFINITION. Stopping: the rails coming down (16 R610, R614-R616), the drain of the Bench at loss of input
power (04 R162), the orderly shut-down (19 R687, 15 R587, R588), and what brings each to its end. The programs
of a drain and of a shut-down end by the ordinary commands; `goOn`, asked by those commands, finds that
nothing is left to program and takes the last steps.
-/

namespace Sys2Proof.Machine

/-! ### Rails (16 R597) -/

/-- Rails of a step. -/
def stepRails : Nat → List Nat
  | 1 => [10]
  | 2 => [0]
  | 3 => [1]
  | 4 => [4]
  | 5 => [2, 3]
  | 6 => [5]
  | 7 => [11]
  | 8 => [6, 7]
  | 9 => [8, 9]
  | _ => []

def Dev.rail (d : Dev) (r : Nat) : Rail := vget Reset.rail d.pwr.rails r

def Dev.onRail (d : Dev) (r : Nat) (f : Rail → Rail) : Dev :=
  { d with pwr := { d.pwr with rails := vset d.pwr.rails r (f (d.rail r)) } }

def Dev.onRails (d : Dev) (l : List Nat) (f : Rail → Rail) : Dev := d.each l (fun d r => d.onRail r f)

/-- A disabled rail. -/
def railOff (r : Rail) : Rail := { r with en := false, trans := [], goodAt := 0, enAt := 0 }

/-- A rail that is disabled at an instant, and has yet to fall below 10 % of nominal (R610). -/
def railFalls (now : Nat) (r : Rail) : Rail := { r with en := false, trans := [], goodAt := 0, enAt := now + 1 }

/-- A rail at the start of its step: no transition yet, good since now or not at all. -/
def railOn (now : Nat) (r : Rail) : Rail :=
  { r with en := true, trans := [], goodAt := if r.pg then now else 0, enAt := now + 1 }

/-! ### Margins (R615, R616) -/

/-- A rail's regulator is sent VOUT_COMMAND. -/
def Dev.setMargin (d : Dev) (r : Nat) (step : Int) : Dev :=
  (d.onRail r (fun x => { x with step := step })).send (.pmbus (0x40 + r) step)

def Dev.restoreMargins (d : Dev) : Dev :=
  d.each ((upTo 12).filter (fun r => decide ((d.rail r).step ≠ 0))) (fun d r => d.setMargin r 0)

/-! ### Rail records (R613, R614) -/

/-- The counters of a rail, to its Cabinet record. -/
def Dev.railRecord (d : Dev) (r : Nat) : Dev :=
  let x := d.rail r
  d.cabWrite cabRail r 6 (cabPayload [(0, 2, x.pgFail.toNat), (2, 2, x.chatter.toNat), (4, 2, x.timeout.toNat)])

/-- A fall or a rail that does not fall: PG_FAIL counted and logged. -/
def Dev.railPgFail (d : Dev) (r : Nat) : Dev :=
  ((d.onRail r (fun x => { x with pgFail := sat16 x.pgFail })).event (evRail r 0)).railRecord r

/-- The write in progress and the first of those waiting are made at once. -/
def Dev.cabFirst (d : Dev) (pair : Nat) : Dev :=
  match d.cab.busy with
  | some (r, _) => if r.pair = pair then d.cabDone true else (d.cabDone true).cabDone true
  | none => d

/-- Latch the first failure, its record written before any rail is disabled. -/
def Dev.latchFail (d : Dev) (rail kind : Nat) : Dev :=
  if d.pwr.failLatched then d
  else
    let d := { d with pwr := { d.pwr with
      failLatched := true, failRail := BitVec.ofNat 4 rail, failKind := BitVec.ofNat 3 kind, failStamp := d.now } }
    (d.cabWrite cabFirstFail 0 16
      (cabPayload [(0, 1, rail), (1, 1, kind), (4, 4, d.mile 0), (8, 8, d.now)])).cabFirst 2

/-! ### Rails down (R610, R602, R603) -/

/-- The highest step below n with an enabled rail. -/
def Dev.enabledBelow (d : Dev) (n : Nat) : Option Nat :=
  ((upTo n).reverse).find? (fun s => (stepRails s).any (fun r => (d.rail r).en))

/-- Everything is off: a failed attempt is tried again or is the last; otherwise the supervisor waits to power
up again. -/
def Dev.railsDown (d : Dev) : Dev :=
  let p := { d.pwr with offAt := d.aon, downStep := 0, step := 0 }
  let p :=
    if d.pwr.step = 0 then { p with state := .offWait }
    else if d.pwr.attempt < d.pwr.retry.toNat then { p with state := .offWait, attempt := d.pwr.attempt + 1 }
    else { p with state := .failed, vinFell := false }
  { d with pwr := p }

/-- Disable the next step that is on. -/
def Dev.downFrom (d : Dev) (n : Nat) : Dev :=
  match d.enabledBelow n with
  | some s =>
    let d := d.onRails (stepRails s) (railFalls d.aon)
    { d with pwr := { d.pwr with downStep := s } }
  | none => d.railsDown

/-- Shut the rails down: the controller is held in reset from here on. -/
def Dev.powerDown (d : Dev) : Dev :=
  let d := d.restoreMargins
  ({ d with
    pwr := { d.pwr with state := .seqDown }
    life := { d.life with running := false } }).downFrom 10

/-- At once, without a drain: programs in flight are cut off. -/
def Dev.powerCut (d : Dev) : Dev := d.abortTest.tearAll.powerDown

/-! ### The drain (04 R162, R751) -/

/-- Selected lines go into the staging store while an entry is free beyond those reserved (R750). -/
def stageSelected : Nat → Dev → Dev
  | 0, d => d
  | n + 1, d =>
    if d.stagingFree then
      match d.cache.nextSelected with
      | some key => stageSelected n (d.stageWay key)
      | none => d
    else d

/-- An entry pinned, and saved on the medium. -/
def Dev.entrySaved (d : Dev) (e : Entry) : Bool :=
  decide (e.state = .pinned) &&
  (match e.key with
   | .user region line => d.nv.saved.any (fun p => p.region == region && p.line == line && p.data == e.data
       && p.valid == e.valid && p.poison == e.poison)
   | .sys _ _ => false)

/-- Save every pinned entry that is not saved yet. -/
def Dev.savePinnedAll (d : Dev) : Dev :=
  d.each (d.bench.entries.filter (fun e => decide (e.state = .pinned) && !d.entrySaved e)) (fun d e =>
    match e.key with
    | .user region line => d.savePinned region line
    | .sys _ _ => d)

/-- Every STAGED entry that can be issued is. -/
def Dev.issueAll (d : Dev) (ans : Answers) : Dev :=
  d.each (d.bench.entries.map Entry.id) (fun d id => d.issue ans id)

/-- One round of the Bench: stage, issue, bind, save; twice, for the records that the first round makes. -/
def Dev.benchRound (d : Dev) (ans : Answers) : Dev :=
  let d := ((stageSelected d.cache.ways.length d).issueAll ans).savePinnedAll
  ((d.each d.zt.binds Dev.bindZone).issueAll ans).issueAll ans

/-- Nothing is left to program. -/
def Dev.benchDrained (d : Dev) : Bool :=
  d.bench.progs.isEmpty && d.bench.updates.isEmpty && decide (d.cache.dirtyLines = 0) &&
  d.bench.entries.all d.entrySaved

/-- ATTN level 7 on every head (R162 step 1). -/
def Dev.reportDrain (d : Dev) : Dev :=
  let old (h : Head) : Nat := d.ev.attnLevel (.head h)
  (((d.level (evPlatform 2) true).settleAttn .a (old .a)).settleAttn .b (old .b))

/-- Loss of input power, or what is treated as such: the drain begins. -/
def Dev.startDrain (d : Dev) (ans : Answers) : Dev :=
  if d.pwr.state = .on then
    let d := d.abortTest.restoreMargins
    let d := { d with
      pwr := { d.pwr with state := .draining }
      bench := { d.bench with draining := true, later := [] }
      eng := { d.eng with jobs := [] }
      life := { d.life with shutting := none, maintCut := !d.cache.work.isEmpty } }.milestone 2 |>.reportDrain
    d.selectAll.benchRound ans
  else d

/-- The DRAIN record (18 R664). -/
def Dev.drainRecord (d : Dev) (kind : Nat) : Dev :=
  d.cabWrite cabDrainRec 0 16 (cabPayload [(0, 1, kind), (4, 4, d.mile 0), (8, 8, d.now)])

/-- The drain is complete: its record, then the rails. -/
def Dev.endDrain (d : Dev) : Dev := (((d.drainRecord 1).cabDrain).milestone 3).powerDown

/-! ### The orderly shut-down (19 R687) -/

/-- Secrets at depth KEYS (15 R586). -/
def Dev.clearKeys (d : Dev) : Dev :=
  { d with
    cache := { d.cache with work := d.cache.work.filter (fun w => decide (w = .register) || decide (w = .conversion)) }
    sec := { d.sec with slots := [], kwk := none, sessA := 0, sessB := 0, sessS := 0 } }

/-- Secrets at depth FULL: the memories of the controller too. -/
def Dev.clearFull (d : Dev) : Dev :=
  { d.clearKeys with
    cache := { d.cache with ways := [], side := [], scratch := [], scratchPoison := [], scratchFlips := [] }
    bench := { d.bench with entries := [], updates := [] }
    dma := { d.dma with streams := d.dma.streams.map (fun x => { x with bytes := [], poison := [], slots := [] }) }
    eng := { d.eng with jobs := [] }
    lane := { d.lane with reads := [], lanes := d.lane.lanes.map (fun l => { l with queue := [] }) } }

/-- Every entry of a SYSTEM table is programmed. -/
def Dev.programSystem (d : Dev) : Dev :=
  d.each d.bench.entries (fun d e =>
    match e.kind with
    | .system recs => d.issueSystem noAnswers e recs
    | _ => d)

/-- The write-intent map and the line-intent log are cleared. -/
def Dev.clearIntent (d : Dev) : Dev :=
  { d with
    sys := { d.sys with intent := [], lineIntent := [] }
    nv := { d.nv with intent := [], lineIntent := [] } }

/-- Steps 4 and 5 once the Bench is drained: maps cleared, checkpoint, rail counters. -/
def Dev.shutRecords (d : Dev) : Dev :=
  let d := d.programSystem.clearIntent.checkpoint noAnswers
  (((d.each (upTo 12) Dev.railRecord).programSystem).cabDrain).programSystem

/-- Steps 6 to 8. -/
def Dev.shutSecrets (d : Dev) (bist : Option (List BistFail)) : Dev :=
  let d := d.clearKeys
  let d := match bist with
    | some l => d.bistAll l 1
    | none => d
  (((d.milestone 1).drainRecord 2).driftCheckpoint).cabDrain

/-- The last steps of an orderly shut-down. -/
def Dev.endShut (d : Dev) (k : ShutKind) : Dev :=
  let d := d.restoreMargins.shutRecords
  match k with
  | .off l => (d.shutSecrets (some l)).abortTest.powerDown
  | .warm x => ((d.shutSecrets none).abortTest).startUp true x
  | .unlock => { d.clearFull with sec := { d.clearFull.sec with testUnlocked := true } }

/-- Host reads received have been answered. -/
def Dev.readsDone (d : Dev) : Bool := decide (d.headA.readsOut = 0) && decide (d.headB.readsOut = 0)

/-- The commands and reads under way have ended. -/
def Dev.quiet (d : Dev) : Bool := d.q.exec.isEmpty && d.bench.later.isEmpty && d.readsDone

/-- What a drain, a shut-down or a held bank test goes on to when what it waits for has come about. -/
def Dev.goOn (d : Dev) : Dev :=
  if d.life.running = false then d
  else if d.bench.draining then
    let d := (stageSelected d.cache.ways.length d.selectAll).savePinnedAll.programSystem
    if d.benchDrained && d.readsDone then d.endDrain else d
  else match d.life.shutting with
    | some k =>
      let d := (stageSelected d.cache.ways.length d.pumpStores.selectAll).savePinnedAll.programSystem
      if d.quiet && d.benchDrained && !d.sec.testUnlocked then d.endShut k else d
    | none => d.pumpBacks.testGoesOn

/-- A command whose work may be what something waits for. -/
def State.afterOn (s : State) (t : Nat) (f : Dev → Dev) : Host.Outcome State Fault Refusal :=
  s.after t (fun d => (f d).countMissed.goOn)

/-- A shut-down begins, when memory is ready or a start has halted and none runs. -/
def Dev.startShut (d : Dev) (k : ShutKind) (ans : Answers) : Dev :=
  if decide (d.pwr.state = .on) && d.life.shutting.isNone && !d.sec.testUnlocked then
    let d := { d with life := { d.life with stage := .shutdown, shutting := some k, shutAt := d.now } }
    d.selectAll.benchRound ans
  else d

/-- tSHUT_CMD has passed: what still runs is interrupted (R687 step 1). -/
def Dev.shutTimeout (d : Dev) : Dev :=
  if d.life.shutting.isSome && d.due (d.life.shutAt + 100 * msNs) then
    d.q.exec.foldl Dev.interruptCmd d
  else d

end Sys2Proof.Machine
end

