-- ==== Sys2Proof/Machine/Bank.lean ====
section
/-!
DEFINITION. Commands of the hold-up bank (16 R618-R624): readings, charger faults, ENERGY_LIMIT every 100 ms,
and the bank test from its request to its result. Voltages of a test in uV, its current in uA, its time in ns.
-/

namespace Sys2Proof.Machine

/-! ### Readings (R618, R619, R621, R622) -/

def execBankCharged (t : Nat) (mv : BitVec 16) (s : State) : Host.Outcome State Fault Refusal :=
  s.after t (fun d => if d.pwr.vaux then d.bankReads mv.toNat else d)

/-- A charger fault ends a test that waits for the charge. -/
def Dev.chargerFault (d : Dev) (mv : Nat) : Dev :=
  let d := { d with pwr := { d.pwr with bankMv := BitVec.ofNat 16 mv, chgFault := true, charged := nearTarget mv } }
  let d := if d.pwr.test = .recharging then d.releaseTest else d
  d.checkExposed.tryReady

def execChargerFault (t : Nat) (mv : BitVec 16) (s : State) : Host.Outcome State Fault Refusal :=
  s.after t (fun d => if d.pwr.vaux then d.chargerFault mv.toNat else d)

/-- A lower ENERGY_LIMIT at once, a higher one from 1,024 lines up (R621). -/
def limitAfter (old new : Nat) : Nat := if new < old ∨ old + 1024 ≤ new then new else old

/-- ENERGY_LIMIT computed anew, once one has been given; not while a test's own value waits (R623 step 6). -/
def Dev.recompute (d : Dev) (mv : Nat) : Dev :=
  let v := if d.pwr.testCap.isSome then vTarget else min vTarget mv
  match d.pwr.energy, d.pwr.energyAt v with
  | some e, some n =>
    if d.pwr.test = .recharging then d
    else { d with pwr := { d.pwr with energy := some (limitAfter e n) } }
  | _, _ => d

def execEnergyLimitRecompute (t : Nat) (mv : BitVec 16) (s : State) : Host.Outcome State Fault Refusal :=
  s.after t (fun d =>
    if d.life.running then ((d.bankReads mv.toNat).recompute mv.toNat).checkExposed else d)

/-- No ENERGY_LIMIT by 1.5 s: EXPOSED, and step ENERGY ends. -/
def execEnergyWaitTimeout (t : Nat) (s : State) : Host.Outcome State Fault Refusal :=
  s.after t (fun d => if d.life.running then d.checkExposed.tryReady else d)

/-! ### Requests for a test (R623) -/

def execTestNow (t : Nat) (p : Port) (s : State) : Host.Outcome State Fault Refusal :=
  s.after t (fun d => if d.portOn p then d.wantTest else d)

/-- 24 h since the last valid test, or an hour in EXPOSED. -/
def Dev.testDue (d : Dev) : Bool :=
  (match d.pwr.testedAt with
   | some a => decide (a + 24 * hourNs ≤ d.aon)
   | none => false) ||
  (d.bench.exposed && decide (d.pwr.testAt + hourNs ≤ d.aon))

def execBankTestDue (t : Nat) (s : State) : Host.Outcome State Fault Refusal :=
  s.after t (fun d => if d.life.running && decide (d.pwr.test = .idle) && d.testDue then d.wantTest else d)

def execBankTestRetry (t : Nat) (s : State) : Host.Outcome State Fault Refusal :=
  s.after t (fun d =>
    if d.life.running && decide (d.pwr.test = .postponed) && decide (d.pwr.testAt + 10 * minNs ≤ d.aon) then d.wantTest
    else d)

/-! ### The hold (R623 step 2) -/

/-- The bank has been charged for 1 s: TEST_CAP, where a test has given C. -/
def Dev.testSettled (d : Dev) : Dev :=
  if d.pwr.test = .waitCharged ∧ d.pwr.charged = true ∧ d.pwr.chargedAt + secNs ≤ d.aon then
    ({ d with pwr := { d.pwr with
        test := .holding, testCap := d.pwr.energyAt vTest, testAt := d.aon } }).testGoesOn
  else d

def execBankTestChargeSettled (t : Nat) (s : State) : Host.Outcome State Fault Refusal :=
  s.after t (fun d =>
    if d.life.running && decide (d.pwr.state = .on) && d.life.shutting.isNone then d.testSettled else d)

/-- 1 s without room under TEST_CAP: POSTPONED. -/
def Dev.holdTimeout (d : Dev) : Dev :=
  let d := d.testGoesOn
  if d.pwr.test = .holding ∧ d.pwr.testAt + secNs ≤ d.aon then
    { d with pwr := { d.pwr with test := .postponed, testCap := none, result := 5, testAt := d.aon } }.event (evBank 0)
  else d

def execBankTestHoldTimeout (t : Nat) (s : State) : Host.Outcome State Fault Refusal :=
  s.after t (fun d => if d.life.running then d.holdTimeout else d)

/-! ### The result (R623 steps 4 to 6, R624) -/

/-- RESULT: the first of FAIL_MEAS, FAIL_CAP and FAIL_ESR that holds, or PASS. -/
def testResult (v0 v1 v2 v3 i t3 : Nat) : Nat :=
  if i < 900000 ∨ 1100000 < i ∨ v2 < v3 + 200000 then 4
  else if i * (t3 - msNs) < 10 ^ 6 * (v2 - v3) then 2
  else if 200000 * i < (v0 - v1) * 10 ^ 6 then 3
  else 1

/-- C in nF and ESR in microhm. -/
def testCapNf (v2 v3 i t3 : Nat) : Nat := i * (t3 - msNs) / (v2 - v3)
def testEsr (v0 v1 i : Nat) : Nat := (v0 - v1) * 10 ^ 6 / i

/-- The BANK_TEST record: C and ESR of the last valid test, the result (18 R664). -/
def Dev.bankRecord (d : Dev) : Dev :=
  let p := d.pwr
  d.cabWrite cabBankTest 0 24 (cabPayload
    [(0, 4, p.capNf.getD 0), (4, 2, min 65535 (p.esrUohm.getD 0 / 16)), (6, 1, p.result.toNat),
     (8, 8, d.wallNow), (16, 8, d.now)])

/-- Only PASS updates C and ESR; the bank recharges, and the value at V_TARGET waits for that. -/
def Dev.testEnds (d : Dev) (v0 v1 v2 v3 i t3 : Nat) : Dev :=
  let r := testResult v0 v1 v2 v3 i t3
  let p := d.pwr
  let p :=
    if r = 1 then
      { p with capNf := some (testCapNf v2 v3 i t3), esrUohm := some (testEsr v0 v1 i), testedAt := some d.aon }
    else p
  let p := { p with
    result := BitVec.ofNat 3 r, test := .recharging, bankMv := BitVec.ofNat 16 (v3 / 1000),
    charged := nearTarget (v3 / 1000),
    energyNext := if r = 1 ∨ p.energy.isSome = true then p.energyAt vTarget else none }
  ((({ d with pwr := p }).bankRecord).event (evBank 0)).milestone 4

def execBankTestLoadEnd (t : Nat) (v0 v1 v2 v3 : Nat) (i : Nat) (t3 : Nat) (s : State) :
    Host.Outcome State Fault Refusal :=
  s.after t (fun d => if d.life.running && decide (d.pwr.test = .loaded) then d.testEnds v0 v1 v2 v3 i t3 else d)

end Sys2Proof.Machine
end

