-- ==== Sys2Proof/Machine/Heap.lean ====
section
/-!
DEFINITION. The heap of an object store (12): records and their units, heap zones, the staging entries that
hold a zone's last stripe (R425-R433), and the seal of a stripe.
-/

namespace Sys2Proof.Machine

/-! ### Units and zones (R425, R431) -/

/-- U: 64 B units of a heap zone. -/
def Region.units (r : Region) : Nat := 4 * zoneLines r.prot

/-- Units of a stripe. -/
def Region.stripeUnits (r : Region) : Nat := 4 * stripeLines r.prot

def Dev.putHeapZone (d : Dev) (region k : Nat) (h : HeapZone) : Dev := d.putHeapKey (heapKey region k) h

/-- The zone of a region in a state. -/
def Dev.zoneIn (d : Dev) (region : Nat) (r : Region) (st : HState) : Option Nat :=
  (upTo r.zones).find? (fun k => decide ((d.heapZone region k).hstate = st))

def Dev.emptyZones (d : Dev) (region : Nat) (r : Region) : List Nat :=
  (upTo r.zones).filter (fun k => decide ((d.heapZone region k).hstate = .empty))

/-- Units of indexed records, up or down. -/
def Dev.addUnits (d : Dev) (region loc : Nat) (n : Int) : Dev :=
  match d.region region with
  | none => d
  | some r =>
    let k := loc / r.units
    let h := d.heapZone region k
    d.putHeapZone region k { h with validUnits := ((h.validUnits : Int) + n).toNat }

/-! ### Keys (R426, R436) -/

def keyBytes (key : Nat) : List Byte := leBytes 16 key

def keyHash (key : Nat) : Nat := crc64 (keyBytes key)

/-- The filter bits of a key. -/
def filterBits (key : Nat) : List Nat :=
  let h := keyHash key
  [h % 3840, h / 2 ^ 16 % 3840, h / 2 ^ 32 % 3840]

def setFilter (f : BitVec 3840) (key : Nat) : BitVec 3840 :=
  (filterBits key).foldl (fun f b => f ||| (1 <<< b)) f

def inFilter (f : BitVec 3840) (key : Nat) : Bool := (filterBits key).all f.toNat.testBit

/-! ### Records (R428, R429) -/

/-- A record header's fields. -/
structure RecHead where
  rtype  : Nat
  k      : Nat
  m      : Nat
  digest : Nat
  len    : Nat
  key    : Nat
  index  : Nat
  dval   : Nat
  deriving DecidableEq, Repr

def RecHead.bits (h : RecHead) : Nat :=
  let low := pack [(8, h.rtype), (8, h.k), (8, h.m), (8, h.digest), (32, h.len), (128, h.key), (16, h.index)]
  low + crc32c (leBytes 28 low ++ leBytes 32 h.dval) * 2 ^ 224 + h.dval % 2 ^ 256 * 2 ^ 256

def headOf (x : Nat) : RecHead :=
  { rtype := fld x 0 8, k := fld x 8 8, m := fld x 16 8, digest := fld x 24 3, len := fld x 32 32,
    key := fld x 64 128, index := fld x 192 10, dval := fld x 256 256 }

/-- HCRC holds; an unwritten header has none to hold. -/
def headGood (x : Nat) : Bool :=
  decide (fld x 0 8 = 0) ||
  (decide (fld x 0 8 ≤ 3) && decide (crc32c (leBytes 28 x ++ leBytes 32 (x / 2 ^ 256)) = fld x 224 32))

/-- S: bytes of a shard. -/
def shardLen (len k : Nat) : Nat := if k = 0 then 0 else roundUp (ceilDiv len k) 64

/-- Units of an OBJECT record. -/
def recUnits (len k m : Nat) : Nat :=
  1 + (if k = 0 then ceilDiv len 64 else (k + m) * (shardLen len k / 64))

def padHead (len : Nat) : RecHead :=
  { rtype := 2, k := 0, m := 0, digest := 0, len := len, key := 0, index := 0, dval := 0 }

def endHead : RecHead := { padHead 0 with rtype := 3 }

/-- Bytes with zeros up to n. -/
def zeroPad (n : Nat) (l : List Byte) : List Byte := l ++ List.replicate (n - l.length) 0

/-- Bytes cut into units. -/
def cutUnits : Nat → List Byte → List Sector
  | 0, _ => []
  | n + 1, l => bytesSector (l.take 64) :: cutUnits n (l.drop 64)

/-- Shards of s bytes. -/
def cutShards (s : Nat) : Nat → List Byte → List (List Byte)
  | 0, _ => []
  | n + 1, l => l.take s :: cutShards s n (l.drop s)

/-- Parity shard j of data shards of s bytes (13 R466). -/
def rsShard (j s : Nat) (data : List (List Byte)) : List Byte :=
  (upTo s).map (fun b => BitVec.ofNat 8 (rsParity j (data.map (fun x => ((x[b]?).getD 0).toNat))))

/-- The units of a record after its header: the object, or its data and parity shards. -/
def payloadUnits (obj : List Byte) (k m : Nat) : List Sector :=
  if k = 0 then
    let n := ceilDiv obj.length 64
    cutUnits n (zeroPad (64 * n) obj)
  else
    let s := shardLen obj.length k
    let data := cutShards s k (zeroPad (k * s) obj)
    let all := data.flatten ++ ((upTo m).flatMap (fun j => rsShard j s data))
    cutUnits ((k + m) * (s / 64)) all

/-- DVAL of a digest (13 R467). -/
def digestOf (dig : Nat) (l : List Byte) : List Byte :=
  match dig with
  | 1 => leBytes 4 (crc32c l)
  | 2 => leBytes 8 (crc64 l)
  | 3 => sha256 l
  | _ => []

/-- Input bytes of the checksum engine of a digest, and of the Reed-Solomon engine (14 R528). -/
def Dev.digestBytes (d : Dev) (dig n : Nat) : Dev :=
  if dig = 0 ∨ n = 0 then d else d.count (cntEngine (if dig = 3 then 2 else 1)) n

def Dev.codeBytes (d : Dev) (n : Nat) : Dev := if n = 0 then d else d.count (cntEngine 0) n

/-! ### Heap lines (R450) -/

/-- Load a heap line; it takes no cache way. -/
def Dev.loadHeap (d : Dev) (ans : Answers) (r : Region) (region line : Nat) : Dev × Loaded :=
  if d.hasCopies r region line 0xF then (d, d.overCopies r region line (.whole 0))
  else
    let (d, x) := d.mediaLine ans r region line
    (d, d.overCopies r region line (d.withListed region line x))

/-- Bytes of a heap region. -/
def Dev.heapBytes (d : Dev) (ans : Answers) (r : Region) (region off n : Nat) : Dev × Buf :=
  (linePieces off n).foldl (fun (acc : Dev × Buf) p =>
    let (d, x) := acc.1.loadHeap ans r region p.1
    (d, acc.2.append (lineSlice x p.2.1 p.2.2))) (d, Buf.empty)

/-! ### The partly filled stripe (R432) -/

def Dev.dropPart (d : Dev) (region k : Nat) : Dev :=
  { d with obj := { d.obj with parts := d.obj.parts.filter (fun p => !(p.region == region && p.zone == k)) } }

/-- The last stripe of a zone after an append at APPEND: it waits from its first record on. -/
def Dev.notePart (d : Dev) (region : Nat) (r : Region) (k append : Nat) : Dev :=
  let s := append / r.stripeUnits
  if append % r.stripeUnits = 0 then d.dropPart region k
  else if d.obj.parts.any (fun p => p.region == region && p.zone == k && p.stripe == s) then d
  else
    let d := d.dropPart region k
    { d with obj := { d.obj with
        parts := d.obj.parts ++ [{ region := region, zone := k, stripe := s, since := d.now }] } }

/-- Fill a zone's last stripe: a header at APPEND, zeros behind it. -/
def Dev.fillStripe (d : Dev) (region : Nat) (r : Region) (k : Nat) (h : Nat → RecHead) : Dev × Nat :=
  let a := (d.heapZone region k).append
  let n := roundUp (a + 1) r.stripeUnits - a
  (d.stageUnits region (k * r.units + a)
    (BitVec.ofNat 512 (h (64 * (n - 1))).bits :: List.replicate (n - 1) 0), a + n)

/-- A PAD record to the stripe's end. -/
def Dev.sealStripe (d : Dev) (region : Nat) (r : Region) (k : Nat) : Dev :=
  let (d, a) := d.fillStripe region r k padHead
  let h := d.heapZone region k
  (d.putHeapZone region k { h with append := a }).dropPart region k

/-- ZONE_END at APPEND; the zone becomes FULL (R430). -/
def Dev.closeZone (d : Dev) (region : Nat) (r : Region) (k : Nat) : Dev :=
  let d := if (d.heapZone region k).append < r.units then (d.fillStripe region r k (fun _ => endHead)).1 else d
  (d.putHeapZone region k { d.heapZone region k with hstate := .full }).dropPart region k

/-- An EMPTY zone becomes OPEN; its bind waits like that of a first write (R427). -/
def Dev.openZone (d : Dev) (region : Nat) (r : Region) (k : Nat) : Dev :=
  let d := d.putHeapZone region k { heapDefault with hstate := .open }
  match r.zoneAt k with
  | some lz => if zMapped (d.zte lz) then d else d.wantBind lz
  | none => d

/-- Where a record of n units goes: a zone and unit, and whether the zone is new (R430, R446). -/
def Dev.placeRecord (d : Dev) (region : Nat) (r : Region) (n : Nat) : Option (Nat × Nat × Bool) :=
  let fresh : Option (Nat × Nat × Bool) :=
    match d.emptyZones region r with
    | k :: _ :: _ :: _ => some (k, 0, true)
    | _ => none
  match d.zoneIn region r .open with
  | some k => if (d.heapZone region k).append + n ≤ r.units then some (k, (d.heapZone region k).append, false) else fresh
  | none => fresh

/-- Reserve a record: a new zone where one is needed, APPEND and the filter. -/
def Dev.reserveRecord (d : Dev) (region : Nat) (r : Region) (k unit n key : Nat) (new : Bool) : Dev :=
  let d :=
    if new then
      let d := match d.zoneIn region r .open with
        | some o => d.closeZone region r o
        | none => d
      d.openZone region r k
    else d
  let h := d.heapZone region k
  (d.putHeapZone region k { h with append := unit + n, filter := setFilter h.filter key }).notePart region r k
    (unit + n)

/-! ### STRIPE_SEAL -/

def Dev.sealDue (d : Dev) (region : Nat) (r : Region) (target : Bool) : Option Nat :=
  let st := if target then HState.target else HState.open
  (d.obj.parts.find? (fun p => p.region == region && decide ((d.heapZone region p.zone).hstate = st)
    && d.due (p.since + d.obj.sealTime.toNat * usNs) && decide (p.zone < r.zones))).map PartStripe.zone

def Dev.stripeSeal (d : Dev) (region : Nat) (target : Bool) : Dev :=
  match d.region region with
  | none => d
  | some r =>
    if r.typ = .heap ∧ d.bench.exposed = false ∧ d.bench.draining = false then
      match d.sealDue region r target with
      | some k => if d.roomFor (stripeLines r.prot) then d.sealStripe region r k else d
      | none => d
    else d

def execStripeSeal (t : Nat) (region : BitVec 10) (target : Bool) (s : State) :
    Host.Outcome State Fault Refusal :=
  s.after t (fun d => if d.life.running then d.stripeSeal region.toNat target else d)

end Sys2Proof.Machine
end

