-- ==== Sys2Proof/Machine/Index.lean ====
section
/-!
DEFINITION. The hash index of an object store (12 R434-R441): entries, the two buckets of a key, lookup,
displacement, and the count of valid entries.
-/

namespace Sys2Proof.Machine

/-! ### Entries (R435) -/

structure IdxEntry where
  key    : Nat
  loc    : Nat
  len    : Nat
  heap   : Nat
  k      : Nat
  m      : Nat
  digest : Nat
  deriving DecidableEq, Repr

def IdxEntry.bits (e : IdxEntry) : Nat :=
  let low := pack [(128, e.key), (40, e.loc), (32, e.len), (10, e.heap), (5, e.k), (4, e.m), (3, e.digest),
    (1, 1), (1, 0)]
  low + crc32c (leBytes 28 low) * 2 ^ 224

def entryOf (w : Nat) : IdxEntry :=
  { key := fld w 0 128, loc := fld w 128 40, len := fld w 168 32, heap := fld w 200 10, k := fld w 210 5,
    m := fld w 215 4, digest := fld w 219 3 }

def entryValid (w : Nat) : Bool := w.testBit 222

def entryGood (w : Nat) : Bool := decide (crc32c (leBytes 28 w) = fld w 224 32)

/-- Units of the record that an entry names. -/
def IdxEntry.units (e : IdxEntry) : Nat := recUnits e.len e.k e.m

/-! ### Buckets (R434, R436, R440) -/

def slotAt (x : LineData) (i : Nat) : Nat := fld x.toNat (256 * i) 256

def openSlot (x : LineData) : Option Nat := (upTo 8).find? (fun i => !entryValid (slotAt x i))

/-- The slot that holds a valid entry of a key. -/
def slotOfKey (key : Nat) (x : LineData) : Option Nat :=
  (upTo 8).find? (fun i =>
    let w := slotAt x i
    entryValid w && entryGood w && decide (fld w 0 128 = key))

def bucket1 (b key : Nat) : Nat := crc32c (keyBytes key) % b

def bucket2 (b key : Nat) : Nat := (bucket1 b key + 1 + fld (keyHash key) 0 32 % (b - 1)) % b

/-- Slots of a bucket whose entry's ECRC fails. -/
def badEntries (x : LineData) : List Nat := (upTo 8).filter (fun i => entryValid (slotAt x i) && !entryGood (slotAt x i))

/-- One event for each slot whose ECRC fails; a slot that has been logged is logged again only after it is written (R440). -/
def Dev.noteBad (d : Dev) (id b : Nat) (l : List Nat) : Dev :=
  d.each (l.filter (fun i => !d.obj.badSlots.contains (id, b, i))) (fun d i =>
    { d with obj := { d.obj with badSlots := (id, b, i) :: d.obj.badSlots } }.event (evEngine 1))

/-- A command's end: its status and result. -/
abbrev Stop := Nat × Nat

/-- The poisoned input of an engine: the offset of its first poisoned byte. -/
def stopPoison (off : Nat) : Stop := (stPoisonConsumed, off)

/-- Read a bucket through the cache; its bad entries are logged. -/
def Dev.bucket (d : Dev) (ans : Answers) (id : Nat) (r : Region) (b : Nat) : Dev × (Stop ⊕ LineData) :=
  let (d, x) := d.loadLine ans r id b 0xF
  if x.macFail then (d, .inl (stMacFail, 0))
  else if x.poison ≠ 0 then (d, .inl (stopPoison (64 * (secs x.poison).headD 0)))
  else (d.noteBad id b (badEntries x.data), .inr x.data)

/-- Write a 32 B entry into a slot of a bucket. -/
def Dev.putEntry (d : Dev) (ans : Answers) (id : Nat) (r : Region) (b i w : Nat) : Dev :=
  { d with obj := { d.obj with badSlots := d.obj.badSlots.filter (· != (id, b, i)) } }.storeSector ans r id b (i / 2)
    (32 * (i % 2)) (leBytes 32 w) false

/-! ### Bucket locks (R437) -/

/-- The index of a command: P0 [9:0]. -/
def indexId (x : Exec) : Nat := x.pn 0 0 10

/-- The object key: P1, P2. -/
def objKey (x : Exec) : Nat := (x.p 1).toNat + (x.p 2).toNat * 2 ^ 64

/-- Buckets that an OBJ_PUT holds from its lookup to its entry write. -/
def Dev.lockedBuckets (d : Dev) (id : Nat) (r : Region) : List Nat :=
  (d.q.exec.filter (fun y => y.opcode == 0x30 && y.parked && indexId y == id)).flatMap (fun y =>
    [bucket1 r.buckets (objKey y), bucket2 r.buckets (objKey y)])

def Dev.keyFree (d : Dev) (id : Nat) (r : Region) (key : Nat) : Bool :=
  let l := d.lockedBuckets id r
  !l.contains (bucket1 r.buckets key) && !l.contains (bucket2 r.buckets key)

/-! ### Lookup (R437, R439) -/

/-- A slot of an index and the entry in it. -/
structure Slot where
  bucket : Nat
  slot   : Nat
  entry  : Nat
  deriving DecidableEq, Repr

/-- Both buckets of a key, read in ascending order. -/
def Dev.buckets (d : Dev) (ans : Answers) (id : Nat) (r : Region) (key : Nat) :
    Dev × (Stop ⊕ (LineData × LineData)) :=
  let b1 := bucket1 r.buckets key
  let b2 := bucket2 r.buckets key
  match d.bucket ans id r (min b1 b2) with
  | (d, .inl e) => (d, .inl e)
  | (d, .inr x) =>
    match d.bucket ans id r (max b1 b2) with
    | (d, .inl e) => (d, .inl e)
    | (d, .inr y) => (d, .inr (if b1 ≤ b2 then (x, y) else (y, x)))

/-- Valid entries of an index. -/
def Dev.indexEntries (d : Dev) (id : Nat) : Nat := tget 0 d.obj.counts id

def Dev.uncountEntry (d : Dev) (id : Nat) : Dev :=
  { d with obj := { d.obj with counts := tset 0 d.obj.counts id (d.indexEntries id - 1) } }

/-- Free the second copy of an R439 pair. The recount counts both copies; until it has run, the kept count holds only one. -/
def Dev.freeCopy (d : Dev) (ans : Answers) (id : Nat) (r : Region) (b i : Nat) : Dev :=
  (d.putEntry ans id r b i 0).when (!d.obj.recount) (·.uncountEntry id)

/-- The entry of a key; an identical copy in the second bucket is freed. -/
def Dev.lookup (d : Dev) (ans : Answers) (id : Nat) (r : Region) (key : Nat) : Dev × (Stop ⊕ Option Slot) :=
  let b1 := bucket1 r.buckets key
  let b2 := bucket2 r.buckets key
  match d.buckets ans id r key with
  | (d, .inl e) => (d, .inl e)
  | (d, .inr (x, y)) =>
    match slotOfKey key x, slotOfKey key y with
    | some i, some j =>
      let d := if slotAt x i = slotAt y j then d.freeCopy ans id r b2 j else d
      (d, .inr (some ⟨b1, i, slotAt x i⟩))
    | some i, none => (d, .inr (some ⟨b1, i, slotAt x i⟩))
    | none, some j => (d, .inr (some ⟨b2, j, slotAt y j⟩))
    | none, none => (d, .inr none)

/-- Both buckets of a key hold the same entry of it, so that a lookup writes an index line. -/
def Dev.hasPair (d : Dev) (ans : Answers) (id : Nat) (r : Region) (key : Nat) : Bool :=
  match (d.buckets ans id r key).2 with
  | .inl _ => false
  | .inr (x, y) =>
    match slotOfKey key x, slotOfKey key y with
    | some i, some j => decide (slotAt x i = slotAt y j)
    | _, _ => false

/-! ### Displacement (R438) -/

/-- A bucket to visit, and the moves that lead to it: bucket and slot of each entry moved. -/
structure Visit where
  bucket : Nat
  path   : List (Nat × Nat)
  deriving DecidableEq, Repr

/-- The other bucket of the entry in each slot of a full bucket. -/
def nextSteps (n : Nat) (s : Visit) (x : LineData) : List Visit :=
  if 4 ≤ s.path.length then []
  else
    (upTo 8).filterMap (fun i =>
      let w := slotAt x i
      if entryGood w then
        let key := fld w 0 128
        let b1 := bucket1 n key
        some { bucket := if s.bucket = b1 then bucket2 n key else b1, path := s.path ++ [(s.bucket, i)] }
      else none)

/-- What an operation that needs a slot finds: one, none, a bucket that another operation holds (R437), an index line of
the path whose write EXPOSED refuses (04 R167), or a bucket that stops it (08 R313, R314). -/
inductive Found (α : Type) where
  | slot (x : α)
  | full
  | locked
  | refused
  | stops (st : Stop)
  deriving DecidableEq, Repr

/-- Breadth-first search over at most 1,024 buckets: moves, and the free slot at their end. A step takes one bucket off
the list, and each bucket visited adds at most 8. -/
def search (ans : Answers) (id : Nat) (r : Region) :
    Nat → List Visit → List Nat → Dev → Dev × Found (List (Nat × Nat) × Nat × Nat)
  | 0, _, _, d => (d, .full)
  | _, [], _, d => (d, .full)
  | n + 1, s :: l, seen, d =>
    if seen.contains s.bucket then search ans id r n l seen d
    else if 1024 ≤ seen.length then (d, .full)
    else if (d.lockedBuckets id r).contains s.bucket then (d, .locked)
    else
      match d.bucket ans id r s.bucket with
      | (d, .inl st) => (d, .stops st)
      | (d, .inr x) =>
        match openSlot x with
        | some i =>
          if s.path.any (fun p => d.writeRefused r id p.1) || d.writeRefused r id s.bucket then (d, .refused)
          else (d, .slot (s.path, s.bucket, i))
        | none => search ans id r n (l ++ nextSteps r.buckets s x) (s.bucket :: seen) d

/-- One move: the entry goes into its new slot, then its old slot is freed. -/
def Dev.moveEntry (d : Dev) (ans : Answers) (id : Nat) (r : Region) (src dst : Nat × Nat) : Dev :=
  match d.bucket ans id r src.1 with
  | (d, .inl _) => d
  | (d, .inr x) =>
    (d.putEntry ans id r dst.1 dst.2 (slotAt x src.2)).putEntry ans id r src.1 src.2 0

/-- Apply a path from its far end; the slot it frees. -/
def Dev.applyPath (d : Dev) (ans : Answers) (id : Nat) (r : Region) (path : List (Nat × Nat))
    (last : Nat × Nat) : Dev × Nat × Nat :=
  let all := path ++ [last]
  (((path.zip (all.drop 1)).reverse).foldl (fun d m => d.moveEntry ans id r m.1 m.2) d, all.headD last)

/-- A free slot for a new key: in its first bucket, its second, or by displacement. -/
def Dev.makeSlot (d : Dev) (ans : Answers) (id : Nat) (r : Region) (key : Nat) : Dev × Found (Nat × Nat) :=
  if 2 ^ 32 ≤ d.indexEntries id then (d, .full)
  else
    let b1 := bucket1 r.buckets key
    let b2 := bucket2 r.buckets key
    match d.buckets ans id r key with
    | (d, .inl st) => (d, .stops st)
    | (d, .inr (x, y)) =>
      match openSlot x, openSlot y with
      | some i, _ => (d, .slot (b1, i))
      | none, some j => (d, .slot (b2, j))
      | none, none =>
        match search ans id r (8 * 1024 + 2) [⟨b1, []⟩, ⟨b2, []⟩] [] d with
        | (d, .slot (path, b, i)) =>
          let (d, p) := d.applyPath ans id r path (b, i)
          (d, .slot p)
        | (d, .full) => (d, .full)
        | (d, .locked) => (d, .locked)
        | (d, .refused) => (d, .refused)
        | (d, .stops st) => (d, .stops st)

/-! ### Counts and events (R441) -/

/-- A new valid entry; the first past 90 % is logged. -/
def Dev.countEntry (d : Dev) (id : Nat) (r : Region) : Dev :=
  let n := d.indexEntries id + 1
  let d := { d with obj := { d.obj with counts := tset 0 d.obj.counts id n } }
  if 9 * (8 * r.buckets) < 10 * n ∧ d.obj.over90.contains id = false then
    { d with obj := { d.obj with over90 := id :: d.obj.over90 } }.event (evEngine 2)
  else d

/-- A command ends with INDEX_FULL: at most one event per index per second. -/
def Dev.indexFull (d : Dev) (id : Nat) : Dev :=
  let (ok, last) := onceEvery d.obj.fullAt id d.now secNs
  let d := { d with obj := { d.obj with fullAt := last } }
  if ok then d.event (evEngine 3) else d

/-- Free the slot of an entry, and its units (R451). -/
def Dev.deleteEntry (d : Dev) (ans : Answers) (id : Nat) (r : Region) (s : Slot) : Dev :=
  let e := entryOf s.entry
  ((d.putEntry ans id r s.bucket s.slot 0).uncountEntry id).addUnits e.heap e.loc (-(e.units : Int))

end Sys2Proof.Machine
end

