-- ==== Sys2Proof/Machine/Objects.lean ====
section
/-!
DEFINITION. The object commands (12 R442-R455): OBJ_PUT, OBJ_GET, OBJ_DELETE and OBJ_STAT. OBJ_SECURE_DELETE
is in Collect.
-/

namespace Sys2Proof.Machine

/-! ### Named regions -/

/-- A region that a command names, of the type it needs: a status, or the region. -/
def Dev.named (d : Dev) (x : Exec) (typ : RegionType) (id : Nat) : Nat ⊕ Region :=
  match d.region id with
  | none => .inl stInvalidRegion
  | some r =>
    if r.typ ≠ typ then .inl stInvalidRegion
    else if ownsRegion (issuer x) r = false then .inl stNotOwner
    else match d.regionBlock r with
      | some st => .inl st
      | none => .inr r

def Dev.onIndex (d : Dev) (x : Exec) (f : Dev → Nat → Region → Dev) : Dev :=
  match d.named x .index (indexId x) with
  | .inl st => d.complete x st 0
  | .inr r => f d (indexId x) r

/-- An index line of the key is refused in EXPOSED (04 R167, 07 R286). -/
def Dev.keyRefused (d : Dev) (id : Nat) (r : Region) (key : Nat) : Bool :=
  d.writeRefused r id (bucket1 r.buckets key) || d.writeRefused r id (bucket2 r.buckets key)

/-! ### OBJ_PUT (R442-R446) -/

/-- P4: LENGTH, K, M, DIGEST. -/
def putLen (x : Exec) : Nat := x.pn 4 0 32
def putK (x : Exec) : Nat := x.pn 4 32 5
def putM (x : Exec) : Nat := x.pn 4 37 4
def putDigest (x : Exec) : Nat := x.pn 4 41 3
def putUnits (x : Exec) : Nat := recUnits (putLen x) (putK x) (putM x)
def heapId (x : Exec) : Nat := x.pn 0 16 10
def putReplace (x : Exec) : Bool := (x.p 0).toNat.testBit 32

/-- R445, which an entry's arrival answers already (00 R11), and R430. -/
def putBad (x : Exec) (r : Region) : Bool :=
  shardsBad (putK x) (putM x) || decide (3 < putDigest x) || decide (r.units < putUnits x)

def putHead (x : Exec) (obj : List Byte) : RecHead :=
  { rtype := 1, k := putK x, m := putM x, digest := putDigest x, len := putLen x, key := objKey x,
    index := indexId x, dval := leNat (digestOf (putDigest x) obj) }

def putEntryOf (x : Exec) (loc : Nat) : IdxEntry :=
  { key := objKey x, loc := loc, len := putLen x, heap := heapId x, k := putK x, m := putM x,
    digest := putDigest x }

/-- Lines of the record at a locator are in the Bench. -/
def Dev.unitsInBench (d : Dev) (region : Nat) (r : Region) (loc n : Nat) : Bool :=
  (upTo ((loc + n - 1) / 4 + 1 - loc / 4)).any (fun i => d.inBench r region (loc / 4 + i))

/-- Steps 5 to 7: the entry, the counts, and the completion, which waits for the verify in EXPOSED. -/
def Dev.putEnd (d : Dev) (ans : Answers) (x : Exec) (ri : Region) (loc : Nat) (s : Slot) : Dev :=
  let id := indexId x
  let d := d.putEntry ans id ri s.bucket s.slot (putEntryOf x loc).bits
  let d := d.addUnits (heapId x) loc (putUnits x)
  let old := entryOf s.entry
  let d := if s.entry = 0 then d.countEntry id ri else d.addUnits old.heap old.loc (-(old.units : Int))
  if d.bench.exposed then d.keep x [2, loc, s.bucket] else d.complete x stSuccess loc

/-- A record that its source has failed: its units stay dead, under a PAD header (log entry 30). -/
def Dev.deadRecord (d : Dev) (x : Exec) (region unit n : Nat) : Dev :=
  d.saveUnits x region unit (BitVec.ofNat 512 (padHead (64 * (n - 1))).bits :: List.replicate (n - 1) 0)

/-- Steps 3 and 4, and the rest outside EXPOSED once every unit is accepted. -/
def Dev.putRecord (d : Dev) (host : List HostBytes) (ans : Answers) (x : Exec) (ri rh : Region)
    (k unit : Nat) (new : Bool) (s : Slot) : Dev :=
  let n := putUnits x
  let loc := k * rh.units + unit
  let d := d.reserveRecord (heapId x) rh k unit n (objKey x) new
  let (d, b) := d.load host ans (issuer x) (x.p 3) (putLen x)
  if b.macFail then (d.deadRecord x (heapId x) loc n).complete x stMacFail 0
  else match b.firstBad with
    | some o => (d.deadRecord x (heapId x) loc n).complete x stPoisonConsumed o
    | none =>
      let d := (d.digestBytes (putDigest x) (putLen x)).codeBytes (putK x * shardLen (putLen x) (putK x))
      let d := d.saveUnits x (heapId x) loc
        (BitVec.ofNat 512 (putHead x b.bytes).bits :: payloadUnits b.bytes (putK x) (putM x))
      if d.bench.exposed || d.waits x then d.keep x [1, loc, s.bucket, s.slot] else d.putEnd ans x ri loc s

/-- Steps 1 and 2. The command waits while another holds a bucket that a displacement needs. -/
def Dev.putStart (d : Dev) (host : List HostBytes) (ans : Answers) (x : Exec) (ri rh : Region) : Dev :=
  let id := indexId x
  match d.lookup ans id ri (objKey x) with
  | (d, .inl (st, res)) => d.complete x st res
  | (d, .inr found) =>
    if found.isSome && !putReplace x then d.complete x stObjExists 0
    else match found, d.placeRecord (heapId x) rh (putUnits x) with
      | some _, none => d.complete x stHeapFull 0
      | some s, some (k, unit, new) => d.putRecord host ans x ri rh k unit new s
      | none, place =>
        match d.makeSlot ans id ri (objKey x), place with
        | (e, .full), _ => (e.indexFull id).complete x stIndexFull 0
        | (_, .locked), _ => d.hold x
        | (e, .stops st), _ => e.complete x st.1 st.2
        | (e, .refused), _ => e.refuse x
        | (_, .slot _), none => d.complete x stHeapFull 0
        | (e, .slot (b, i)), some (k, unit, new) => e.putRecord host ans x ri rh k unit new ⟨b, i, 0⟩

/-- What an OBJ_PUT still has to do once its units are accepted, and in EXPOSED once they have verified. -/
def Dev.putNext (d : Dev) (ans : Answers) (x : Exec) (ri rh : Region) : Dev :=
  let loc := (x.p 8).toNat
  if (x.p 7).toNat = 1 then
    if d.waits x || (d.bench.exposed && d.unitsInBench (heapId x) rh loc (putUnits x)) then d
    else match d.lookup ans (indexId x) ri (objKey x) with
      | (d, .inl (st, res)) => d.complete x st res
      | (d, .inr (some s)) => d.putEnd ans x ri loc s
      | (d, .inr none) => d.putEnd ans x ri loc ⟨(x.p 9).toNat, (x.p 10).toNat, 0⟩
  else if d.inBench ri (indexId x) (x.p 9).toNat then d
  else d.complete x stSuccess loc

/-- A heap line of the record would be refused in EXPOSED. -/
def Dev.recordRefused (d : Dev) (x : Exec) (rh : Region) : Bool :=
  match d.placeRecord (heapId x) rh (putUnits x) with
  | none => false
  | some (k, unit, _) =>
    let loc := k * rh.units + unit
    (upTo ((loc + putUnits x - 1) / 4 + 1 - loc / 4)).any (fun i => d.writeRefused rh (heapId x) (loc / 4 + i))

def Dev.objPut (d : Dev) (host : List HostBytes) (ans : Answers) (x : Exec) : Dev :=
  match d.named x .index (indexId x), d.named x .heap (heapId x) with
  | .inl st, _ => d.complete x st 0
  | .inr _, .inl st =>
    d.complete x (if x.parked = true ∧ (d.region (heapId x)).isNone = true then stBarrierLostStore else st) 0
  | .inr ri, .inr rh =>
    if x.parked then d.putNext ans x ri rh
    else if putBad x rh then d.complete x stInvalidField 0
    else if d.usable x (x.p 3) (putLen x) = false then d.complete x stInvalidAddress 0
    else if d.keyRefused (indexId x) ri (objKey x) || d.recordRefused x rh then
      d.refuse x
    else if d.keyFree (indexId x) ri (objKey x) && d.roomFor (stripeLines rh.prot + 12) then
      d.putStart host ans x ri rh
    else d.hold x

def execObjPut (t : Nat) (qid : BitVec 7) (cid : BitVec 16) (host : List HostBytes) (media : Answers)
    (s : State) : Host.Outcome State Fault Refusal :=
  s.afterOn t (fun d => d.command 0x30 qid cid (fun d x => d.withTokens [10, 11] (·.objPut host media x)))

/-! ### OBJ_GET (R447-R450) -/

/-- Rebuild one 64 B sector of a data shard from the shards at its offset that read well, lowest first. -/
def Dev.rebuildSector (d : Dev) (ans : Answers) (rh : Region) (e : IdxEntry) (q : Nat) :
    Dev × Stop ⊕ (Dev × List Byte) :=
  let s := shardLen e.len e.k
  let i := 64 * q / s
  let c := 64 * q % s
  let base := 64 * e.loc + 64
  let (d, mac, good) := (upTo (e.k + e.m)).foldl (fun (acc : Dev × Bool × List (Nat × List Byte)) j =>
    let (d, mac, good) := acc
    if j = i ∨ e.k ≤ good.length then acc
    else
      let (d, b) := d.heapBytes ans rh e.heap (base + j * s + c) 64
      (d, mac || b.macFail, if b.bad.isEmpty then good ++ [(j, b.bytes)] else good)) (d, false, [])
  if mac then .inl (d, stMacFail, e.len)
  else if good.length < e.k then .inl (d, stEcUnrecoverable, e.len)
  else .inr (d.codeBytes (64 * e.k), (upTo 64).map (fun b => BitVec.ofNat 8
    (rsRebuild e.k i (good.map (fun p => (p.1, ((p.2[b]?).getD 0).toNat))))))

/-- Sectors of the object from number q on, out of bytes read, each poisoned one rebuilt. -/
def Dev.fixSectors (ans : Answers) (rh : Region) (e : IdxEntry) (buf : Buf) :
    Nat → Nat → Nat → List Byte → Dev → Dev × List Byte × Option Stop
  | 0, _, _, acc, d => (d, acc, none)
  | n + 1, q0, i, acc, d =>
    if buf.badAt (64 * i) = false then
      Dev.fixSectors ans rh e buf n q0 (i + 1) (acc ++ (buf.bytes.drop (64 * i)).take 64) d
    else if e.k = 0 then (d, acc, some (stopPoison (64 * (q0 + i))))
    else match d.rebuildSector ans rh e (q0 + i) with
      | .inl (d, st) => (d, acc, some st)
      | .inr (d, bs) => Dev.fixSectors ans rh e buf n q0 (i + 1) (acc ++ bs) d

/-- Bytes [off, off + n) of an object, up to the first sector that cannot be had. -/
def Dev.objBytes (d : Dev) (ans : Answers) (rh : Region) (e : IdxEntry) (off n : Nat) :
    Dev × List Byte × Option Stop :=
  if n = 0 then (d, [], none)
  else
    let q0 := off / 64
    let cnt := (off + n - 1) / 64 + 1 - q0
    let (d, buf) := d.heapBytes ans rh e.heap (64 * e.loc + 64 + 64 * q0) (64 * cnt)
    if buf.macFail then (d, [], some (stMacFail, e.len))
    else
      let (d, bs, st) := Dev.fixSectors ans rh e buf cnt q0 0 [] d
      (d, (bs.drop (off - 64 * q0)).take n, st)

/-- The digest over the bytes copied differs from DVAL, where the whole object was read. -/
def Dev.digestStop (d : Dev) (ans : Answers) (rh : Region) (e : IdxEntry) (off n : Nat) (bs : List Byte) :
    Dev × Option Stop :=
  if off = 0 ∧ n = e.len ∧ e.digest ≠ 0 then
    let (d, b) := (d.digestBytes e.digest n).heapBytes ans rh e.heap (64 * e.loc) 64
    if b.macFail then (d, some (stMacFail, e.len))
    else if b.bad.isEmpty = false then (d, some (stopPoison 0))
    else if (headOf (leNat b.bytes)).dval = leNat (digestOf e.digest bs) then (d, none)
    else (d, some (stChecksumMismatch, e.len))
  else (d, none)

/-- Store what was read, and end the command. -/
def Dev.getEnd (d : Dev) (ans : Answers) (x : Exec) (bs : List Byte) (st : Stop) : Dev :=
  if bs.isEmpty then d.complete x st.1 st.2
  else if d.saveRefused (issuer x) (x.p 3) bs.length then d.refuse x
  else
    let (d, dead) := d.saveCmd ans x (x.p 3) bs
    if dead then d.complete x stBarrierLostStore 0 else d.complete x st.1 st.2

/-- The heap of an entry, where it can be read. -/
def Dev.heapOf (d : Dev) (e : IdxEntry) : Nat ⊕ Region :=
  match d.region e.heap with
  | none => .inl stInvalidRegion
  | some r => match d.regionBlock r with
    | some st => .inl st
    | none => .inr r

def Dev.getObject (d : Dev) (ans : Answers) (x : Exec) (rh : Region) (e : IdxEntry) : Dev :=
  let cap := x.pn 4 0 32
  let off := x.pn 4 32 32
  if e.len < off then d.complete x stInvalidField 0
  else
    let n := min cap (e.len - off)
    match d.objBytes ans rh e off n with
    | (d, bs, some st) => d.getEnd ans x bs st
    | (d, bs, none) =>
      match d.digestStop ans rh e off n bs with
      | (d, some st) => d.getEnd ans x bs st
      | (d, none) => d.getEnd ans x bs (if cap < e.len - off then stObjTruncated else stSuccess, e.len)

/-- A lookup is to free the second of two entries (R439), and its line has no room yet (04 R133). -/
def Dev.pairWaits (d : Dev) (ans : Answers) (id : Nat) (ri : Region) (key : Nat) : Bool :=
  !d.roomFor 1 && d.hasPair ans id ri key

def Dev.objGet (d : Dev) (ans : Answers) (x : Exec) (id : Nat) (ri : Region) : Dev :=
  let cap := x.pn 4 0 32
  if d.usable x (x.p 3) cap = false then d.complete x stInvalidAddress 0
  else if !d.keyFree id ri (objKey x) || d.pairWaits ans id ri (objKey x) then d.hold x
  else match d.lookup ans id ri (objKey x) with
    | (d, .inl (st, res)) => d.complete x st res
    | (d, .inr none) => d.complete x stObjNotFound 0
    | (d, .inr (some s)) =>
      match d.heapOf (entryOf s.entry) with
      | .inl st => d.complete x st 0
      | .inr rh => d.getObject ans x rh (entryOf s.entry)

def execObjGet (t : Nat) (qid : BitVec 7) (cid : BitVec 16) (media : Answers) (s : State) :
    Host.Outcome State Fault Refusal :=
  s.afterOn t (fun d => d.command 0x31 qid cid (fun d x =>
    d.withTokens [10, 11] (·.onIndex x (fun d id r => d.objGet media x id r))))

/-! ### OBJ_DELETE, OBJ_STAT (R451, R452) -/

def Dev.objDelete (d : Dev) (ans : Answers) (x : Exec) (id : Nat) (ri : Region) : Dev :=
  if d.keyRefused id ri (objKey x) then d.refuse x
  else if d.roomFor 2 = false || !d.keyFree id ri (objKey x) then d
  else match d.lookup ans id ri (objKey x) with
    | (d, .inl (st, res)) => d.complete x st res
    | (d, .inr none) => d.complete x stObjNotFound 0
    | (d, .inr (some s)) => (d.deleteEntry ans id ri s).complete x stSuccess 0

def execObjDelete (t : Nat) (qid : BitVec 7) (cid : BitVec 16) (media : Answers) (s : State) :
    Host.Outcome State Fault Refusal :=
  s.afterOn t (fun d => d.command 0x32 qid cid (fun d x =>
    d.withTokens [10] (·.onIndex x (fun d id r => d.objDelete media x id r))))

def Dev.objStat (d : Dev) (ans : Answers) (x : Exec) (id : Nat) (ri : Region) : Dev :=
  if d.usable x (x.p 3) 32 = false then d.complete x stInvalidAddress 0
  else if !d.keyFree id ri (objKey x) || d.pairWaits ans id ri (objKey x) then d.hold x
  else match d.lookup ans id ri (objKey x) with
    | (d, .inl (st, res)) => d.complete x st res
    | (d, .inr none) => d.complete x stObjNotFound 0
    | (d, .inr (some s)) => d.getEnd ans x (leBytes 32 s.entry) (stSuccess, (entryOf s.entry).len)

def execObjStat (t : Nat) (qid : BitVec 7) (cid : BitVec 16) (media : Answers) (s : State) :
    Host.Outcome State Fault Refusal :=
  s.afterOn t (fun d => d.command 0x34 qid cid (fun d x =>
    d.withTokens [10] (·.onIndex x (fun d id r => d.objStat media x id r))))

end Sys2Proof.Machine
end

