-- ==== Sys2Proof/Machine/Collect.lean ====
section
/-!
DEFINITION. Collection of heap zones (12 R456-R459) and OBJ_SECURE_DELETE (R453, R454). One COLLECT command
does one source, whole: walk, copies into full stripes of the TARGET, entries, release.
-/

namespace Sys2Proof.Machine

/-! ### The walk (R457 step 2, R458) -/

/-- An OBJECT record found in a zone: its locator and header. -/
structure Walked where
  loc  : Nat
  head : RecHead
  deriving DecidableEq, Repr

def Walked.units (w : Walked) : Nat := recUnits w.head.len w.head.k w.head.m

/-- Records of zone k from a unit on, and whether the walk reached the zone's end. -/
def walk (ans : Answers) (region : Nat) (r : Region) (k : Nat) :
    Nat → Nat → List Walked → Dev → Dev × List Walked × Bool
  | 0, _, acc, d => (d, acc, true)
  | n + 1, u, acc, d =>
    if r.units ≤ u then (d, acc, true)
    else
      let loc := k * r.units + u
      let (d, b) := d.heapBytes ans r region (64 * loc) 64
      let w := leNat b.bytes
      let h := headOf w
      if b.bad.isEmpty = false ∨ headGood w = false then (d, acc, false)
      else match h.rtype with
        | 1 => walk ans region r k n (u + recUnits h.len h.k h.m) (acc ++ [⟨loc, h⟩]) d
        | 2 => walk ans region r k n (u + 1 + h.len / 64) acc d
        | _ => (d, acc, true)

def Dev.walkZone (d : Dev) (ans : Answers) (region : Nat) (r : Region) (k : Nat) : Dev × List Walked × Bool :=
  walk ans region r k r.units 0 [] d

/-- The entry that makes a record valid, where its buckets can be read. -/
def Dev.entryFor (d : Dev) (ans : Answers) (region : Nat) (w : Walked) : Dev × (Stop ⊕ Option (Region × Slot)) :=
  match d.region w.head.index with
  | none => (d, .inr none)
  | some ri =>
    if ri.typ ≠ .index then (d, .inr none)
    else match d.lookup ans w.head.index ri w.head.key with
      | (d, .inl st) => (d, .inl st)
      | (d, .inr none) => (d, .inr none)
      | (d, .inr (some s)) =>
        let e := entryOf s.entry
        (d, .inr (if e.loc = w.loc ∧ e.heap = region then some (ri, s) else none))

/-- The records that are valid; none where a bucket of some record cannot be read. -/
def Dev.validRecords (d : Dev) (ans : Answers) (region : Nat) (l : List Walked) : Dev × Option (List Walked) :=
  l.foldl (fun (acc : Dev × Option (List Walked)) w =>
    match acc.1.entryFor ans region w with
    | (d, .inl _) => (d, none)
    | (d, .inr x) => (d, acc.2.map (fun l => if x.isSome then l ++ [w] else l))) (d, some [])

/-! ### Copies into the TARGET (R457 steps 3 and 4) -/

/-- The units of a record, with their poison. -/
def Dev.readUnits (d : Dev) (ans : Answers) (region : Nat) (r : Region) (loc n : Nat) : Dev × List Copy :=
  (linePieces (64 * loc) (64 * n)).foldl (fun (acc : Dev × List Copy) p =>
    let (d, x) := acc.1.loadHeap ans r region p.1
    let us := (upTo (p.2.2 / 64)).map (fun i =>
      let s := p.2.1 / 64 + i
      (⟨sectorOf x.data s, hasSec x.poison s, lget x.cause s⟩ : Copy))
    (d, acc.2 ++ us)) (d, [])

/-- The line of a slot of a stripe's units. -/
def lineOfUnits (l : List Copy) (slot : Nat) : LineData × BitVec 4 × Nat :=
  (upTo 4).foldl (fun (acc : LineData × BitVec 4 × Nat) i =>
    match l[4 * slot + i]? with
    | some c =>
      if c.poison then (acc.1, addSec acc.2.1 i, c.cause) else (setSector acc.1 i c.data, acc.2.1, acc.2.2)
    | none => acc) (0, 0, 0)

/-- A line of a collection's copy; whether the TARGET still stands (R459). -/
def Dev.collectCopy (d : Dev) (ans : Answers) (c : LineCtx) (img : Image) : Dev × Bool :=
  let (d, r) := d.progCopy ans c img
  let (d, r) := d.afterProg c 0 r
  (d, decide (r = .took))

/-- Program one full stripe of units, sensing and comparing each line (R153, R457 step 4). -/
def Dev.programStripe (d : Dev) (ans : Answers) (t : StripeCtx) (l : List Copy) : Dev × Bool :=
  let (d, wseq) := d.takeWseq t.lz
  let d := (d.markIntent t 0 true).countUpdate t.lz
  let (d, ok, imgs) := t.data.foldl (fun (acc : Dev × Bool × List Image) c =>
    let (d, ok, imgs) := acc
    let (x, bad, cause) := lineOfUnits l c.slot
    let (img, clean) := d.build c wseq (t.r.writeKey c.idx) true x
    let d := (d.buildFired c).enterPoison t.region c.lineNo cause bad
    let (d, good) := if ok && d.inService c.pla then d.collectCopy ans c img else (d, ok)
    (d, good, imgs ++ [clean])) (d, true, [])
  t.check.foldl (fun (acc : Dev × Bool) c =>
    let img := match t.r.prot with
      | .mirror => parityOf c.prof [(imgs[c.slot]?).getD 0]
      | _ => parityOf c.prof imgs
    if acc.2 && acc.1.inService c.pla then acc.1.collectCopy ans c img else acc) (d, ok)

/-- Program units into consecutive stripes of a zone. -/
def programUnits (ans : Answers) (lz per : Nat) : Nat → Nat → List Copy → Dev → Dev × Bool
  | 0, _, _, d => (d, true)
  | n + 1, s, l, d =>
    if l.isEmpty then (d, true)
    else match d.stripe lz s with
      | none => (d, false)
      | some t =>
        match d.programStripe ans t (l.take per) with
        | (d, false) => (d, false)
        | (d, true) => programUnits ans lz per n (s + 1) (l.drop per) d

def plainUnit (x : Nat) : Copy := ⟨BitVec.ofNat 512 x, false, 0⟩

/-- Units filled to whole stripes with a PAD record. -/
def padUnits (per : Nat) (l : List Copy) : List Copy :=
  let n := roundUp l.length per - l.length
  if n = 0 then l
  else l ++ plainUnit (padHead (64 * (n - 1))).bits :: List.replicate (n - 1) (plainUnit 0)

/-- The TARGET of a region: the one there is, or an EMPTY zone made one and bound (R427). -/
def Dev.makeTarget (d : Dev) (region : Nat) (r : Region) : Dev × Option Nat :=
  match d.zoneIn region r .target with
  | some k => (d, some k)
  | none =>
    match d.emptyZones region r, (if d.journalOk then d.reserveZone else none) with
    | k :: _, some z =>
      match r.zoneAt k with
      | some lz =>
        let d := if zMapped (d.zte lz) then d else d.bindTo lz z r
        (d.putHeapZone region k { heapDefault with hstate := .target }, some k)
      | none => (d, none)
    | _, _ => (d, none)

/-- Records from the front of a list that fit a number of units. -/
def takeFit : Nat → List Walked → List Walked × List Walked
  | _, [] => ([], [])
  | room, w :: l =>
    if w.units ≤ room then
      let (a, b) := takeFit (room - w.units) l
      (w :: a, b)
    else ([], w :: l)

/-- New locators of records put one behind another. -/
def placeFrom : Nat → List Walked → List (Walked × Nat)
  | _, [] => []
  | loc, w :: l => (w, loc) :: placeFrom (loc + w.units) l

/-- A TARGET that failed: FULL, and its zone to retire (R459). -/
def Dev.targetFailed (d : Dev) (region : Nat) (r : Region) (k : Nat) : Dev :=
  let d := d.putHeapZone region k { d.heapZone region k with hstate := .full }
  match r.zoneAt k with
  | some lz => d.queueMove lz .retire
  | none => d

/-- Copy records into one TARGET zone; whether every line confirmed. -/
def Dev.copyInto (d : Dev) (ans : Answers) (region : Nat) (r : Region) (k : Nat) (l : List Walked) : Dev × Bool :=
  let h := d.heapZone region k
  let (d, us) := l.foldl (fun (acc : Dev × List Copy) w =>
    let (d, u) := acc.1.readUnits ans region r w.loc w.units
    (d, acc.2 ++ u)) (d, [])
  let us := padUnits r.stripeUnits us
  let d := d.putHeapZone region k { h with
    append := h.append + us.length, filter := l.foldl (fun f w => setFilter f w.head.key) h.filter }
  match r.zoneAt k with
  | some lz => programUnits ans lz r.stripeUnits 4096 (h.append / r.stripeUnits) us d
  | none => (d, false)

/-- Copy records, zone after zone; their new locators, or none when a TARGET could not be had or failed. -/
def copyRecords (ans : Answers) (region : Nat) (r : Region) :
    Nat → List Walked → List (Walked × Nat) → Dev → Dev × Option (List (Walked × Nat))
  | 0, _, _, d => (d, none)
  | n + 1, l, done, d =>
    if l.isEmpty then (d, some done)
    else match d.makeTarget region r with
      | (d, none) => (d, none)
      | (d, some k) =>
        let a := (d.heapZone region k).append
        let (now, later) := takeFit (r.units - a) l
        if now.isEmpty then copyRecords ans region r n l done (d.closeZone region r k)
        else match d.copyInto ans region r k now with
          | (d, true) => copyRecords ans region r n later (done ++ placeFrom (k * r.units + a) now) d
          | (d, false) => (d.targetFailed region r k, none)

/-! ### Entries and release (R457 steps 5 and 6) -/

/-- The entry of a copied record takes the new locator if it still holds the old one. -/
def Dev.rewriteEntry (d : Dev) (ans : Answers) (region : Nat) (m : Walked × Nat) : Dev :=
  match d.entryFor ans region m.1 with
  | (d, .inl _) => d
  | (d, .inr none) => d
  | (d, .inr (some (ri, s))) =>
    let e := { entryOf s.entry with loc := m.2 }
    let d := d.putEntry ans m.1.head.index ri s.bucket s.slot e.bits
    (d.addUnits region m.2 m.1.units).addUnits region m.1.loc (-(m.1.units : Int))

def Dev.setHstate (d : Dev) (region k : Nat) (st : HState) : Dev :=
  d.putHeapZone region k { d.heapZone region k with hstate := st }

/-- A header cannot be read: NO_SCAN (R458). -/
def Dev.setNoScan (d : Dev) (region k : Nat) : Dev :=
  (d.putHeapZone region k { d.heapZone region k with hstate := .full, noScan := true }).event (evEngine 4)

/-- How the collection of a zone ends. -/
inductive CollectEnd where
  | emptied | noScan | waits
  deriving DecidableEq, Repr

/-- Records that one collection copies: an entry write takes a Bench line, and its lookup may free a second copy of the
entry (04 R133); the stripes that end a TARGET take theirs before. -/
def Dev.collectCount (d : Dev) : Nat :=
  (min (d.bench.cap - (d.occupancy + d.reservedLines)) (8192 - (d.stagingUsed + d.reservedLines)) - 48) / 2

/-- Copy a source's valid records out and rewrite their entries; those there is no room for wait for the next
collection of the source. DESIGN CHOICE: a record whose index bucket cannot be read may be named by it, so that its source
is neither copied nor released until the bucket reads again (log entry 184). -/
def Dev.collectZone (d : Dev) (ans : Answers) (region : Nat) (r : Region) (k : Nat) : Dev × CollectEnd :=
  let d := d.setHstate region k .collecting
  match d.walkZone ans region r k with
  | (d, _, false) => (d.setNoScan region k, .noScan)
  | (d, recs, true) =>
    match d.validRecords ans region recs with
    | (d, none) => (d, .waits)
    | (d, some live) =>
      let now := live.take d.collectCount
      match copyRecords ans region r (2 * now.length + 2) now [] d with
      | (d, none) => (d, .waits)
      | (d, some moved) =>
        (d.each moved (fun d m => d.rewriteEntry ans region m), if now.length < live.length then .waits else .emptied)

/-- Every entry write is durable: in EXPOSED, none is in the Bench. -/
def Dev.entriesDurable (d : Dev) : Bool :=
  let idx (id : Nat) : Bool := match d.region id with
    | some r => decide (r.typ = .index)
    | none => false
  !d.bench.exposed ||
  (!d.bench.entries.any (fun e => match e.key with
    | .user r _ => idx r
    | .sys _ _ => false) &&
   !d.cache.ways.any (fun p => match p.2 with
    | some w => w.dirty != 0 && idx w.region
    | none => false))

/-- Release an emptied source: UNBIND, EMPTY; the zone that held it, where it was bound. -/
def Dev.releaseSource (d : Dev) (region : Nat) (r : Region) (k : Nat) : Dev × Option Nat :=
  match r.zoneAt k with
  | none => (d, none)
  | some lz =>
    let e := d.zte lz
    let n := zoneLines r.prot
    let d := ((d.forget region (k * n) (k * n + n)).unbind lz).dropPart region k
    (d.putHeapZone region k heapDefault, if zMapped e then some (zPz e) else none)

/-! ### COLLECT (R456) -/

def fewer (a b : Nat × Nat) : Bool := decide (a.2 < b.2) || (decide (a.2 = b.2) && decide (a.1 < b.1))

/-- A FULL zone that no entry names: it is released whether or not collection is wanted. -/
def Dev.deadZone (d : Dev) (region : Nat) (r : Region) : Option Nat :=
  (upTo r.zones).find? (fun k =>
    decide ((d.heapZone region k).hstate = .full) && decide ((d.heapZone region k).validUnits = 0))

/-- The source while collection is wanted: the FULL zone with the fewest units. -/
def Dev.wantedZone (d : Dev) (region : Nat) (r : Region) : Option Nat :=
  let l := ((upTo r.zones).filter (fun k =>
    let h := d.heapZone region k
    decide (h.hstate = .full) && (!h.noScan || decide (h.validUnits = 0))
      && decide (100 * h.validUnits ≤ d.obj.collectMax.toNat * r.units))).map (fun k =>
        (k, (d.heapZone region k).validUnits))
  (l.foldl (fun (b : Option (Nat × Nat)) p => match b with
    | some q => if fewer p q then some p else some q
    | none => some p) none).map Prod.fst

/-- The tiles of the region's TARGET take programs (02 R37, R49). -/
def Dev.targetFree (d : Dev) (region : Nat) (r : Region) : Bool :=
  match (d.zoneIn region r .target).bind r.zoneAt with
  | some lz => d.tilesFree (zPz (d.zte lz))
  | none => true

/-- Collection is wanted: from below COLLECT_LOW until COLLECT_HIGH. -/
def Dev.collectOn (d : Dev) (region : Nat) (r : Region) : Bool :=
  let n := (d.emptyZones region r).length
  decide (n < d.obj.collectLow.toNat) || (d.obj.running.contains region && decide (n < d.obj.collectHigh.toNat))

def Dev.noteRunning (d : Dev) (region : Nat) (r : Region) : Dev :=
  let l := d.obj.running.filter (· != region)
  { d with obj := { d.obj with running := if d.collectOn region r then region :: l else l } }

/-- The source of a collection: one under way, or one that stands to be taken. -/
def Dev.sourceZone (d : Dev) (region : Nat) (r : Region) : Option Nat :=
  (d.zoneIn region r .collecting).orElse (fun _ =>
    if d.collectOn region r then d.wantedZone region r else d.deadZone region r)

/-- No OBJ_PUT holds bucket locks. -/
def Dev.noLocks (d : Dev) : Bool := !d.q.exec.any (fun y => y.opcode == 0x30 && y.parked)

/-! ### The recount after an unclean start (R461) -/

/-- The words of the valid entries of a bucket; none of one that cannot be read. -/
def Dev.bucketEntries (d : Dev) (ans : Answers) (id : Nat) (r : Region) (b : Nat) : Dev × List Nat :=
  match d.bucket ans id r b with
  | (d, .inl _) => (d, [])
  | (d, .inr x) => (d, (validWords x).filter entryGood)

/-- The entry of a bucket is the second copy that a stop within a move left: its key's first bucket holds it too (R439). -/
def Dev.secondCopy (d : Dev) (ans : Answers) (id : Nat) (r : Region) (b w : Nat) : Bool :=
  let b1 := bucket1 r.buckets (fld w 0 128)
  b1 != b && (validWords (d.peekLine ans id r b1)).contains w

/-- Walk one index: its count, and the units of each of its records. The two copies of an R439 pair name one record. -/
def Dev.recountIndex (d : Dev) (ans : Answers) (id : Nat) (r : Region) : Dev :=
  let d := { d with obj := { d.obj with counts := tset 0 d.obj.counts id 0 } }
  d.each (d.usedBuckets id r) (fun d b =>
    let (d, l) := d.bucketEntries ans id r b
    d.each l (fun d w =>
      let e := entryOf w
      let d := { d with obj := { d.obj with counts := tset 0 d.obj.counts id (d.indexEntries id + 1) } }
      if d.secondCopy ans id r b w then d else d.addUnits e.heap e.loc e.units))

/-- Every index can be read: its keys are loaded. -/
def Dev.indexesReadable (d : Dev) : Bool :=
  d.regionsL.all (fun p => decide (p.2.typ ≠ .index) ||
    (d.keyLoaded p.2.keyId && (match p.2.rekey with
      | some q => d.keyLoaded q.oldKey && d.keyLoaded q.newKey
      | none => true)))

/-- VALID_UNITS of every heap zone, counted anew by walking every index. -/
def Dev.recountAll (d : Dev) (ans : Answers) : Dev :=
  if d.indexesReadable then
    let d := d.each (d.regionsL.filter (fun p => decide (p.2.typ = .heap))) (fun d p =>
      d.each (upTo p.2.zones) (fun d k =>
        d.putHeapZone p.1 k { d.heapZone p.1 k with validUnits := 0 }))
    let d := d.each (d.regionsL.filter (fun p => decide (p.2.typ = .index))) (fun d p =>
      d.recountIndex ans p.1 p.2)
    { d with obj := { d.obj with recount := false } }
  else d

def Dev.collectSource (d : Dev) (ans : Answers) (region : Nat) (r : Region) (k : Nat) : Dev :=
  if (d.heapZone region k).validUnits = 0 then
    if d.entriesDurable then (d.releaseSource region r k).1 else d
  else
    match d.collectZone ans region r k with
    | (d, .emptied) => if d.entriesDurable then (d.releaseSource region r k).1 else d
    | (d, _) => d

def Dev.collect (d : Dev) (ans : Answers) (region : Nat) : Dev :=
  match d.region region with
  | none => d
  | some r =>
    if r.typ = .heap ∧ d.obj.recount = false ∧ d.journalOk = true ∧ d.noLocks = true then
      let d := d.noteRunning region r
      match d.sourceZone region r with
      | none => d
      | some k =>
        match r.zoneAt k with
        | some lz =>
          if d.zoneStill lz && d.targetFree region r && d.roomFor 64 then (d.collectSource ans region r k).noteRunning region r else d
        | none => d
    else d

def execCollect (t : Nat) (region : BitVec 10) (media : Answers) (s : State) : Host.Outcome State Fault Refusal :=
  s.afterOn t (fun d =>
    if d.background then
      d.withTokens [11] (fun d => (if d.obj.recount then d.recountAll media else d).collect media region.toNat)
    else d)

/-! ### OBJ_SECURE_DELETE (R453, R454) -/

/-- Non-EMPTY heap zones that hold an OBJECT record with the key, and whether every zone whose filter has the key could be
walked to its end. -/
def Dev.notedZones (d : Dev) (ans : Answers) (key : Nat) : Dev × List (Nat × Region × Nat) × Bool :=
  let cand := (d.regionsL.filter (fun p => decide (p.2.typ = .heap))).flatMap (fun p =>
    ((upTo p.2.zones).filter (fun k =>
      decide ((d.heapZone p.1 k).hstate ≠ .empty) && inFilter (d.heapZone p.1 k).filter key)).map (fun k =>
        (p.1, p.2, k)))
  cand.foldl (fun (acc : Dev × List (Nat × Region × Nat) × Bool) c =>
    let (d, recs, whole) := acc.1.walkZone ans c.1 c.2.1 c.2.2
    (d, if recs.any (fun w => w.head.key == key) then acc.2.1 ++ [c] else acc.2.1, acc.2.2 && whole)) (d, [], true)

/-- Seal a noted zone that still takes appends. -/
def Dev.sealNoted (d : Dev) (region : Nat) (r : Region) (k : Nat) : Dev :=
  let st := (d.heapZone region k).hstate
  if st = .open ∨ st = .target then d.closeZone region r k else d

/-- Pre-clear the released zone and the old copies of its logical zone (R453 steps 5 and 6); whether every
reset reached code 179. -/
def Dev.clearNoted (d : Dev) (ans : Answers) (lz : Nat) (pz : Option Nat) : Dev × Bool :=
  let dirty := (d.lastHeld psDirty [lz] ++ pz.toList).eraseDups
  let retired := d.lastHeld psRetired [lz]
  let d := d.each dirty (fun d z => if d.pstate z = psDirty then d.preclearZone z ans else d)
  let d := d.each retired (fun d z => d.preclearCells z ans)
  let left := (dirty ++ retired).flatMap d.uncleared
  (d.each (left.filter (fun p => !ans.residue.contains p)) Dev.residueEvent, left.isEmpty)

/-- Collect and clear one noted zone: still to do, and whether something is left behind. -/
def Dev.purge (d : Dev) (ans : Answers) (region : Nat) (r : Region) (k : Nat) : Dev × Bool × Bool :=
  match r.zoneAt k with
  | none => (d, false, false)
  | some lz =>
    match (d.sealNoted region r k).collectZone ans region r k with
    | (d, .waits) => (d, true, false)
    | (d, .noScan) => (d, false, true)
    | (d, .emptied) =>
      let (d, pz) := d.releaseSource region r k
      let (d, clean) := d.clearNoted ans lz pz
      (d, false, !clean)

/-- Word 7 of a running command: 1 the entry was there, 2 something is left behind. DESIGN CHOICE: what cannot be walked may
hold a copy of the object, so that a command that found the key ends with MEDIA_RESIDUE (log entry 185). -/
def Dev.secureObject (d : Dev) (ans : Answers) (x : Exec) (flags : Nat) : Dev :=
  let (d, noted, whole) := d.notedZones ans (objKey x)
  let found := flags.testBit 0 || !noted.isEmpty
  let ready := d.journalOk && d.noLocks && d.entriesDurable && d.roomFor 64 && noted.all (fun c =>
    match c.2.1.zoneAt c.2.2 with
    | some lz => d.zoneStill lz && d.targetFree c.1 c.2.1
    | none => true)
  if ready = false then d.keep x [bool01 found + 2 * bool01 (flags.testBit 1)]
  else
    let (d, more, left) := noted.foldl (fun (acc : Dev × Bool × Bool) c =>
      let (d, m, l) := acc.1.purge ans c.1 c.2.1 c.2.2
      (d, acc.2.1 || m, acc.2.2 || l)) (d, false, flags.testBit 1 || !whole)
    if more then d.keep x [bool01 found + 2 * bool01 left]
    else d.complete x (if found = false then stObjNotFound else if left then stMediaResidue else stSuccess) 0

def Dev.objSecureDelete (d : Dev) (ans : Answers) (x : Exec) (id : Nat) (ri : Region) : Dev :=
  if x.parked then d.secureObject ans x (x.p 7).toNat
  else if d.keyRefused id ri (objKey x) then d.refuse x
  else if d.roomFor 2 = false || !d.keyFree id ri (objKey x) then d
  else match d.lookup ans id ri (objKey x) with
    | (d, .inl (st, res)) => d.complete x st res
    | (d, .inr none) => d.secureObject ans x 0
    | (d, .inr (some s)) => (d.deleteEntry ans id ri s).secureObject ans x 1

def execObjSecureDelete (t : Nat) (qid : BitVec 7) (cid : BitVec 16) (media : Answers) (s : State) :
    Host.Outcome State Fault Refusal :=
  s.afterOn t (fun d => d.command 0x33 qid cid (fun d x =>
    d.withTokens [10, 11] (·.onIndex x (fun d id r => d.objSecureDelete media x id r))))

end Sys2Proof.Machine
end

