-- ==== Sys2Proof/Machine/DmaCtl.lean ====
section
/-!
DEFINITION. What the service writer does to streams and channels (13 R482-R486, R499-R509), and a channel's
step. The sideband reaches none of these registers (21 R734).
-/

namespace Sys2Proof.Machine

/-- A head that reaches the register map above 0x38000; the sideband does not. -/
def Dev.onHeadPort (d : Dev) (p : Port) (f : Dev → Dev) : Dev :=
  match p with
  | .head h => if d.headOn h then f d else d
  | .sideband => d

/-! ### Streams (R478: 0 to 47 belong to firmware, their registers are RO) -/

def Dev.onService (d : Dev) (p : Port) (s : Nat) (f : Dev → Dev) : Dev :=
  d.onHeadPort p (fun d => if serviceStream s then f d else d)

def execStreamFlush (t : Nat) (p : Port) (stream : Fin 64) (s : State) : Host.Outcome State Fault Refusal :=
  s.after t (fun d => d.onService p stream.val (fun d => d.flush stream.val))

/-- The pending flush takes effect once READ stands at a packet boundary. -/
def Dev.flushEffect (d : Dev) (s : Nat) : Dev :=
  let x := d.stream s
  if x.pending && x.atEnd then d.flushNow s else d

def execStreamFlushEffect (t : Nat) (stream : Fin 64) (s : State) : Host.Outcome State Fault Refusal :=
  s.after t (fun d => if d.life.running then d.flushEffect stream.val else d)

def execStreamMark (t : Nat) (p : Port) (stream : Fin 64) (s : State) : Host.Outcome State Fault Refusal :=
  s.after t (fun d => d.onService p stream.val (fun d => d.onStream stream.val Stream.setMark))

def execStreamRewind (t : Nat) (p : Port) (stream : Fin 64) (s : State) : Host.Outcome State Fault Refusal :=
  s.after t (fun d => d.onService p stream.val (fun d => d.onStream stream.val Stream.rewind))

def Dev.releaseStream (d : Dev) (s : Nat) : Dev := d.putStream s (d.stream s).release 0

def execStreamRelease (t : Nat) (p : Port) (stream : Fin 64) (s : State) : Host.Outcome State Fault Refusal :=
  s.after t (fun d => d.onService p stream.val (fun d => d.releaseStream stream.val))

def execStreamCfgWrite (t : Nat) (p : Port) (stream : Fin 64) (value : BitVec 32) (s : State) :
    Host.Outcome State Fault Refusal :=
  s.after t (fun d => d.onService p stream.val (fun d => d.writeStreamCfg stream.val value.toNat))

/-- A write of STREAM_CTRL: its named actions, in bit order. -/
def Dev.writeStreamCtrl (d : Dev) (s v : Nat) : Dev :=
  let d := if v.testBit 0 then d.flush s else d
  let d := if v.testBit 1 then d.onStream s Stream.setMark else d
  let d := if v.testBit 2 then d.onStream s Stream.rewind else d
  if v.testBit 3 then d.releaseStream s else d

/-! ### Channels (R490: 0 to 15 belong to firmware) -/

def serviceChan (c : Nat) : Bool := decide (16 ≤ c)

def Dev.onChanPort (d : Dev) (p : Port) (c : Nat) (f : Dev → Dev) : Dev :=
  d.onHeadPort p (fun d => if serviceChan c then f d else d)

/-- STATE follows the ring. -/
def Dev.refreshChan (d : Dev) (c : Nat) : Dev :=
  d.onChan c (fun x => if x.state = 2 ∨ x.cur.isSome then x else { x with state := x.idleState })

/-- EN: 0 stops the channel and resets RING_HEAD. -/
def Dev.dmaEnable (d : Dev) (c : Nat) (en : Bool) : Dev :=
  if en then (d.onChan c (fun x => { x with en := true })).refreshChan c
  else
    ((d.dmaStop c).onChan c (fun x =>
      { x with en := false, ringHead := if x.stopping then x.ringHead else 0 })).refreshChan c

/-- A halted channel may go on: HEAD_RESET and RING_DEAD need DMA_RING_BASE rewritten with EN at 0. -/
def Chan.mayResume (x : Chan) : Bool :=
  decide (x.state = 2) && (x.rebased || (decide (x.cause ≠ 5) && decide (x.cause ≠ 7)))

/-- RESUME: the descriptor at RING_HEAD is fetched again. -/
def Dev.dmaResume (d : Dev) (c : Nat) : Dev :=
  d.onChan c (fun x => if x.mayResume then { x with state := x.idleState, cause := 0 } else x)

/-- SKIP: the halted descriptor stays so, and the next one is due. -/
def Dev.dmaSkip (d : Dev) (c : Nat) : Dev :=
  d.onChan c (fun x =>
    if x.mayResume then
      let x := { x with ringHead := (x.ringHead + 1) % x.depth, done := x.done + 1, cause := 0 }
      { x with state := x.idleState }
    else x)

def execDmaEn (t : Nat) (p : Port) (chan : Fin 32) (value : BitVec 32) (s : State) :
    Host.Outcome State Fault Refusal :=
  s.after t (fun d => d.onChanPort p chan.val (fun d => d.dmaEnable chan.val (value.toNat.testBit 0)))

def execDmaResume (t : Nat) (p : Port) (chan : Fin 32) (s : State) : Host.Outcome State Fault Refusal :=
  s.after t (fun d => d.onChanPort p chan.val (fun d => d.dmaResume chan.val))

def execDmaSkip (t : Nat) (p : Port) (chan : Fin 32) (s : State) : Host.Outcome State Fault Refusal :=
  s.after t (fun d => d.onChanPort p chan.val (fun d => d.dmaSkip chan.val))

def execDmaStop (t : Nat) (p : Port) (chan : Fin 32) (s : State) : Host.Outcome State Fault Refusal :=
  s.after t (fun d => d.onChanPort p chan.val (fun d => d.dmaStop chan.val))

/-- A write of DMA_CTRL: EN, then the named actions in bit order. -/
def Dev.writeDmaCtrl (d : Dev) (c v : Nat) : Dev :=
  let d := if (d.chan c).en = v.testBit 0 then d else d.dmaEnable c (v.testBit 0)
  let d := if v.testBit 1 then d.dmaResume c else d
  let d := if v.testBit 2 then d.dmaSkip c else d
  if v.testBit 3 then d.dmaStop c else d

/-- DMA_TAIL (R506). DESIGN CHOICE: a VALUE at or above the depth leaves a channel that is halted already as it is, with the
HALT_CAUSE it has (log entry 182). -/
def Dev.writeDmaTail (d : Dev) (c v : Nat) : Dev :=
  let n := fld v 0 12
  if n < (d.chan c).depth then (d.onChan c (fun x => { x with tail := n })).refreshChan c
  else if (d.chan c).state = 2 then d
  else d.dmaHalt c 6 noAnswers

def execDmaTail (t : Nat) (p : Port) (chan : Fin 32) (value : BitVec 32) (s : State) :
    Host.Outcome State Fault Refusal :=
  s.after t (fun d => d.onChanPort p chan.val (fun d => d.writeDmaTail chan.val value.toNat))

/-- DMA_REQ: request lines 48 to 63 (R495, R509). -/
def Dev.writeDmaReq (d : Dev) (v : Nat) : Dev :=
  d.each ((upTo 16).filter v.testBit) (fun d i => d.raise (48 + i))

def execDmaReq (t : Nat) (p : Port) (value : BitVec 32) (s : State) : Host.Outcome State Fault Refusal :=
  s.after t (fun d => d.onHeadPort p (fun d => d.writeDmaReq value.toNat))

/-- DMA_CFG (R504): refused while EN is 1, and with DEPTH_M1 0. DESIGN CHOICE: a new depth leaves the tail of an earlier
DMA_TAIL as it is, even where the new ring does not reach it (log entry 183). -/
def Dev.writeDmaCfg (d : Dev) (p : Port) (c v : Nat) : Dev :=
  if (d.chan c).en || decide (fld v 0 12 = 0) then d.regReserved p (0x51008 + 64 * c)
  else (d.onChan c (fun x => { x with depth := fld v 0 12 + 1, head := v.testBit 12 })).refreshChan c

def execDmaCfgWrite (t : Nat) (p : Port) (chan : Fin 32) (value : BitVec 32) (s : State) :
    Host.Outcome State Fault Refusal :=
  s.after t (fun d => d.onChanPort p chan.val (fun d => d.writeDmaCfg p chan.val value.toNat))

/-- The memory type that a ring base takes: a reserved one keeps the old (log entry 114). -/
def ringType (v old : Nat) : Nat := if fld v 62 2 = 3 then fld old 62 2 else fld v 62 2

/-- DMA_RING_BASE, one 8 B register (R503). DEDUCED: a write of the reserved MTYPE keeps the memory type, takes the new base
and is logged, as in the other base registers; only of DMA_CFG does the manual say that the whole register stays (R504, log
entry 114). -/
def Dev.writeRingBase (d : Dev) (p : Port) (c v : Nat) : Dev :=
  (d.onChan c (fun x => { x with
    base := BitVec.ofNat 64 (fld v 12 50 * 4096 + ringType v x.base.toNat * 2 ^ 62)
    rebased := x.rebased || !x.en })).when (decide (fld v 62 2 = 3)) (·.regReserved p (0x51000 + 64 * c))

def execDmaDescriptor (t : Nat) (chan : Fin 32) (host : List HostBytes) (linkError : Option Nat)
    (media : Answers) (s : State) : Host.Outcome State Fault Refusal :=
  s.afterMedia t (fun d => if d.life.running then d.dmaStep chan.val host linkError media else d)

end Sys2Proof.Machine
end

