-- ==== Sys2Proof/Machine/Engines.lean ====
section
/-!
DEFINITION. EC_ENCODE, EC_RECONSTRUCT, VERIFY and CHECKSUM (13 R464-R477) and their turns in the engines (R465, R487-R489):
each occurrence of a command's row is one turn, which brings its inputs into their streams, consumes at most one column
block, releases what is confirmed, and completes the command when all of it has been released.
-/

namespace Sys2Proof.Machine

/-! ### Buffers -/

/-- Two buffers share a byte. -/
def overlaps (a : Word) (n : Nat) (b : Word) (m : Nat) : Bool :=
  decide (mtype a = mtype b) && decide (addrOf a < addrOf b + m) && decide (addrOf b < addrOf a + n)

def anyOverlap (n : Nat) : List Word → Bool
  | [] => false
  | a :: l => l.any (fun b => overlaps a n b n) || anyOverlap n l

/-- RESULT of R474: offset of the poisoned sector, and the input's index. -/
def poisonResult (off input : Nat) : Nat := off + input * 2 ^ 32

/-- Stores of n bytes into some buffer are refused in EXPOSED. -/
def Dev.storesRefused (d : Dev) (x : Exec) (l : List Word) (n : Nat) : Bool :=
  l.any (fun w => d.saveRefused (issuer x) w n)

/-- End a command that has stored its outputs (R376). -/
def Dev.endStored (d : Dev) (x : Exec) (dead : Bool) (st : Stop) : Dev :=
  if dead then d.complete x stBarrierLostStore 0 else d.complete x st.1 st.2

/-! ### Input (R476, R480-R483) -/

/-- An engine's speculation window: 128 lines of each input (R487); 256 KiB of parity are 128 lines of 8 shards. -/
def engineWindow : Nat := 128 * 256

/-- A column block (R465). -/
def columnBlock : Nat := 4096

/-- Bytes have come into an input, some of them poisoned. -/
def EngJob.bring (j : EngJob) (s n : Nat) (b : Buf) : EngJob :=
  { j with
    macFail := j.macFail || b.macFail
    inputs := j.inputs.map (fun i =>
      if i.stream = s then
        { i with loaded := i.loaded + n, bad := i.bad ++ b.bad.map (fun p => (p.1 + i.loaded, p.2)) }
      else i) }

/-- A stream's packet ends when n bytes from an offset on complete a column block, or the input. -/
def Dev.endBlock (d : Dev) (s off n len : Nat) : Dev :=
  if off / columnBlock < (off + n) / columnBlock ∨ off + n = len then d.onStream s (fun x => x.endPacket.1) else d

/-- Bring an input into its stream, line by line: whole lines that miss as Verge data, all else confirmed. -/
def feed (host : List HostBytes) (ans : Answers) (x : Exec) (s : Nat) : Nat → Dev → Dev
  | 0, d => d
  | n + 1, d =>
    match d.job x.order with
    | none => d
    | some j =>
      match j.inputs.find? (fun i => i.stream == s) with
      | none => d
      | some i =>
        let w := i.word + BitVec.ofNat 64 i.loaded
        let k := min (j.len - i.loaded) (256 - addrOf w % 256)
        let verge := if mtype w = 1 then d.vergeAt (issuer x) (addrOf w) (d.stream s) k else none
        if k = 0 ∨ min (d.stream s).room (j.sure + engineWindow - i.loaded) < k then d
        else
          let d := match verge with
            | some p => (d.takeSlot s p).onJob j.order (·.bring s k Buf.empty)
            | none =>
              let (d, b) := d.load host ans (issuer x) w k
              (d.onStream s (fun y => (y.push b.bytes).1)).onJob j.order (·.bring s k b)
          feed host ans x s n (d.endBlock s i.loaded k j.len)

/-- Lines and parts of lines that fill a stream. -/
def feedPieces : Nat := 130

def Dev.feedJob (d : Dev) (host : List HostBytes) (ans : Answers) (x : Exec) : Dev :=
  match d.job x.order with
  | some j => d.each j.inputs (fun d i => feed host ans x i.stream feedPieces d)
  | none => d

/-! ### Consumption (R465, R469, R470, R484) -/

/-- The lowest poisoned offset of several inputs, and the lowest input that has it. -/
def lowestBad : List EngInput → Option (Nat × Nat)
  | [] => none
  | i :: l =>
    match (i.bad.map Prod.fst).min?, lowestBad l with
    | none, r => r
    | some o, none => some (o, i.shard)
    | some o, some (p, k) => if o ≤ p then some (o, i.shard) else some (p, k)

/-- EC_RECONSTRUCT, which takes a poisoned sector for an erasure (R471). -/
def rebuilds (x : Exec) : Bool := decide (x.opcode = 0x39)

/-- The poisoned sector that ends a command (R474). -/
def EngJob.poisoned (x : Exec) (j : EngJob) : Option (Nat × Nat) := if rebuilds x then none else lowestBad j.inputs

/-- Where a command stops: at its end, at a poisoned sector, or where too few shards can be read. -/
def EngJob.stop (x : Exec) (j : EngJob) : Nat :=
  min (j.cut.getD j.len) (((j.poisoned x).map Prod.fst).getD j.len)

/-- Bytes of every input up to here have been handed over and are not denied (R483, R489). -/
def Dev.jobReady (d : Dev) (j : EngJob) : Nat :=
  (j.inputs.map (fun i =>
    let s := d.stream i.stream
    min (s.handed - i.base) (i.firstSlot s j.len (fun f => decide (f = .denied))))).foldl min j.len

/-- Bytes that a turn may consume: to the column block's end, within the window. -/
def Dev.jobStep (d : Dev) (x : Exec) (j : EngJob) : Nat :=
  min (min (d.jobReady j - j.pos) (columnBlock - j.pos % columnBlock))
    (min (j.stop x - j.pos) (j.sure + engineWindow - j.pos))

/-- A byte range of an input is poisoned in part. -/
def EngInput.badIn (i : EngInput) (lo n : Nat) : Bool := i.bad.any (fun p => decide (p.1 < lo + n) && decide (lo < p.1 + p.2))

def ecK (x : Exec) : Nat := x.pn 0 0 5
def ecM (x : Exec) : Nat := x.pn 0 5 4
def ecLen (x : Exec) : Nat := x.pn 2 0 32
def ecMask (x : Exec) : Nat := x.pn 3 0 32

/-- Shards of one 64 B offset. -/
abbrev Column := List (Nat × List Byte)

/-- Further survivors of one 64 B offset, read until there are K of them; whether a MAC failed. -/
def moreShards (host : List HostBytes) (ans : Answers) (x : Exec) (off : Nat) :
    List (Nat × Word) → Column → Dev → Dev × Column × Bool
  | [], c, d => (d, c, false)
  | p :: l, c, d =>
    if ecK x ≤ c.length then (d, c, false)
    else
      let (d, b) := d.load host ans (issuer x) (p.2 + BitVec.ofNat 64 off) 64
      if b.macFail then (d, c, true)
      else moreShards host ans x off l (if b.bad.isEmpty then c ++ [(p.1, b.bytes)] else c) d

/-- The survivors of n sectors from a 64 B offset on, up to the first that has too few. -/
def columns (host : List HostBytes) (ans : Answers) (x : Exec) (j : EngJob) :
    Nat → Nat → Dev → Dev × List Column × Bool
  | 0, _, d => (d, [], false)
  | n + 1, off, d =>
    let good := ((j.inputs.zip (d.jobBytes j off 64)).filter (fun p => !p.1.badIn off 64)).map (fun p => (p.1.shard, p.2))
    match moreShards host ans x off j.rest good d with
    | (d, _, true) => (d, [], true)
    | (d, c, false) =>
      if c.length < ecK x then (d, [], false)
      else
        let (d, l, mac) := columns host ans x j n (off + 64) d
        (d, c :: l, mac)

/-- 64 bytes of shard s from K survivors. -/
def rsSector (k s : Nat) (c : Column) : List Byte :=
  (upTo 64).map (fun b => BitVec.ofNat 8 (rsRebuild k s ((c.take k).map (fun p => (p.1, ((p.2[b]?).getD 0).toNat)))))

/-- What n bytes from the engine's position on give: the outputs of each buffer, the bytes consumed, the offset at which
EC_RECONSTRUCT has too few shards, and whether a MAC failed. -/
structure Consumed where
  outs    : List (List Byte)
  n       : Nat
  cut     : Option Nat
  macFail : Bool
  deriving DecidableEq, Repr

def Dev.rebuildBlock (d : Dev) (host : List HostBytes) (ans : Answers) (x : Exec) (j : EngJob) (n : Nat) : Dev × Consumed :=
  let (d, cols, mac) := columns host ans x j (n / 64) j.pos d
  let m := 64 * cols.length
  (d, { outs := j.outs.map (fun o => cols.flatMap (rsSector (ecK x) o.1)), n := m,
        cut := if m < n then some (j.pos + m) else none, macFail := mac })

def Dev.computeBlock (d : Dev) (host : List HostBytes) (ans : Answers) (x : Exec) (j : EngJob) (n : Nat) : Dev × Consumed :=
  if rebuilds x then d.rebuildBlock host ans x j n
  else
    (d, { outs := j.outs.map (fun o => rsShard o.1 n (d.jobBytes j j.pos n)), n := n, cut := none, macFail := false })

/-- Input bytes of an engine (14 R528). -/
def Dev.engineBytes (d : Dev) (engine n : Nat) : Dev := if n = 0 then d else d.count (cntEngine (min engine 2)) n

/-- Consume n bytes of every input; the command goes behind the others of its engine. -/
def Dev.consume (d : Dev) (host : List HostBytes) (ans : Answers) (x : Exec) (j : EngJob) (n : Nat) : Dev :=
  let (d, c) := d.computeBlock host ans x j n
  let l := d.jobBytes j j.pos c.n
  let d := (d.each j.inputs (fun d i => d.onStream i.stream (·.take c.n))).engineBytes j.engine
    ((if j.engine = 0 then j.inputs.length else 1) * c.n)
  let j := { j with
    pos := j.pos + c.n, sum := sumStep j.dig j.sum j.pos l, held := List.zipWith (· ++ ·) j.held c.outs,
    cut := c.cut, macFail := j.macFail || c.macFail, stalled := false }
  { d with eng := { d.eng with jobs := d.eng.jobs.filter (fun y => y.order != j.order) ++ [j] } }

/-- No command of the engine that could go on comes before this one (R465). DESIGN CHOICE: the CRC engine serves its
commands in the same rounds (log entry 143). -/
def Dev.jobTurn (d : Dev) (j : EngJob) : Bool :=
  (d.eng.jobs.takeWhile (fun y => y.order != j.order)).all (fun y => y.engine != j.engine || y.stalled)

/-- One turn: at most one column block, with a token in hand. -/
def Dev.jobGo (d : Dev) (host : List HostBytes) (ans : Answers) (x : Exec) : Dev :=
  match d.job x.order with
  | none => d
  | some j =>
    let n := d.jobStep x j
    if n = 0 then d.onJob j.order (fun j => { j with stalled := true })
    else if d.jobTurn j then d.withTokens [j.engine] (fun d => d.consume host ans x j n)
    else d

/-! ### The end of a command (R471-R475, R489) -/

def noDiffer : Nat := 0xFFFFFFFF

def digestLen (dig : Nat) : Nat :=
  match dig with
  | 1 => 4
  | 2 => 8
  | _ => 32

/-- VERIFY's status from the first differing offset. -/
def verifyStop (diff : Option Nat) : Stop :=
  match diff with
  | none => (stSuccess, noDiffer)
  | some o => (stVerifyMismatch, o)

/-- VERIFY: the compare's end, or the digest against the expected one, which is read now. -/
def Dev.endVerify (d : Dev) (host : List HostBytes) (ans : Answers) (x : Exec) (j : EngJob) : Dev :=
  if j.dig = 0 then
    let st := verifyStop j.sum.diff
    d.complete x st.1 st.2
  else
    let (d, b) := d.load host ans (issuer x) (x.p 2) (digestLen j.dig)
    if b.macFail then d.complete x stMacFail 0
    else match b.firstBad with
      | some o => d.complete x stPoisonConsumed (poisonResult o 1)
      | none =>
        let st := verifyStop (differAt 0 (sumEnd j.dig j.len j.sum) b.bytes)
        d.complete x st.1 st.2

/-- CHECKSUM: the digest is written (R473). -/
def Dev.endChecksum (d : Dev) (ans : Answers) (x : Exec) (j : EngJob) : Dev :=
  let w := x.p 3
  if d.saveRefused (issuer x) w (digestLen j.dig) then d.refuse x
  else
    let bs := sumEnd j.dig j.len j.sum
    let (d, dead) := d.saveCmd ans x w bs
    d.endStored x dead (stSuccess, if j.dig = 1 then leNat bs else 0)

/-- The command's end, once all it releases has been released. -/
def Dev.endJob (d : Dev) (host : List HostBytes) (ans : Answers) (x : Exec) (j : EngJob) : Dev :=
  match j.poisoned x, j.cut with
  | some (o, i), _ => d.endStored x j.dead (stPoisonConsumed, poisonResult o i)
  | none, some q => (d.event (evEngine 0) (detailOf [(32, q)])).endStored x j.dead (stEcUnrecoverable, ecMask x)
  | none, none =>
    match x.opcode with
    | 0x38 => d.endStored x j.dead (stSuccess, 0)
    | 0x39 => d.endStored x j.dead (stSuccess, ecMask x)
    | 0x3A => d.endVerify host ans x j
    | _ => d.endChecksum ans x j

def Dev.tryEnd (d : Dev) (host : List HostBytes) (ans : Answers) (x : Exec) : Dev :=
  match d.job x.order with
  | none => d
  | some j =>
    if j.macFail then (d.dropJob j.order).complete x stMacFail 0
    else if j.sure = j.stop x then (d.dropJob j.order).endJob host ans x j
    else d

/-- A command's turn in its engine. -/
def Dev.engineTurn (d : Dev) (host : List HostBytes) (ans : Answers) (x : Exec) : Dev :=
  (((d.feedJob host ans x).jobGo host ans x).releaseJob x.order).tryEnd host ans x

/-- A command in its engine takes a turn; one that is not there yet enters it and takes its first. -/
def Dev.engineRow (d : Dev) (host : List HostBytes) (ans : Answers) (x : Exec) (enter : Dev → Dev) : Dev :=
  (if (d.job x.order).isSome then d else enter d).engineTurn host ans x

/-! ### Erasure coding (R468-R471) -/

/-- R464: K, M and the shard length. -/
def ecBad (x : Exec) : Bool :=
  decide (ecK x < 1) || decide (24 < ecK x) || decide (ecM x < 1) || decide (8 < ecM x)
    || decide (32 < ecK x + ecM x) || decide (ecLen x = 0) || decide (ecLen x % 64 ≠ 0)

/-- Address words of a list of bytes. -/
def wordsOf : Nat → List Byte → List Word
  | 0, _ => []
  | n + 1, l => BitVec.ofNat 64 (leNat (l.take 8)) :: wordsOf n (l.drop 8)

/-- The shard buffers of a command: read from its list, and checked, once for a command that then waits (R312, R399,
R468). -/
def Dev.shards (d : Dev) (host : List HostBytes) (ans : Answers) (x : Exec) : Dev × (Stop ⊕ List Word) :=
  let n := ecK x + ecM x
  if ecBad x then (d, .inl (stInvalidField, 0))
  else if d.usable x (x.p 1) (8 * n) = false then (d, .inl (stInvalidAddress, 0))
  else
    let (d, b) := d.load host ans (issuer x) (x.p 1) (8 * n)
    if b.macFail then (d, .inl (stMacFail, 0))
    else if b.bad.isEmpty = false then (d, .inl (stPoisonConsumed, 0))
    else
      let l := wordsOf n b.bytes
      if anyOverlap (ecLen x) l then (d, .inl (stInvalidField, 0))
      else if l.all (fun w => d.usable x w (ecLen x)) then (d, .inr l)
      else (d, .inl (stInvalidAddress, 0))

/-- EC_ENCODE enters the Reed-Solomon engine. -/
def Dev.enterEncode (d : Dev) (host : List HostBytes) (ans : Answers) (x : Exec) : Dev :=
  match d.shards host ans x with
  | (d, .inl (st, res)) => d.complete x st res
  | (d, .inr l) =>
    let out := l.drop (ecK x)
    if d.storesRefused x out (ecLen x) then d.refuse x
    else if d.freeStreams.length < ecK x then d.hold x
    else d.openJob x.order 0 0 (ecLen x) ((upTo (ecK x)).zip l) [] ((upTo (ecM x)).zip out)

def execEcEncode (t : Nat) (qid : BitVec 7) (cid : BitVec 16) (host : List HostBytes) (media : Answers)
    (s : State) : Host.Outcome State Fault Refusal :=
  s.afterOn t (fun d => d.command 0x38 qid cid (fun d x => d.engineRow host media x (·.enterEncode host media x)))

def erased (x : Exec) (n : Nat) : List Nat := (upTo n).filter (ecMask x).testBit

/-- EC_RECONSTRUCT enters the Reed-Solomon engine: its K lowest survivors are its inputs. -/
def Dev.enterReconstruct (d : Dev) (host : List HostBytes) (ans : Answers) (x : Exec) : Dev :=
  let n := ecK x + ecM x
  if ecBad x ∨ 2 ^ n ≤ ecMask x then d.complete x stInvalidField 0
  else match d.shards host ans x with
    | (d, .inl (st, res)) => d.complete x st res
    | (d, .inr l) =>
      let gone := erased x n
      let out := gone.map (fun i => (l[i]?).getD 0)
      if gone.isEmpty then d.complete x stSuccess 0
      else if ecM x < gone.length then d.complete x stEcUnrecoverable 0
      else if d.storesRefused x out (ecLen x) then d.refuse x
      else if d.freeStreams.length < ecK x then d.hold x
      else
        let have_ := ((upTo n).zip l).filter (fun p => !gone.contains p.1)
        d.openJob x.order 0 0 (ecLen x) (have_.take (ecK x)) (have_.drop (ecK x)) (gone.zip out)

def execEcReconstruct (t : Nat) (qid : BitVec 7) (cid : BitVec 16) (host : List HostBytes) (media : Answers)
    (s : State) : Host.Outcome State Fault Refusal :=
  s.afterOn t (fun d => d.command 0x39 qid cid (fun d x =>
    d.engineRow host media x (·.enterReconstruct host media x)))

/-! ### VERIFY and CHECKSUM (R472, R473) -/

/-- The engine of a digest: CRC, or the lowest free SHA-256 instance, for which a command waits (R464, R465). DESIGN
CHOICE: a byte compare takes the CRC engine (log entry 144). -/
def Dev.engineFor (d : Dev) (dig : Nat) : Option Nat :=
  if dig = 3 then ((upTo 8).map (· + 2)).find? (fun e => !d.eng.jobs.any (fun j => j.engine == e)) else some 1

/-- Enter the engine of a digest, with its inputs. -/
def Dev.enterSum (d : Dev) (x : Exec) (dig n : Nat) (ins : List Word) : Dev :=
  match d.engineFor dig with
  | some e =>
    if d.freeStreams.length < ins.length then d.hold x
    else d.openJob x.order e dig n ((upTo ins.length).zip ins) [] []
  | none => d.hold x

def Dev.enterVerify (d : Dev) (x : Exec) : Dev :=
  let dig := x.pn 0 0 3
  let n := x.pn 3 0 32
  let m := if dig = 0 then n else digestLen dig
  if n = 0 ∨ 3 < dig then d.complete x stInvalidField 0
  else if d.usable x (x.p 1) n && d.usable x (x.p 2) m then
    d.enterSum x dig n (if dig = 0 then [x.p 1, x.p 2] else [x.p 1])
  else d.complete x stInvalidAddress 0

def execVerify (t : Nat) (qid : BitVec 7) (cid : BitVec 16) (host : List HostBytes) (media : Answers)
    (s : State) : Host.Outcome State Fault Refusal :=
  s.afterOn t (fun d => d.command 0x3A qid cid (fun d x => d.engineRow host media x (·.enterVerify x)))

def Dev.enterChecksum (d : Dev) (x : Exec) : Dev :=
  let dig := x.pn 0 0 3
  let n := x.pn 2 0 32
  let w := x.p 3
  if n = 0 ∨ dig = 0 ∨ 3 < dig ∨ overlaps w (digestLen dig) (x.p 1) n = true then d.complete x stInvalidField 0
  else if (d.usable x (x.p 1) n && d.usable x w (digestLen dig)) = false then
    d.complete x stInvalidAddress 0
  else if d.saveRefused (issuer x) w (digestLen dig) then d.refuse x
  else d.enterSum x dig n [x.p 1]

def execChecksum (t : Nat) (qid : BitVec 7) (cid : BitVec 16) (host : List HostBytes) (media : Answers)
    (s : State) : Host.Outcome State Fault Refusal :=
  s.afterOn t (fun d => d.command 0x3B qid cid (fun d x => d.engineRow host media x (·.enterChecksum x)))

end Sys2Proof.Machine
end

