-- ==== Sys2Proof/Machine/Events.lean ====
section
/-!
DEFINITION. Events and counters by command (14): window ends, the LOST record, acknowledgements, dumps,
bandwidth windows, the tracer's timeout, counter pages, accesses that no register answers.
-/

namespace Sys2Proof.Machine

/-! ### Coalescing windows, the log, ATTN (R514, R519, R525) -/

/-- A source's window ends. -/
def Dev.windowEnd (d : Dev) (n : Nat) : Dev :=
  if (d.ev.src n).state ≠ .quiet ∧ d.due (d.ev.src n).windowEnd = true then
    { d with ev := d.ev.windowEnds d.now n }
  else d

def execCoalWindowEnd (t : Nat) (source : Fin 1024) (s : State) : Host.Outcome State Fault Refusal :=
  s.after t (fun d => if d.life.running then d.windowEnd source.val else d)

/-- The intake queue holds 128 records or fewer after a loss. -/
def Dev.lostRecord (d : Dev) : Dev := { d with ev := d.ev.lostRecord d.now }

def execLostRecord (t : Nat) (s : State) : Host.Outcome State Fault Refusal :=
  s.after t (fun d => if d.life.running then d.lostRecord else d)

def execAttnAck (t : Nat) (p : Port) (value : BitVec 32) (s : State) : Host.Outcome State Fault Refusal :=
  s.after t (fun d => if d.portOn p then { d with ev := d.ev.ack p value } else d)

/-! ### Dumps (R530-R533, R546-R548) -/

/-- Bytes 4,096 to 65,535 of a slot: counter n at 4,096 + 8 n, and the rest reserved. -/
def counterBytes (e : EventBlock) : List Byte :=
  (upTo 4096).flatMap (fun n => leBytes 8 (tget (0 : BitVec 64) e.counters n).toNat) ++ List.replicate 28672 0

/-- Bytes 0 to 4,095 of a slot: its header, and the rest reserved. -/
def dumpHeader (e : EventBlock) (now : Nat) : List Byte :=
  leBytes 4 e.dumpSeq.toNat ++ leBytes 4 0 ++ leBytes 8 now ++ leBytes 8 (twos 64 e.wallOffset) ++
  leBytes 4 e.headSeq.toNat ++ List.replicate 4068 0

/-- A dump that failed stops dumping. -/
def Dev.dumpFails (d : Dev) : Dev := { d with ev := { d.ev with dumpEn := false, dumpErr := true } }

/-- One dump: counters, then the header; a sample due while the last dump is being written is skipped. -/
def Dev.dump (d : Dev) (ok : Bool) : Dev :=
  let e := d.ev
  if e.dumpEn = false then d
  else if d.now < e.dumpDoneAt then
    { d with ev := { e with dumpSkipped := min (e.dumpSkipped + 1) (2 ^ 23 - 1) } }
  else
    let h := headOfBit e.dumpHead
    let off := 65536 * e.nextSlot
    let (d1, live1) := d.ringWrite h e.dumpBase (off + 4096) (counterBytes e)
    let (d2, live2) := d1.ringWrite h e.dumpBase off (dumpHeader e d.now)
    if live1 && live2 && ok then
      { d2 with ev := { d2.ev with
          lastDseq := e.lastDone d.now, dumpSeq := e.dumpSeq + 1, nextSlot := (e.nextSlot + 1) % (e.slotsM1.toNat + 1)
          dumpDoneAt := d.now + (Config.dumpTime e.dumpSeq.toNat).val } }
    else d.dumpFails

/-- The period's dump, when it is due. -/
def Dev.dumpPeriod (d : Dev) (ok : Bool) : Dev :=
  if d.ev.dumpEn ∧ d.due d.ev.nextDumpAt = true then
    { d with ev := { d.ev with nextDumpAt := d.ev.nextDumpAt + d.ev.periodMs.toNat * msNs } }.dump ok
  else d

def execDumpPeriod (t : Nat) (ok : Bool) (s : State) : Host.Outcome State Fault Refusal :=
  s.after t (fun d => if d.life.running then d.dumpPeriod ok else d)

/-- A write of DUMP_CFG: reserved values leave their field and log one event; setting EN starts anew. -/
def Dev.writeDumpCfg (d : Dev) (p : Port) (v : Nat) (ok : Bool) : Dev :=
  let e := d.ev
  let slots := fld v 8 8
  let period := fld v 16 16
  let start := v.testBit 0 && !e.dumpEn
  let e := { e with
    dumpEn := v.testBit 0, dumpHead := v.testBit 2
    slotsM1 := if slots = 0 then e.slotsM1 else BitVec.ofNat 8 slots
    periodMs := if period = 0 then e.periodMs else BitVec.ofNat 16 period }
  let e :=
    if start then { e with lastDseq := e.lastDone d.now, dumpSeq := 0, nextSlot := 0, nextDumpAt := d.now + e.periodMs.toNat * msNs } else e
  let d := { d with ev := { e with nextSlot := if e.slotsM1.toNat < e.nextSlot then 0 else e.nextSlot } }
  let d := if slots = 0 ∨ period = 0 then d.regReserved p 0x25100 else d
  if v.testBit 1 then d.dump ok else d

def execDumpNow (t : Nat) (p : Port) (value : BitVec 32) (ok : Bool) (s : State) :
    Host.Outcome State Fault Refusal :=
  s.after t (fun d =>
    if d.portOn p && value.toNat.testBit 1 then d.writeDumpCfg p value.toNat ok else d)

/-! ### Bandwidth windows (R534, R549) -/

def EventBlock.windowLen (e : EventBlock) : Nat := e.windowUs.toNat * usNs

def noBytes : List (Nat × Nat) := List.replicate 18 (0, 0)

/-- The window in progress ends: its bytes and its number are loaded. -/
def Dev.bwWindowEnd (d : Dev) : Dev :=
  let e := d.ev
  if d.due (e.windowAt + e.windowLen) then
    { d with ev := { e with
        bwLast := e.bwNow, bwNo := BitVec.ofNat 32 (e.windowAt / e.windowLen), bwNow := noBytes
        windowAt := e.windowAt + e.windowLen } }
  else d

def execBwWindowEnd (t : Nat) (s : State) : Host.Outcome State Fault Refusal :=
  s.after t (fun d => if d.life.running then d.bwWindowEnd else d)

/-- A write of BW_CFG: the window in progress is discarded. -/
def Dev.writeBwCfg (d : Dev) (p : Port) (v : Nat) : Dev :=
  let w := fld v 0 20
  if w = 0 ∨ 1000000 < w then d.regReserved p 0x25130
  else
    let len := w * usNs
    { d with ev := { d.ev with
        windowUs := BitVec.ofNat 20 w, bwNow := noBytes, windowAt := (d.now / len + 1) * len } }

def execBwCfgWrite (t : Nat) (p : Port) (value : BitVec 32) (s : State) : Host.Outcome State Fault Refusal :=
  s.after t (fun d => if d.portOn p then d.writeBwCfg p value.toNat else d)

/-! ### The tracer (R535, R537, R550) -/

/-- 10 ms have passed since the start of a traced request. -/
def Dev.traceTimeout (d : Dev) (tag : Nat) (ok : Bool) : Dev :=
  match d.ev.traces.find? (fun x => x.tag == tag) with
  | some x => if d.due (x.start + 10 * msNs) then d.traceEnd x true ok else d
  | none => d

def execTraceTimeout (t : Nat) (tag : Fin 64) (ok : Bool) (s : State) : Host.Outcome State Fault Refusal :=
  s.after t (fun d => if d.life.running then d.traceTimeout tag.val ok else d)

/-- A write of TRACE_CFG: with EN 1 only EN changes; clearing EN frees the tags. -/
def Dev.writeTraceCfg (d : Dev) (p : Port) (v : Nat) : Dev :=
  let e := d.ev
  if e.trEn then
    if v.testBit 0 then d else { d with ev := { e with trEn := false, traces := [] } }
  else
    let rate := fld v 5 5
    let depth := fld v 16 12
    let e := { e with
      trEn := v.testBit 0, trHead := v.testBit 1, trKinds := BitVec.ofNat 3 (v / 4)
      trRate := if 20 < rate then e.trRate else BitVec.ofNat 5 rate
      trDepth := if depth = 0 then e.trDepth else BitVec.ofNat 12 depth
      trSeq := if v.testBit 0 then 0 else e.trSeq }
    let d := { d with ev := e }
    if 20 < rate ∨ depth = 0 then d.regReserved p 0x25120 else d

/-! ### Counter pages (R538, R539, R552) -/

/-- Key of a page in the table: head A's 16, then head B's. -/
def cpageKey (h : Head) (page : Nat) : Nat := 16 * headNum h + page

/-- A write of CPAGE_CFG: REGION_EN only for a region that the head owns. -/
def Dev.writeCpage (d : Dev) (h : Head) (page v : Nat) : Dev :=
  let owned := match d.region (fld v 0 10) with
    | some r => ownsRegion h r
    | none => false
  if v.testBit 10 ∧ owned = false then d.regReserved (.head h) (0x25400 + 4 * page)
  else { d with ev := { d.ev with
    cpages := tset 0 d.ev.cpages (cpageKey h page) (BitVec.ofNat 32 (fld v 0 13)) } }

def execCpageCfgWrite (t : Nat) (h : Head) (page : Fin 16) (value : BitVec 32) (s : State) :
    Host.Outcome State Fault Refusal :=
  s.after t (fun d => if d.headOn h then d.writeCpage h page.val value.toNat else d)

/-! ### Accesses that no register answers (01 R12, R516, 21 R732) -/

/-- An access of a head: an occurrence unless its offset is kept; 256 are kept. -/
def Dev.barAccess (d : Dev) (h : Head) (bar offset : Nat) (isWrite : Bool) : Dev :=
  let key := bar * 2 ^ 32 + offset
  let seen := (d.head h).barSeen
  let d := if isWrite then d else d.send (.allOnes (.head h))
  if seen.contains key then d
  else
    let d := if seen.length < 256 then d.onHead h (fun x => { x with barSeen := key :: x.barSeen }) else d
    d.event (evHead h 4) (detailOf [(32, offset), (40, bar), (41, bool01 isWrite)])

/-- An access outside the registers: a head's discarded write is a dead store (10 R373). -/
def Dev.barUnmapped (d : Dev) (p : Port) (bar offset : Nat) (isWrite : Bool) : Dev :=
  match p with
  | .head h => (d.barAccess h bar offset isWrite).lostStore h (bool01 isWrite)
  | .sideband => if isWrite then d.regReserved .sideband offset else d.send (.allOnes .sideband)

def execBarUnmapped (t : Nat) (p : Port) (bar : BitVec 8) (offset : BitVec 32) (isWrite : Bool) (s : State) :
    Host.Outcome State Fault Refusal :=
  s.after t (fun d => if d.portOn p then d.barUnmapped p bar.toNat offset.toNat isWrite else d)

end Sys2Proof.Machine
end

