-- ==== Sys2Proof/Machine/Lanes.lean ====
section
/-!
DEFINITION. The lane sequencers (03 R87-R123, 07 R278, R279): the start and end of senses, decodes, waymark
medians, timeouts and rejects, the recovery allowance, DEADLINE answers, prefetches, strobe tracking.
-/

namespace Sys2Proof.Machine

/-- A sense of a lane, while the device runs. -/
def Dev.onSense (d : Dev) (lane id : Nat) (f : Dev → Sense → Dev) : Dev :=
  if d.life.running then
    match d.senseOf lane id with
    | some s => f d s
    | none => d
  else d

/-! ### The start of a sense (R89-R91) -/

/-- The sense of a class whose read came first. -/
def firstSense (l : List Sense) : Option Sense :=
  l.foldl (fun b s => match b with
    | some x => if s.read < x.read then some s else some x
    | none => some s) none

/-- References of a line sense. -/
def Dev.refsOf (d : Dev) (s : Sense) : List Nat :=
  match s.kind with
  | .pass 1 => d.pass1Refs s.pla
  | .sibling 1 => d.pass1Refs s.pla
  | _ => s.refs

/-- The sense goes to its die. -/
def Dev.launch (d : Dev) (lane : Nat) (s : Sense) : Dev :=
  let d := d.setSense { s with state := .started d.now }
  let d :=
    if s.recovery then
      (d.onLane lane (fun l => { l with
        recStarts := recentStarts d.now l ++ [(d.now, plaDie s.pla)],
        runByDie := l.runByDie.modify (plaDie s.pla) (· + 1) })).count (cntLane lane 1) 1
    else d.count (cntLane lane 0) 1
  match s.kind with
  | .waymark => d.send (.waymarkSense lane (plaZone s.pla))
  | _ => d.send (.sense s.pla (d.refsOf s))

/-- The die that a sense goes to senses another tile (02 R37): a line sense holds its array for tSENSE_OCC, 24 ns,
and a waymark sense until its medians come (log entry 129). -/
def Dev.dieSensing (d : Dev) (lane : Nat) (s : Sense) : Bool :=
  (d.lane1 lane).queue.any (fun y =>
    plaDie y.pla == plaDie s.pla && plaTile y.pla != plaTile s.pla &&
    (match y.state with
     | .started since => decide (y.kind = .waymark) || decide (d.now < since + 24)
     | _ => false))

/-- The sense whose turn it is starts, once its die can take it. -/
def Dev.launchIf (d : Dev) (lane : Nat) (s : Sense) : Dev :=
  if d.dieSensing lane s then d else (d.launch lane s).noteAllowance lane

/-- The next sense of a lane starts: a RECOVERY sense first, while the allowance admits one (R90, R91). -/
def Dev.senseStart (d : Dev) (lane : Nat) : Dev :=
  let q := (d.lane1 lane).queue.filter isQueued
  let first (d : Dev) : Dev :=
    match firstSense (q.filter (fun s => !s.recovery)) with
    | some s => d.launchIf lane s
    | none => d
  match firstSense (q.filter (fun s => s.recovery)) with
  | some s =>
    if (recentStarts d.now (d.lane1 lane)).length < 12 then d.launchIf lane s
    else first (d.noteAllowance lane)
  | none => first d

def execLaneSenseStart (t : Nat) (lane : Fin 16) (s : State) : Host.Outcome State Fault Refusal :=
  s.afterOn t (fun d => if d.life.running then d.senseStart lane.val else d)

/-! ### The end of a transfer (R100, R111-R113) -/

/-- A Verge copy may be made of a sense: pass 1 of a prefetch or a stream's read, fewer than 32 outstanding, one expected key
(R111, R112). -/
def Dev.vergeKey (d : Dev) (s : Sense) (x : ReadTx) (c : LineCtx) : Option Nat :=
  if s.verge && decide (s.kind = .pass 1) && vergeOnly x && decide (d.vergeCopies (plaLane s.pla) < 32) then
    match c.key with
    | .one k => if d.keyUsable k then some k else none
    | _ => none
  else none

/-- Put the data cells as sensed, decrypted and not corrected, into the side buffer and the stream slots that
wait for them. -/
def Dev.makeVerge (d : Dev) (s : Sense) (img : Image) : Dev :=
  match d.readTx s.read with
  | none => d
  | some x =>
    match d.readCtx x with
    | none => d
    | some (_, c) =>
      match d.vergeKey s x c with
      | some k =>
        let data := d.decrypt k c.region c.idx (img.setWidth 2048)
        let d := d.onStreams (Stream.vergeIn x.id data)
        if prefetchWaits x then
          d.putSide { region := x.region, line := x.line, state := .verge, data := data, read := x.id }
        else d
      | none => d

def isStarted : SenseState → Bool
  | .started _ => true
  | _ => false

/-- A transfer on a lane link has ended, taken or rejected. -/
def Dev.transferEnds (d : Dev) (lane : Nat) : Dev := d.onLane lane (fun l => { l with linkAt := d.now })

/-- The line has arrived: stored bits and the sense's noise. -/
def Dev.transferDone (d : Dev) (lane : Nat) (s : Sense) (noise : Image) : Dev :=
  if isStarted s.state && decide (s.kind ≠ .waymark) then
    let img := d.stored s.pla ^^^ noise
    let d := ((d.setSense { s with state := .sensed img d.now }).laneBytes lane 324 0).transferEnds lane
    let d := match d.readTx s.read with
      | some x => if s.kind = SenseKind.pass 1 then d.readStage x.region x.line 3 else d
      | none => d
    d.makeVerge s img
  else d

def execSenseTransferDone (t : Nat) (lane : Fin 16) (sense : Nat) (noise : Image) (s : State) :
    Host.Outcome State Fault Refusal :=
  s.afterOn t (fun d => d.onSense lane.val sense (fun d x => d.transferDone lane.val x noise))

/-! ### Decodes (R92, R108) -/

/-- One of the lane's two decoders holds a sensed line: they take lines in order of arrival, so fewer than two that
arrived before it are still to decode (R92). A pass that waits for an earlier one of its line holds no decoder. -/
def Dev.decoding (d : Dev) (lane : Nat) (s : Sense) : Bool :=
  match s.state with
  | .sensed _ at_ =>
    decide (((d.lane1 lane).queue.filter (fun y =>
      match y.state with
      | .sensed _ t => (decide (t < at_) || (decide (t = at_) && decide (y.id < s.id))) && !d.earlierPass y
      | _ => false)).length < 2)
  | _ => false

def Dev.decodeDone (d : Dev) (lane : Nat) (s : Sense) : Dev :=
  match s.state with
  | .sensed img _ => if d.earlierPass s || !d.decoding lane s then d else d.decoded s img
  | _ => d

def execDecodeDone (t : Nat) (lane : Fin 16) (sense : Nat) (s : State) : Host.Outcome State Fault Refusal :=
  s.afterOn t (fun d => d.onSense lane.val sense (fun d x => d.decodeDone lane.val x))

/-! ### Waymark medians (02 R48, R73) -/

def Dev.waymarkDone (d : Dev) (lane : Nat) (s : Sense) (medians : List (BitVec 8)) : Dev :=
  if isStarted s.state && decide (s.kind = .waymark) then
    ((d.laneBytes lane 16 0).transferEnds lane).burst s (medians16 (plaTile s.pla) medians)
  else d

def execWaymarkSenseDone (t : Nat) (lane : Fin 16) (sense : Nat) (medians : List (BitVec 8)) (s : State) :
    Host.Outcome State Fault Refusal :=
  s.afterOn t (fun d => d.onSense lane.val sense (fun d x => d.waymarkDone lane.val x medians))

/-! ### Timeouts and rejects (07 R278, R279) -/

/-- A sense fails unless its scope went out of service with it. -/
def Dev.failIfHeld (d : Dev) (lane : Nat) (s : Sense) : Dev :=
  match d.senseOf lane s.id with
  | some x => d.senseFails x 0
  | none => d

/-- tDIE_TMO runs from the sense's command, or from the end of the transfer before it where that is later (R278). -/
def Dev.senseTimeout (d : Dev) (lane : Nat) (s : Sense) : Dev :=
  match s.state with
  | .started since =>
    if d.due (max since (d.lane1 lane).linkAt + 260) then (d.dieTimeout lane (plaDie s.pla)).failIfHeld lane s else d
  | _ => d

def execSenseTimeout (t : Nat) (lane : Fin 16) (sense : Nat) (s : State) : Host.Outcome State Fault Refusal :=
  s.afterOn t (fun d => d.onSense lane.val sense (fun d x => d.senseTimeout lane.val x))

/-- A rejected transfer is repeated once; a second reject fails the sense. -/
def Dev.linkCheckReject (d : Dev) (lane : Nat) (s : Sense) : Dev :=
  if isStarted s.state then
    let d := d.transferEnds lane
    if s.repeated then (d.linkReject lane (plaDie s.pla)).failIfHeld lane s
    else
      (d.setSense { s with repeated := true, state := .started d.now }).linkReject lane (plaDie s.pla)
  else d

def execLinkCheckReject (t : Nat) (lane : Fin 16) (sense : Nat) (s : State) :
    Host.Outcome State Fault Refusal :=
  s.afterOn t (fun d => d.onSense lane.val sense (fun d x => d.linkCheckReject lane.val x))

/-! ### The recovery allowance over aligned intervals (R91, 07 R279) -/

/-- The scope that a run of 400 intervals takes out: a die that had nine tenths of the starts, else the
lane. -/
def runScope (l : Lane) : Option Nat :=
  let total := l.runByDie.foldl (· + ·) 0
  (upTo 8).find? (fun i => decide (9 * total ≤ 10 * lget l.runByDie i))

def clearRun (l : Lane) : Lane := { l with allowRun := 0, runByDie := List.replicate 8 0 }

/-- An aligned interval ends: one event where the allowance was reached in it. A sense that still waits reaches the
allowance in the next interval too. -/
def Dev.intervalEnd (d : Dev) (lane : Nat) : Dev :=
  let l := d.lane1 lane
  let waits := !(d.allowanceWaiting lane).isEmpty
  if l.allowHit then
    let d := (d.onLane lane (fun l => { l with allowHit := waits, allowRun := l.allowRun + 1 })).event (evLane lane 2)
    if 400 ≤ l.allowRun + 1 then
      let d := d.onLane lane clearRun
      if d.scopeState lane (runScope l) = .inService then d.takeOut lane (runScope l) 5 else d
    else d
  else d.onLane lane clearRun

def execRecoveryIntervalEnd (t : Nat) (s : State) : Host.Outcome State Fault Refusal :=
  s.afterOn t (fun d =>
    if d.life.running && decide (d.now % 2500 = 0) then d.each (upTo 16) Dev.intervalEnd else d)

/-! ### DEADLINE (R122, R123) -/

def isHost (h : Head) (tag now : Nat) (w : Waiter) : Bool :=
  match w with
  | .host g k _ arrived => decide (g = h) && k == tag && decide (arrived + 2415 ≤ now)
  | _ => false

/-- A read answered with poison of cause DEADLINE; the recovery of its line goes on. DESIGN CHOICE: a read whose pass
1 has not been made yet carries last pass 1 (log entry 124). -/
def Dev.deadlineAnswer (d : Dev) (h : Head) (tag : Nat) (x : ReadTx) : Dev :=
  let d := d.setRead { x with waiters := x.waiters.filter (fun w => !isHost h tag d.now w) }
  let d := (((d.returnData h tag 0 true).readEnds h).regionCount x.region 4 1).count (cntLane (plaLane x.pla) 3) 1
  let d := match d.readCtx x with
    | some (_, c) =>
      d.event (evLane (plaLane x.pla) 3) (mediaDetail c 4 (max 1 x.lastPass) (d.keyIdOf c))
    | none => d
  let d := d.readRecord h (hostErrOf 4) 4 x.region x.line
  ((d.readPathOf x.region x.line (plaLane x.pla) x.lastPass true).readStage x.region x.line 7).traceEndIf
    (fun y => traceOf 0 x.region x.line y)

def Dev.readDeadline (d : Dev) (h : Head) (tag : Nat) : Dev :=
  match d.lane.reads.find? (fun x => x.waiters.any (isHost h tag d.now)) with
  | some x => d.deadlineAnswer h tag x
  | none => d

def execReadDeadline (t : Nat) (h : Head) (tag : Nat) (s : State) : Host.Outcome State Fault Refusal :=
  s.afterOn t (fun d => if d.life.running then d.readDeadline h tag else d)

/-! ### Verge copies past tCONFIRM (R114) -/

def Dev.vergeTimeout (d : Dev) (s : Sense) : Dev :=
  match s.state with
  | .sensed _ since =>
    if d.due (since + 64) then
      match d.readTx s.read with
      | some x => d.denyVerge x
      | none => d
    else d
  | _ => d

def execVergeConfirmTimeout (t : Nat) (lane : Fin 16) (sense : Nat) (s : State) :
    Host.Outcome State Fault Refusal :=
  s.afterOn t (fun d => d.onSense lane.val sense Dev.vergeTimeout)

/-! ### Prefetches (05 R190, R191) -/

/-- The next line of a trained detector, within PF_DEPTH of the latest miss and the region's end. -/
def Dev.prefetchLine (d : Dev) (x : Detector) (r : Region) : Option Nat :=
  if 2 ≤ x.hits ∧ x.next ≤ x.last + d.cache.pfDepth.toNat ∧ x.next < r.lines then some x.next else none

/-- The line has no copy and is not being read. -/
def Dev.wanted (d : Dev) (r : Region) (region line : Nat) : Bool :=
  !d.inBench r region line && (d.findWay r region line).isNone
    && !d.cache.side.any (fun e => e.region == region && e.line == line)
    && !d.lane.reads.any (fun x => x.region == region && x.line == line)

/-- A sense for one line, where its lane takes it. -/
def Dev.prefetch (d : Dev) (h : Head) (r : Region) (region line : Nat) : Dev :=
  match d.lineStripe region r line with
  | none => d
  | some (t, c) =>
    if d.wanted r region line && !d.readLocked r line && zMapped t.e && !d.zt.lost.contains t.lz
        && d.inService c.pla then
      (d.count (cntCache 4) 1).wantLine t c (.prefetch h) true
    else d

/-- The lane of a line holds fewer than 16 senses. -/
def Dev.laneOpen (d : Dev) (r : Region) (region line : Nat) : Bool :=
  match d.lineStripe region r line with
  | some (_, c) => decide ((d.lane1 (plaLane c.pla)).queue.length < 16)
  | none => false

def Dev.prefetchIssue (d : Dev) (h : Head) (i : Nat) : Dev :=
  match vget none (d.detectors h) i with
  | none => d
  | some x =>
    match d.region x.region with
    | none => d.setDetector h i none
    | some r =>
      match d.prefetchLine x r with
      | none => d
      | some line =>
        if d.laneOpen r x.region line then
          (d.setDetector h i (some { x with next := line + 1 })).prefetch h r x.region line
        else d

def execPrefetchIssue (t : Nat) (h : Head) (detector : Fin 16) (s : State) : Host.Outcome State Fault Refusal :=
  s.afterOn t (fun d => if d.serving h then d.prefetchIssue h detector.val else d)

/-! ### Strobe tracking (20 R715) -/

def Dev.strobe (d : Dev) (lane : Nat) : Dev :=
  let l := d.lane1 lane
  if l.trained && l.queue.isEmpty && d.due (l.strobeAt + 10 * msNs) then
    d.setLane lane { l with strobeAt := d.now }
  else d

def execStrobeTracking (t : Nat) (lane : Fin 16) (s : State) : Host.Outcome State Fault Refusal :=
  s.afterOn t (fun d => if d.life.running then d.strobe lane.val else d)

end Sys2Proof.Machine
end

