-- ==== Sys2Proof/Machine/Life.lean ====
section
/-!
DEFINITION. Life cycle by command (19 R687, R700; 15 R588): SHUTDOWN, WARM, the end of tSHUT_CMD, TEST_UNLOCK;
and the test access port (20 R719).
-/

namespace Sys2Proof.Machine

/-! ### LIFE_CTRL (R687, R700) -/

/-- LIFE_CTRL is written from the sideband, or from a head with an open owner session. -/
def Dev.mayLife (d : Dev) : Port → Bool
  | .sideband => true
  | .head h => d.session (.head h) 1

/-- LIFE_CTRL's SHUTDOWN or WARM; a write from a head without an owner session is discarded. -/
def Dev.lifeShut (d : Dev) (p : Port) (k : ShutKind) (ans : Answers) : Dev :=
  if d.portOn p = false then d
  else if d.mayLife p then (d.startShut k ans).goOn
  else d.denied

def execShutdown (t : Nat) (p : Port) (bist : List BistFail) (media : Answers) (s : State) :
    Host.Outcome State Fault Refusal :=
  s.afterMedia t (fun d => d.lifeShut p (.off bist) media)

def execWarm (t : Nat) (p : Port) (start : StartInputs) (s : State) : Host.Outcome State Fault Refusal :=
  s.after t (fun d => d.lifeShut p (.warm start) noAnswers)

def execShutdownCmdTimeout (t : Nat) (s : State) : Host.Outcome State Fault Refusal :=
  s.afterOn t Dev.shutTimeout

/-! ### SEC_CTRL TEST_UNLOCK (15 R588) -/

def Dev.testUnlock (d : Dev) (p : Port) (ans : Answers) : Dev :=
  match p with
  | .sideband => d
  | .head h =>
    if d.portOn p = false then d
    else if d.session (.head h) 0 then (d.startShut .unlock ans).goOn
    else d.denied

def execTestUnlock (t : Nat) (p : Port) (media : Answers) (s : State) : Host.Outcome State Fault Refusal :=
  s.afterMedia t (fun d => d.testUnlock p media)

/-! ### The TAP (20 R719) -/

/-- Instructions that drive or isolate the pins. -/
def testInstr : TapInstr → Bool
  | .extest => true
  | .extestPulse => true
  | .extestTrain => true
  | .clamp => true
  | .highz => true
  | _ => false

/-- Test mode: TEST_EN high, or TEST_UNLOCKED. -/
def Dev.testMode (d : Dev) : Bool := d.life.testEn || d.sec.testUnlocked

/-- What the loaded instruction selects. -/
def Dev.tapSelects (d : Dev) : TapInstr :=
  if testInstr d.life.tap && !d.testMode then .bypass else d.life.tap

/-- IDCODE: 0x1A96_0B3B, its VERSION the stepping of IDENTIFY. -/
def tapIdcode : Nat := setFld 0x1A960B3B 28 4 Config.stepping.toNat

def execTapInstruction (t : Nat) (i : TapInstr) (s : State) : Host.Outcome State Fault Refusal :=
  s.after t (fun d => { d with life := { d.life with tap := i } })

def execTestEnChange (t : Nat) (level : Bool) (s : State) : Host.Outcome State Fault Refusal :=
  s.after t (fun d => { d with life := { d.life with testEn := level } })

end Sys2Proof.Machine
end

