-- ==== Sys2Proof/Machine/WriteBack.lean ====
section
/-!
DEFINITION. Write-back and the ends of programs (04 R142-R150, R184, R750, R744, 07 R276).
-/

namespace Sys2Proof.Machine

/-! ### Selection and the move into staging (R184, R750) -/

/-- A line that has held a dirty sector for AGE_LIMIT is selected. -/
def Dev.writebackAge (d : Dev) (region line : Nat) : Dev :=
  match d.region region with
  | none => d
  | some r =>
    match d.findWay r region line with
    | some (_, w) =>
      if w.dirty ≠ 0 ∧ d.cache.ageLimit ≠ 0 ∧ d.due (w.dirtyAt + d.cache.ageLimit.toNat * 10 * msNs) = true then
        d.selectLine r region line
      else d
    | none => d

def execWritebackAge (t : Nat) (region : BitVec 10) (line : BitVec 37) (s : State) :
    Host.Outcome State Fault Refusal :=
  s.afterOn t (fun d => if d.life.running then d.writebackAge region.toNat line.toNat else d)

/-- The oldest selected line moves into a staging entry. -/
def Dev.stagingMove (d : Dev) : Dev :=
  if d.stagingFree then
    match d.cache.nextSelected with
    | some key => d.stageWay key
    | none => d
  else d

def execStagingMove (t : Nat) (s : State) : Host.Outcome State Fault Refusal :=
  s.afterOn t (fun d => if d.life.running then d.stagingMove else d)

/-! ### Issue (R142, R143, R175) -/

/-- An entry pinned for want of a poison record is STAGED again once the list has room. -/
def Dev.unpin (d : Dev) (id : Nat) : Dev :=
  match d.bench.entry id with
  | some e =>
    if e.state = .pinned ∧ e.image = none then
      match d.placeOf e with
      | some (t, c) => if d.issueRoom t c e none then d.setEntry { e with state := .staged } else d
      | none => d
    else d
  | none => d

def execStagedIssue (t : Nat) (entry : Nat) (media : Answers) (s : State) : Host.Outcome State Fault Refusal :=
  s.afterOn t (fun d => if d.life.running then (d.unpin entry).issue media entry else d)

/-! ### The end of a program (R148, R39-R41) -/

/-- A program in flight that is not suspended. -/
def Dev.onProg (d : Dev) (id : Nat) (f : Dev → Prog → Dev) : Dev :=
  if d.life.running then
    match d.bench.progs.find? (fun p => p.id == id) with
    | some p => f d p
    | none => d
  else d

/-- Accepted, repeated once, or remapped. -/
def Dev.programEnd (d : Dev) (p : Prog) (senses : List (List CellCode)) (residue : Bool) : Dev :=
  if p.suspAt.isSome then d
  else if d.accepts (d.profileAt p.spec.pla) p.spec.pla (d.progImage p.spec) (decide (p.attempt ≠ 1)) senses then
    d.verified p residue
  else if p.attempt = 1 then d.setProg { p with attempt := 2, startAt := d.now }
  else d.remap p residue

def execProgramVerifyDone (t : Nat) (prog : Nat) (senses : List (List CellCode)) (residue : Bool) (s : State) :
    Host.Outcome State Fault Refusal :=
  s.afterOn t (fun d => d.onProg prog (fun d p => d.programEnd p senses residue))

/-- A verify sense of a program times out: a timeout of its die; it is repeated at once, and the program goes on unless
the die is taken out (R744). -/
def Dev.verifyTimeout (d : Dev) (p : Prog) : Dev :=
  if d.due (p.startAt + 260) then
    (d.setProg { p with startAt := d.now }).dieTimeout (plaLane p.spec.pla) (plaDie p.spec.pla)
  else d

def execVerifySenseTimeout (t : Nat) (prog : Nat) (s : State) : Host.Outcome State Fault Refusal :=
  s.afterOn t (fun d => d.onProg prog Dev.verifyTimeout)

/-! ### Refused merges (R276) -/

/-- New image of the line that an update writes, by its place. -/
def Dev.newImage (d : Dev) (u : Update) (c : LineCtx) : Image :=
  ((d.entryAt u c.pla).bind Entry.image).getD 0

/-- The parity image of a stripe from its data images, those of the update's own lines as written. -/
def Dev.parityAgain (d : Dev) (ans : Answers) (t : StripeCtx) (u : Update) : Dev × Image :=
  match t.data.find? (fun c => (d.entryAt u c.pla).isSome) with
  | some c => d.parityFrom ans t c.pla (d.newImage u c)
  | none => d.parityFrom ans t 0 0

/-- The parity line is read by its own passes and Δ applied; else it is computed anew. -/
def Dev.mergeImage (d : Dev) (ans : Answers) (t : StripeCtx) (u : Update) (c : LineCtx) (delta : Image) :
    Dev × Image :=
  match d.tryPasses ans c false [1, 2, 3, 4, 5] with
  | some (.good cells m n, _, pass) => (d.earlyIf c pass n, goodImage c cells m ^^^ delta)
  | _ => d.parityAgain ans t u

def Dev.mergeRefuse (d : Dev) (ans : Answers) (p : Prog) : Dev :=
  if p.spec.role = .merge then
    match d.bench.update p.update with
    | none => d
    | some u =>
      match d.stripe u.lzone u.lstripe with
      | none => d
      | some t =>
        match t.check.find? (fun c => c.pla == p.spec.pla) with
        | none => d
        | some c =>
          let d := d.count (cntLane (plaLane p.spec.pla) 6) 1
          let (d', img) := (d.dropProg p.id).mergeImage ans t u c p.spec.image
          let d := { d' with bench := { d'.bench with progs := d.bench.progs } }
          d.setProg { p with spec := { p.spec with role := .parity, image := img, noise := 0 } }
  else d

def execMergeRefuse (t : Nat) (prog : Nat) (media : Answers) (s : State) : Host.Outcome State Fault Refusal :=
  s.afterOn t (fun d => d.onProg prog (fun d p => d.mergeRefuse media p))

/-! ### Long suspensions (R150) -/

def suspNow (now : Nat) (p : Prog) : Nat :=
  p.susp + (match p.suspAt with
    | some a => now - a
    | none => 0)

def Dev.suspLong (d : Dev) (p : Prog) : Dev :=
  if !p.longDone && decide (50 * usNs < suspNow d.now p) then
    let lane := plaLane p.spec.pla
    ((d.setProg { p with longDone := true }).count (cntLane lane 5) 1).event (evLane lane 5)
  else d

def execSuspLong (t : Nat) (prog : Nat) (s : State) : Host.Outcome State Fault Refusal :=
  s.afterOn t (fun d => d.onProg prog Dev.suspLong)

end Sys2Proof.Machine
end

