-- ==== Sys2Proof/Machine/Maint.lean ====
section
/-!
DEFINITION. Cache maintenance and scratch conversion (05 R195-R213), and the control cores' aborts (08
R307-R309).
-/

namespace Sys2Proof.Machine

/-! ### The range of an operation (R211) -/

/-- The operation that MAINT_RANGE and an OP name; none when the range lies outside the region. -/
def Dev.maintOp (d : Dev) (op : Nat) : Option MaintOp :=
  let first := d.cache.mFirst.toNat
  let count := d.cache.mCount.toNat
  match d.region d.cache.mRegion.toNat with
  | some r =>
    if first < r.lines ∧ first + count ≤ r.lines then
      some { op := op, region := d.cache.mRegion.toNat, first := first,
             count := if count = 0 then r.lines - first else count }
    else none
  | none => none

def Dev.maintBusy (d : Dev) : Bool := d.cache.maint.isSome || d.cache.conv.isSome

def Dev.maintRefused (d : Dev) : Dev := { d with cache := { d.cache with refused := true } }

/-- START (R202, R206, R207). -/
def Dev.maintStart (d : Dev) (op : Nat) : Dev :=
  if d.maintBusy || decide (op = 0) then d.maintRefused
  else
    match d.maintOp op with
    | none => d.maintRefused
    | some m =>
      { d with cache := { d.cache with maint := some m } }.addWork .register

/-- A write of MAINT_CTRL. -/
def Dev.writeMaintCtrl (d : Dev) (v : Nat) : Dev :=
  let d := { d with cache := { d.cache with mOp := BitVec.ofNat 2 v } }
  if v.testBit 2 then d.maintStart (fld v 0 2) else d

/-- A write of MAINT_CTRL that starts the row's operation. -/
def Dev.maintRow (d : Dev) (p : Port) (op : Nat) (value : BitVec 32) : Dev :=
  if d.portOn p && decide (fld value.toNat 0 2 = op) && value.toNat.testBit 2 then
    d.writeMaintCtrl value.toNat
  else d

def execMaintClean (t : Nat) (p : Port) (value : BitVec 32) (s : State) : Host.Outcome State Fault Refusal :=
  s.after t (fun d => d.maintRow p 1 value)

def execMaintInvalidate (t : Nat) (p : Port) (value : BitVec 32) (s : State) :
    Host.Outcome State Fault Refusal :=
  s.after t (fun d => d.maintRow p 2 value)

def execMaintFlush (t : Nat) (p : Port) (value : BitVec 32) (s : State) : Host.Outcome State Fault Refusal :=
  s.after t (fun d => d.maintRow p 3 value)

/-! ### Completion (R202, R206) -/

/-- Lines of a range that the operation still has to write back: none selected, none in the Bench. -/
def Dev.maintClean (d : Dev) (m : MaintOp) : Bool :=
  !d.cache.ways.any (fun p => match p.2 with
    | some w => w.selected.isSome && m.covers w.region w.line
    | none => false) &&
  !d.bench.entries.any (fun e => match e.key with
    | .user r l => m.covers r l
    | .sys _ _ => false)

/-- INVALIDATE: clean lines and side-buffer entries of the range go; dirty lines stay and are counted. -/
def Dev.maintDrop (d : Dev) (m : MaintOp) : Dev :=
  let dirty (w : Way) : Bool := w.dirty != 0
  let skipped := (d.cache.ways.filter (fun p => match p.2 with
    | some w => dirty w && m.covers w.region w.line
    | none => false)).length
  { d with cache := { d.cache with
      ways := d.cache.ways.filter (fun p => match p.2 with
        | some w => dirty w || !m.covers w.region w.line
        | none => true)
      side := d.cache.side.filter (fun e => !m.covers e.region e.line)
      skipped := min skipped (2 ^ 32 - 1) } }

def Dev.maintDone (d : Dev) : Dev :=
  match d.cache.maint with
  | none => d
  | some m =>
    if d.working .register && (decide (m.op = 2) || d.maintClean m) then
      let d := { d with cache := { d.cache with maint := none } }
      (if m.op = 1 then d else d.maintDrop m).nextWork
    else d

def execMaintDone (t : Nat) (s : State) : Host.Outcome State Fault Refusal :=
  s.after t (fun d => if d.life.running && !d.bench.draining then d.maintDone else d)

/-! ### Scratch (R195-R201, R210) -/

/-- A write of SCRATCH_CFG. -/
def Dev.writeScratchCfg (d : Dev) (v : Nat) : Dev :=
  if d.maintBusy then d.maintRefused
  else
    let target := fld v 0 2
    let steps := d.cache.steps.toNat
    let d := { d with cache := { d.cache with cfgSteps := BitVec.ofNat 2 target } }
    if target = steps then d
    else
      { d with cache := { d.cache with conv := some { target := target } } }.addWork .conversion

def execScratchCfgWrite (t : Nat) (p : Port) (value : BitVec 32) (s : State) :
    Host.Outcome State Fault Refusal :=
  s.after t (fun d => if d.portOn p then d.writeScratchCfg value.toNat else d)

/-- A line of the ways being added has not been written back. -/
def Dev.convBusy (d : Dev) (steps target : Nat) : Bool :=
  d.cache.ways.any (fun p => match p.2 with
    | some w => convKey steps target p.1 &&
        (w.dirty != 0 || d.bench.entries.any (fun e => decide (e.key = .user w.region w.line)))
    | none => false)

/-- Scratch bytes below an offset stay. -/
def keepBelow (n : Nat) (m : Memory) : Memory := m.filter (fun c => decide (c.1 < n))

/-- The conversion ends: groups added read as zeros, groups released are invalid ways. -/
def Dev.endConversion (d : Dev) (steps target : Nat) : Dev :=
  let keep := min steps target * 2 ^ 22
  { d with cache := { d.cache with
      ways := d.cache.ways.filter (fun p => !convKey steps target p.1)
      scratch := keepBelow keep d.cache.scratch
      scratchFlips := d.cache.scratchFlips.filter (fun f => decide (f.1 < keep))
      scratchPoison := d.cache.scratchPoison.filter (fun s => decide (64 * s < keep))
      steps := BitVec.ofNat 2 target
      conv := none } }

def Dev.conversionDone (d : Dev) : Dev :=
  match d.cache.conv with
  | none => d
  | some c =>
    let steps := d.cache.steps.toNat
    if d.working .conversion = false then d
    else if steps < c.target ∧ d.convBusy steps c.target = true then d.convSelect steps c.target
    else (d.endConversion steps c.target).nextWork

def execScratchConversionDone (t : Nat) (s : State) : Host.Outcome State Fault Refusal :=
  s.after t (fun d => if d.life.running && !d.bench.draining then d.conversionDone else d)

/-! ### Control cores (08 R307-R310) -/

def execCoreFetchPoison (t : Nat) (core : Fin 16) (addr : Word) (s : State) :
    Host.Outcome State Fault Refusal :=
  s.after t (fun d => if d.life.running then d.fetchPoison core.val addr.toNat else d)

/-- A precise data abort: the load writes no register; the core's abort stands (R307). -/
def Dev.dataAbort (d : Dev) (core : Nat) : Dev :=
  if d.clusterDown (core / 4) then d
  else
    let d := { d with sec := { d.sec with aborts := setBit d.sec.aborts core true } }
    (d.event (evCore core 1)).send (.dataAbort core)

def execCoreDataAbort (t : Nat) (core : Fin 16) (s : State) : Host.Outcome State Fault Refusal :=
  s.after t (fun d => if d.life.running then d.dataAbort core.val else d)

def execClusterReloadDone (t : Nat) (cluster : Fin 4) (s : State) : Host.Outcome State Fault Refusal :=
  s.after t (fun d => if d.life.running then d.reloadDone cluster.val else d)

def execClusterUpdateCmdTimeout (t : Nat) (cluster : Fin 4) (s : State) : Host.Outcome State Fault Refusal :=
  s.after t (fun d => if d.life.running then d.updateTimeout cluster.val else d)

end Sys2Proof.Machine
end

