-- ==== Sys2Proof/Machine/Power.lean ====
section
/-!
DEFINITION. The supervisor (16 R594-R617, R743; 17 R647; 19 R677): power-up step by step, rail failures,
PWR_FLT#, input power, shut-down of the rails, VAUX, margining.
-/

namespace Sys2Proof.Machine

/-! ### Times of R598 -/

def tPgStable : Nat := 200 * usNs
def tPgTmo : Nat := 10 * msNs
def tPgChat : Nat := 2 * msNs
def tFallTmo : Nat := 20 * msNs

def PowerBlock.offMinNs (p : PowerBlock) : Nat := p.offMin.toNat * 10 * msNs

/-! ### VAUX (19 R677, 18 R657-R660, 02 R77) -/

/-- The always-on domain starts afresh; the medium, the Cabinet and the firmware slots stand. -/
def Dev.vauxReset (d : Dev) (vaux : Bool) : Dev :=
  { Reset.dev with
    draws := d.draws
    medium := d.medium
    sys := d.keptTables
    nv := d.keptTables
    obj := { Reset.obj with counts := d.obj.counts }
    sec := { Reset.sec with fw0 := d.sec.fw0, fw1 := d.sec.fw1 }
    pwr := { Reset.power with vaux := vaux }
    cab := { Reset.cab with slots := d.cab.slots, milestone := d.cab.milestone }
    headA := { Reset.head with inReset := d.headA.inReset }
    headB := { Reset.head with inReset := d.headB.inReset }
    life := { Reset.life with resets := d.life.resets + 1, testEn := d.life.testEn, maintCut := d.life.maintCut }
    out := d.out }

/-- Rail counters from the Cabinet (R613). -/
def Dev.loadRails (d : Dev) : Dev :=
  d.each (upTo 12) (fun d r =>
    match d.cab.lookup cabRail r with
    | some p => d.onRail r (fun x => { x with
        pgFail := BitVec.ofNat 16 (cabFld p 0 2), chatter := BitVec.ofNat 16 (cabFld p 2 2),
        timeout := BitVec.ofNat 16 (cabFld p 4 2) })
    | none => d)

def execVauxPowerOn (t : Nat) (s : State) : Host.Outcome State Fault Refusal :=
  s.after t (fun d => ((d.vauxReset true).loadRails).cabScan)

/-- The Cabinet write in progress runs on VAUX's hold-up; those not started are lost (R596, R614). -/
def CabBlock.lastWrite (c : CabBlock) : CabBlock :=
  match c.busy with
  | some (r, _) => { c.put r false with busy := none, queue := [] }
  | none => { c with queue := [] }

def Dev.vauxLoss (d : Dev) : Dev :=
  let d := if d.life.running then d.tearAll else d
  { d with cab := d.cab.lastWrite }.vauxReset false

def execVauxLoss (t : Nat) (s : State) : Host.Outcome State Fault Refusal :=
  s.after t (fun d => if d.pwr.vaux then d.vauxLoss else d)

/-- A stopped AON_CLK: the next start treats the off interval as a loss of VAUX (20 R717). -/
def execAonClkStop (t : Nat) (s : State) : Host.Outcome State Fault Refusal :=
  s.after t (fun d => { d with pwr := { d.pwr with continuity := false } })

/-! ### Power-up (R597-R604) -/

/-- R599 and R603 allow a power-up; VIN_GOOD and PWR_FLT# read high in the step that says so. -/
def Dev.mayPowerUp (d : Dev) : Bool :=
  let p := d.pwr
  p.vaux && !p.fltDrive && !d.therm.tripped &&
  (match p.state with
   | .off => true
   | .offWait => decide (p.offAt + p.offMinNs ≤ d.aon)
   | .failed => p.vinFell && decide (p.offAt + p.offMinNs ≤ d.aon)
   | _ => false)

/-- Enable the rails of a step. -/
def Dev.enableStep (d : Dev) (n : Nat) : Dev :=
  let d := d.onRails (stepRails n) (railOn d.aon)
  { d with pwr := { d.pwr with step := n } }

def Dev.powerUp (d : Dev) : Dev :=
  if d.mayPowerUp then
    ({ d with pwr := { d.pwr with
        attempt := if d.pwr.state = PwrState.failed then 0 else d.pwr.attempt,
        state := .seqUp, vinGood := true, fltIn := false, vinFell := false } }).enableStep 1
  else d

def execPowerUpStart (t : Nat) (s : State) : Host.Outcome State Fault Refusal := s.after t (fun d => d.powerUp)

/-- The step in hand, or a VPHY rail enabled again alone, has the rail. -/
def Dev.inStep (d : Dev) (r : Nat) : Bool :=
  (decide (d.pwr.state = .seqUp) && (stepRails d.pwr.step).contains r) ||
  (decide (d.pwr.state = .on) && (d.rail r).en && decide ((d.rail r).enAt ≠ 0))

/-- A failed attempt of a power-up: PWR_FLT# is driven for a failure of its own, and the rails come down. -/
def Dev.stepFails (d : Dev) (rail kind : Nat) (drive : Bool) : Dev :=
  let d := d.latchFail rail kind
  ({ d with pwr := { d.pwr with fltDrive := d.pwr.fltDrive || drive } }).powerDown

/-- An attempt to enable VPHY_A or VPHY_B again has failed: the rail is off until the next (R743). -/
def Dev.phyFails (d : Dev) (r : Nat) : Dev :=
  let d := d.onRail r railOff
  { d with pwr := { d.pwr with
      phyTries := d.pwr.phyTries.modify (r - 2) (· + 1), phyAt := d.pwr.phyAt.set (r - 2) d.aon } }

/-- A rail of a step chatters. -/
def Dev.chatters (d : Dev) (r : Nat) : Dev :=
  let d := ((d.onRail r (fun x => { x with chatter := sat16 x.chatter })).event (evRail r 1)).railRecord r
  if d.pwr.state = .seqUp then d.stepFails r 2 true else d.phyFails r

/-- A power-good input changes. -/
def Dev.pgChange (d : Dev) (r : Nat) (good : Bool) : Dev :=
  let counted := d.inStep r
  let d := d.onRail r (fun x => { x with
    pg := good, goodAt := if good then d.aon else 0,
    trans := if counted then x.trans.filter (fun a => decide (d.aon < a + tPgChat)) ++ [d.aon] else [] })
  if counted && decide (4 < (d.rail r).trans.length) then d.chatters r else d

def execRailPgChange (t : Nat) (rail : Fin 12) (good : Bool) (s : State) : Host.Outcome State Fault Refusal :=
  s.after t (fun d => if d.pwr.vaux && good != (d.rail rail.val).pg then d.pgChange rail.val good else d)

/-- A rail has stayed good for tPG_STABLE since its enable. -/
def railStable (now : Nat) (r : Rail) : Bool :=
  r.en && r.pg && decide (max r.goodAt (r.enAt - 1) + tPgStable ≤ now)

/-- ON: the controller starts (R604); the latch, the retries and the partition locks begin anew. -/
def Dev.reachOn (d : Dev) (x : StartInputs) : Dev :=
  (({ d with pwr := { d.pwr with
      state := .on, onAt := d.aon, step := 0, attempt := 0, failLatched := false, phyTries := [0, 0] } }).milestone
    0).startUp false x

/-- A step completes: the next is enabled, or the supervisor is ON. -/
def Dev.stepDone (d : Dev) (x : StartInputs) : Dev :=
  let n := d.pwr.step
  if (stepRails n).all (fun r => railStable d.aon (d.rail r)) then
    let d := d.onRails (stepRails n) (fun r => { r with enAt := 0, trans := [] })
    if n < 9 then d.enableStep (n + 1) else d.reachOn x
  else d

/-- A VPHY rail enabled again completes. -/
def Dev.phyDone (d : Dev) : Dev :=
  d.each [2, 3] (fun d r =>
    if decide ((d.rail r).enAt ≠ 0) && railStable d.aon (d.rail r) then
      let d := d.onRail r (fun x => { x with enAt := 0, trans := [] })
      { d with pwr := { d.pwr with phyTries := d.pwr.phyTries.set (r - 2) 0 } }
    else d)

def Dev.pgStable (d : Dev) (x : StartInputs) : Dev :=
  match d.pwr.state with
  | .seqUp => d.stepDone x
  | .on => d.phyDone
  | _ => d

def execPgStable (t : Nat) (start : StartInputs) (s : State) : Host.Outcome State Fault Refusal :=
  s.after t (fun d => d.pgStable start)

/-- Enabled for tPG_TMO and not complete. -/
def railLate (now : Nat) (r : Rail) : Bool :=
  r.en && decide (r.enAt ≠ 0) && decide (r.enAt - 1 + tPgTmo ≤ now) && !railStable now r

def Dev.railTimeout (d : Dev) (r : Nat) : Dev :=
  ((d.onRail r (fun x => { x with timeout := sat16 x.timeout })).event (evRail r 0)).railRecord r

def Dev.pgTimeout (d : Dev) : Dev :=
  let late := (upTo 12).filter (fun r => railLate d.aon (d.rail r) && d.inStep r)
  match late with
  | [] => d
  | r :: _ =>
    let d := d.each late Dev.railTimeout
    if d.pwr.state = .seqUp then d.stepFails r 1 true else d.each late Dev.phyFails

def execPgTimeout (t : Nat) (s : State) : Host.Outcome State Fault Refusal := s.after t (fun d => d.pgTimeout)

/-! ### Rail failures while ON (R605, R606, R743) -/

def headOfRail (r : Nat) : Head := if r = 2 then .a else .b

/-- PWR_FLT# is driven low for tFLT_PULSE. -/
def Dev.driveFlt (d : Dev) : Dev := { d with pwr := { d.pwr with fltDrive := true } }

def Dev.railFail (d : Dev) (r : Nat) (ans : Answers) : Dev :=
  if d.pwr.state = .on ∧ (d.rail r).en = true ∧ (d.rail r).enAt = 0 then
    let d := ((d.onRail r (fun x => { x with pg := false })).railPgFail r).latchFail r 4
    if r = 2 ∨ r = 3 then
      let d := (d.linkDown (headOfRail r)).onRail r railOff
      { d with pwr := { d.pwr with
          phyTries := d.pwr.phyTries.set (r - 2) 0, phyAt := d.pwr.phyAt.set (r - 2) d.aon } }
    else if r = 4 then (d.driveFlt.startDrain ans).goOn
    else d.driveFlt.powerCut
  else d

def execRailFail (t : Nat) (rail : Fin 12) (media : Answers) (s : State) : Host.Outcome State Fault Refusal :=
  s.afterMedia t (fun d => d.railFail rail.val media)

/-- A failed VPHY rail is enabled again after tOFF_MIN, RETRY times at most. -/
def Dev.phyAgain (d : Dev) (h : Head) : Dev :=
  let r := phyRail h
  let n := headNum h
  if d.pwr.state = .on ∧ (d.rail r).en = false ∧ lget d.pwr.phyTries n < d.pwr.retry.toNat ∧
      lget d.pwr.phyAt n + d.pwr.offMinNs ≤ d.aon then d.onRail r (railOn d.aon)
  else d

def execVphyReenable (t : Nat) (h : Head) (s : State) : Host.Outcome State Fault Refusal :=
  s.after t (fun d => d.phyAgain h)

/-! ### PWR_FLT# (R601, R607, R608) -/

def Dev.fltLow (d : Dev) (ans : Answers) : Dev :=
  let d := { d with pwr := { d.pwr with fltIn := true } }
  match d.pwr.state with
  | .seqUp => (d.event (evBank 2)).stepFails 0xF 3 false
  | .on => ((d.event (evBank 2)).startDrain ans).goOn
  | _ => d

def execPwrFltIn (t : Nat) (media : Answers) (s : State) : Host.Outcome State Fault Refusal :=
  s.afterMedia t (fun d => if d.pwr.vaux then d.fltLow media else d)

def execFltPulseEnd (t : Nat) (s : State) : Host.Outcome State Fault Refusal :=
  s.after t (fun d => { d with pwr := { d.pwr with fltDrive := false } })

/-! ### Input power (R603, R611, R612) -/

def Dev.vinLoss (d : Dev) (ans : Answers) : Dev :=
  let d := { d with pwr := { d.pwr with vinGood := false } }
  (d.startDrain ans).goOn

def execVinGoodLoss (t : Nat) (media : Answers) (s : State) : Host.Outcome State Fault Refusal :=
  s.afterMedia t (fun d => if d.pwr.state = .on then d.vinLoss media else d)

/-- Not ON: a power-up in progress stops and does not count; the exit from FAILED is armed. -/
def Dev.vinFall (d : Dev) : Dev :=
  let d := { d with pwr := { d.pwr with vinGood := false } }
  match d.pwr.state with
  | .seqUp => ({ d with pwr := { d.pwr with step := 0 } }).powerDown
  | .failed => { d with pwr := { d.pwr with vinFell := true } }
  | _ => d

def execVinGoodFall (t : Nat) (s : State) : Host.Outcome State Fault Refusal :=
  s.after t (fun d => if d.pwr.state = .on then d else d.vinFall)

/-- The bank at V_FLOOR ends a drain at once. -/
def execBankFloor (t : Nat) (s : State) : Host.Outcome State Fault Refusal :=
  s.after t (fun d => if d.pwr.state = .draining then d.tearAll.powerDown else d)

/-! ### The rails fall (R610) -/

def Dev.fallDone (d : Dev) : Dev :=
  let n := d.pwr.downStep
  (d.onRails (stepRails n) (fun r => { r with pg := false, enAt := 0 })).downFrom n

def execRailFallDone (t : Nat) (s : State) : Host.Outcome State Fault Refusal :=
  s.after t (fun d => if d.pwr.state = .seqDown then d.fallDone else d)

/-- A rail still above 10 % after tFALL_TMO: counted, latched as NO_FALL; the sequence goes on. -/
def Dev.noFall (d : Dev) (r : Nat) : Dev :=
  let x := d.rail r
  if x.en = false ∧ x.enAt ≠ 0 ∧ x.enAt - 1 + tFallTmo ≤ d.aon then
    let d := (((d.onRail r (fun x => { x with enAt := 0 })).railPgFail r).latchFail r 5)
    if d.pwr.state = .seqDown ∧ (stepRails d.pwr.downStep).contains r = true then d.downFrom d.pwr.downStep else d
  else d

def execFallTimeout (t : Nat) (rail : Fin 12) (s : State) : Host.Outcome State Fault Refusal :=
  s.after t (fun d => if d.pwr.vaux then d.noFall rail.val else d)

/-! ### PWR_CTRL and MARGIN_CTRL, from the sideband alone (R603, R615, R743) -/

def Dev.restart (d : Dev) : Dev :=
  let p := { d.pwr with phyTries := [0, 0] }
  { d with pwr := if p.state = .failed then { p with state := .offWait, attempt := 0 } else p }

def execRestart (t : Nat) (p : Port) (s : State) : Host.Outcome State Fault Refusal :=
  s.after t (fun d => if p = .sideband ∧ d.pwr.vaux = true then d.restart else d)

def offMarginCtrl : Nat := 0x21050

/-- GO: the rail's step, or BUSY_IN_SERVICE. -/
def Dev.marginGo (d : Dev) : Dev :=
  if d.pwr.state = .on ∧ d.bench.draining = false then
    let d := d.setMargin d.pwr.marginRail.toNat (signed 4 d.pwr.marginStep.toNat)
    { d with pwr := { d.pwr with marginStatus := BitVec.ofNat 12 stSuccess } }
  else { d with pwr := { d.pwr with marginStatus := BitVec.ofNat 12 stBusyInService } }

/-- A write of MARGIN_CTRL: reserved values leave their field as it is. -/
def Dev.writeMarginCtrl (d : Dev) (v : Nat) : Dev :=
  let rail := fld v 0 4
  let step := fld v 4 4
  let stepOk := decide (-5 ≤ signed 4 step) && decide (signed 4 step ≤ 5)
  let d := if 12 ≤ rail ∨ stepOk = false then d.regReserved .sideband offMarginCtrl else d
  let d := { d with pwr := { d.pwr with
    marginRail := if rail < 12 then BitVec.ofNat 4 rail else d.pwr.marginRail,
    marginStep := if stepOk then BitVec.ofNat 4 step else d.pwr.marginStep } }
  if v.testBit 8 then d.marginGo else d

def execMarginGo (t : Nat) (p : Port) (value : BitVec 32) (s : State) : Host.Outcome State Fault Refusal :=
  s.after t (fun d =>
    if p = .sideband ∧ d.pwr.vaux = true ∧ value.toNat.testBit 8 = true then d.writeMarginCtrl value.toNat else d)

end Sys2Proof.Machine
end

