-- ==== Sys2Proof/Machine/Thermal.lean ====
section
/-!
DEFINITION. Temperatures: the thermal sample with its drift integrals and throttle (17 R638-R644, 02 R64-R68),
the always-on sample (02 R76), THERMTRIP# (17 R645-R647), and the events of time that the supervisor raises
for drift's sake (02 R64, R78, R81). Readings in 0.125 °C, rates in 10^-9 of 0.125 °C/s.
-/

namespace Sys2Proof.Machine

/-! ### Readings (R638, R641, 02 R65) -/

/-- Number of a die's sensor. -/
def dieSensor (lane pos : Nat) : Nat := 16 + 8 * lane + pos

/-- A scope whose die sensors cannot be read: in Detour, dead or not there. -/
def scopeDark : ScopeState → Bool
  | .detour => true
  | .dead => true
  | .absent => true
  | _ => false

/-- What the sample finds at a sensor. -/
def Dev.reading (d : Dev) (temps : List (Option Int)) (i : Nat) : Option Int :=
  if i < 16 then (temps[i]?).getD none
  else
    let l := d.lane1 ((i - 16) / 8)
    if scopeDark l.lstate || scopeDark (vget .absent l.dies (i % 8)) then none else (temps[i]?).getD none

/-- Highest of the readings, with the lowest sensor number that gives it. -/
def hottest : List (Nat × Option Int) → Option (Int × Nat)
  | [] => none
  | (i, some t) :: l =>
    match hottest l with
    | some (u, j) => if t < u then some (u, j) else some (t, i)
    | none => some (t, i)
  | (_, none) :: l => hottest l

def Dev.readings (d : Dev) (temps : List (Option Int)) : List (Nat × Option Int) :=
  (upTo 144).map (fun i => (i, d.reading temps i))

/-- The temperature that stands for a die that cannot be read (02 R65). -/
def substitute (l : List (Nat × Option Int)) : Int :=
  match hottest (l.drop 16) with
  | some (t, _) => t + degC 5
  | none => match hottest (l.take 16) with
    | some (t, _) => t + degC 5
    | none => degC 125

/-! ### Drift integrals (02 R64, R66) -/

/-- Elapsed time since the integrals were last advanced. -/
def Dev.driftDt (d : Dev) : Nat := d.aon - d.therm.aonAt

/-- What each die's integral gains; keys are lane * 8 + position. -/
def Dev.dieGains (d : Dev) (l : List (Nat × Option Int)) : List Nat :=
  let sub := substitute l
  (l.drop 16).map (fun p => driftGain d.driftDt (arrhenius d.therm.eaTable.toNat (p.2.getD sub)))

/-- The hottest die's gain at a position. -/
def posGain (gains : List Nat) (pos : Nat) : Nat :=
  (upTo 16).foldl (fun m lane => max m (lget gains (dieKey lane pos))) 0

/-- Positions at which E_p has crossed a multiple of n eq-h. -/
def crossed (n : Nat) (old new : List Nat) : List Nat :=
  (upTo 8).filter (fun p => decide (lget old p / eqh n < lget new p / eqh n))

/-- What follows an advance: the clamp (02 R68) and the deadline checks (06 R253). -/
def Dev.driftMoved (d : Dev) (old : List Nat) : Dev :=
  let new := d.therm.epos.toList
  let d := if (crossed 8192 old new).isEmpty then d else { d with zt := { d.zt with clampDue := true } }
  if d.zonesKnown then
    let d := d.catchUp
    if d.zt.deferred then d else d.checkZones (fun p => (crossed 16 old new).contains p)
  else d

/-- Advance the integrals by gains of dies and positions. -/
def Dev.addDrift (d : Dev) (die pos : Nat → Nat) : Dev :=
  { d with therm := { d.therm with
      hdie := d.therm.hdie.mapIdx (fun i h => h + die i), epos := d.therm.epos.mapIdx (fun p e => e + pos p),
      aonAt := d.aon } }

def Dev.sampleDrift (d : Dev) (l : List (Nat × Option Int)) : Dev :=
  let gains := d.dieGains l
  d.addDrift (lget gains) (fun p => if d.posUsed p then posGain gains p else 0)

/-! ### Sensors (R640, R643, R644, R742) -/

/-- 0.125 °C/s and 1 °C/s as rates. -/
def rateStep : Int := 1000000000
def rateDeg : Int := 8 * rateStep

/-- The latest sample at least 250 ms old. -/
def oldSample (now : Nat) (h : List (Nat × Int)) : Option (Nat × Int) :=
  h.find? (fun p => decide (p.1 + 250 * msNs ≤ now))

def rateOf (now : Nat) (h : List (Nat × Int)) (t : Int) : Int :=
  match oldSample now h with
  | some (at_, u) => (t - u) * (secNs * 1000000000 : Nat) / (now - at_ : Nat)
  | none => 0

/-- Samples younger than 250 ms, and the latest older one. -/
def keepHist (now : Nat) (h : List (Nat × Int)) : List (Nat × Int) :=
  h.takeWhile (fun p => decide (now < p.1 + 250 * msNs)) ++ (oldSample now h).toList

def coldNow (s : Sensor) (i : Nat) (t : Int) : Bool :=
  decide (16 ≤ i) && (if s.cold then decide (t < degC (-37)) else decide (t < degC (-40)))

def warnNow (s : Sensor) (i : Nat) (t : Int) : Bool :=
  decide (i < 16) && (if s.warn then decide (degC 103 ≤ t) else decide (degC 105 ≤ t))

/-- A sensor after a sample. -/
def sampleSensor (now i : Nat) (r : Option Int) (s : Sensor) : Sensor :=
  match r with
  | some t =>
    { temp := t, rate := rateOf now s.hist t, valid := true, was := true, cold := coldNow s i t,
      warn := warnNow s i t, hist := (now, t) :: keepHist now s.hist }
  | none => { s with valid := false, was := false }

/-- The sensor belongs to the device: a controller sensor, or a die at a position in use. -/
def Dev.sensorThere (d : Dev) (i : Nat) : Bool := decide (i < 16) || d.posUsed (i % 8)

/-- A sensor that was read before, or a device just reset, cannot be read (R742). -/
def Dev.unreadEvent (d : Dev) (i : Nat) (r : Option Int) : Dev :=
  if r.isNone && (d.sensor i).was && d.sensorThere i then
    d.event (if i < 16 then evSensor i 1 else evDie ((i - 16) / 8) (i % 8) 0)
  else d

def Dev.sampleSensors (d : Dev) (l : List (Nat × Option Int)) : Dev :=
  let d := d.each l (fun d p => d.unreadEvent p.1 p.2)
  { d with therm := { d.therm with
      sensors := d.therm.sensors.mapIdx (fun i s => sampleSensor d.aon i (((l[i]?).map Prod.snd).getD none) s) } }

/-- Highest rate of the sensors that were read. -/
def rateMaxOf (l : List Sensor) : Int :=
  match (l.filter Sensor.valid).map Sensor.rate with
  | [] => 0
  | x :: r => r.foldl max x

/-! ### The throttle (R642) -/

/-- 800 * 10^9 times the factor f. -/
def factorOf (kp kr : Nat) (readable : Nat) (tmax rate : Int) : Nat :=
  if readable < 8 ∨ degC 120 ≤ tmax then 0
  else
    let eT := max 0 (tmax - degC 110)
    let eR := max 0 (rate - 6 * rateDeg)
    (800 * rateStep - kp * eT * rateStep - kr * eR).toNat

def factorOne : Nat := 800 * 10 ^ 9

def Dev.throttle (d : Dev) : Dev :=
  let t := d.therm
  let readable := ((t.sensors.toList.take 16).filter Sensor.valid).length
  let f := factorOf t.kp.toNat t.kr.toNat readable t.tmax t.rateMax
  let prog := max t.progFloor.toNat (200 * f / factorOne)
  { d with therm := { t with
      budget0 := prog, budget1 := prog, budgetE := max t.engFloor.toNat (140 * f / factorOne),
      factor := 256 * f / factorOne } }

/-! ### A thermal sample (R638, R643) -/

/-- Samples come every 2 ms while a reading is near a limit or a rate is high. -/
def fastOf (l : List Sensor) : Bool :=
  (l.filter Sensor.valid).any (fun s =>
    decide (degC 97 ≤ s.temp) || decide (s.temp ≤ degC (-32)) ||
    decide (2 * s.rate < -(3 * rateDeg)) || decide (3 * rateDeg < 2 * s.rate))

def Dev.maxima (d : Dev) (l : List (Nat × Option Int)) : Dev :=
  let sensors := d.therm.sensors.toList
  let top := hottest l
  let rate := rateMaxOf sensors
  let d := if d.therm.rateMax < 3 * rateDeg ∧ 3 * rateDeg ≤ rate then d.event (evThermal 2) else d
  { d with therm := { d.therm with
      tmax := (top.map Prod.fst).getD 0,
      tmaxSrc := match top with
        | some (_, i) => BitVec.ofNat 8 i
        | none => 0xFF,
      rateMax := rate, fast := fastOf sensors, sampled := true } }

/-- THERMTRIP# is asserted: drain and shut down (R645, R646). -/
def Dev.trip (d : Dev) (ans : Answers) : Dev :=
  if d.therm.tripped then d
  else
    let d := { d with therm := { d.therm with tripped := true } }.milestone 5
    match d.pwr.state with
    | .on => (d.startDrain ans).goOn
    | .seqUp => ({ d with pwr := { d.pwr with step := 0 } }).powerDown
    | _ => d

def Dev.thermalSample (d : Dev) (temps : List (Option Int)) (ans : Answers) : Dev :=
  let l := d.readings temps
  let old := d.therm.epos.toList
  let d := (((d.sampleDrift l).sampleSensors l).maxima l).throttle
  let d := d.driftMoved old
  if (l.drop 16).any (fun p => decide (degC 125 ≤ p.2.getD 0)) then d.trip ans else d

def execThermalSample (t : Nat) (temps : List (Option Int)) (media : Answers) (s : State) :
    Host.Outcome State Fault Refusal :=
  s.afterOn t (fun d => if d.life.running then d.thermalSample temps media else d)

/-! ### The always-on sample (02 R76) and THERMTRIP# -/

/-- Sensor 0, else the highest of the other controller sensors. -/
def aonReading (temps : List (Option Int)) : Option Int :=
  match (temps[0]?).getD none with
  | some t => some t
  | none => (hottest ((upTo 16).map (fun i => (i, (temps[i]?).getD none)))).map Prod.fst

/-- The temperature at which the integrals advance. -/
def aonTemp (temps : List (Option Int)) : Int :=
  match aonReading temps with
  | some t => t + degC 5
  | none => degC 125

def Dev.aonDrift (d : Dev) (temps : List (Option Int)) : Dev :=
  let g := driftGain d.driftDt (arrhenius d.therm.eaTable.toNat (aonTemp temps))
  d.addDrift (fun _ => g) (fun _ => g)

/-- VAUX is up and main power is off. -/
def Dev.mainOff (d : Dev) : Bool := d.pwr.vaux && !d.life.running

def execAonSample (t : Nat) (temps : List (Option Int)) (s : State) : Host.Outcome State Fault Refusal :=
  s.after t (fun d => if d.mainOff then d.aonDrift temps else d)

/-- The comparator of a controller sensor. -/
def execThermtripComparator (t : Nat) (_sensor : Fin 16) (media : Answers) (s : State) :
    Host.Outcome State Fault Refusal :=
  s.afterMedia t (fun d => if d.pwr.vaux then d.trip media else d)

/-- The reading of R76 below 105 °C. -/
def cooled (temps : List (Option Int)) : Bool :=
  match aonReading temps with
  | some t => decide (t < degC 105)
  | none => false

def execThermtripRelease (t : Nat) (temps : List (Option Int)) (s : State) : Host.Outcome State Fault Refusal :=
  s.after t (fun d =>
    if d.mainOff && cooled temps then { d with therm := { d.therm with tripped := false } } else d)

/-! ### Hours, the wait for wall time, the AF table -/

/-- Each hour of running. DESIGN CHOICE: the hours are those at READY, counted from memory ready (log entry 134). -/
def execDriftCheckpoint (t : Nat) (s : State) : Host.Outcome State Fault Refusal :=
  s.after t (fun d =>
    if d.ready && d.due (d.therm.driftCkAt + hourNs) then
      { d.driftCheckpoint with therm := { d.driftCheckpoint.therm with driftCkAt := d.now } }
    else d)

/-- tTIME_WAIT after memory ready, with OFF_CASE 0b011 (02 R81). -/
def Dev.timeWait (d : Dev) : Dev :=
  match d.therm.readyAt with
  | some at_ =>
    if d.therm.offCase = 3 ∧ d.due (at_ + 60 * secNs) = true then d.chargeWorst.zoneStep else d
  | none => d

def execTimeWaitExpire (t : Nat) (s : State) : Host.Outcome State Fault Refusal := s.after t Dev.timeWait

/-- From the first sample on, the new activation energy (02 R64). -/
def execAfTableRebuilt (t : Nat) (s : State) : Host.Outcome State Fault Refusal :=
  s.after t (fun d => { d with therm := { d.therm with eaTable := d.therm.ea } })

end Sys2Proof.Machine
end

