-- ==== Sys2Proof/Machine/Registers.lean ====
section
/-!
DEFINITION. The register map (21 R731-R736): where each register lies, and what a read of it gives, by the field
tables of the chapters; counter pages (14 R538). No row of the opcode table reads a register, so no command
calls `readReg`; it says what a head or the sideband sees.
-/

namespace Sys2Proof.Machine

/-! ### Names and places (R733) -/

/-- A register; an argument is its index. -/
inductive Reg where
  | cap (i : Nat)
  | lifeCtrl | lifeStatus
  | pwrCfg | pwrCtrl | pwrStatus | marginCtrl | bankCfg | bankStatus | bankEnergy
  | railCnt (i : Nat)
  | tollCfg | tollStatus | thermCfg | thermStatus | thermSel | thermData
  | cabStatus | mileSel | mileData
  | secCfg | secCtrl | secStatus | keySel | keyData | rekeySel | rekeyData
  | driftCfg | driftStatus
  | ePos (i : Nat)
  | hDie (i : Nat)
  | benchStatus | cacheCfg | scratchCfg | maintCtrl | maintRange | cacheStatus
  | placeCfg | placeStatus
  | refreshClass (i : Nat)
  | ztSel | ztData
  | laneCtrl | laneCfg | spareStatus
  | laneStatus (i : Nat)
  | errInjCfg | flipSram | flipTag | flipLine | flipTarget | coreStatus
  | objCfg | objSel | objData
  | evtCfg | evSel | evtStatus | attnStatus | attnAck | timeNow | evData
  | dumpCfg | dumpBase | traceBase | dumpStatus | traceCfg | traceStatus | bwCfg
  | bwHead (i : Nat)
  | bwLane (i : Nat)
  | cpageCfg (i : Nat)
  | evSrcCfg (i : Nat)
  | counter (i : Nat)
  | admqSq | admqCq | admqCfg | admqCtrl
  | sqTail (q : Nat)
  | cqHead (q : Nat)
  | qpStatus (q : Nat)
  | streamCfg (s : Nat)
  | streamCtrl (s : Nat)
  | streamStatus (s : Nat)
  | dmaBase (c : Nat)
  | dmaCfg (c : Nat)
  | dmaCtrl (c : Nat)
  | dmaTail (c : Nat)
  | dmaStatus (c : Nat)
  | dmaHaltPos (c : Nat)
  | dmaReq
  deriving DecidableEq, Repr

/-- A run of registers: first offset, stride, number, footprint in bytes, and the names by index. -/
structure RegRow where
  start  : Nat
  stride : Nat
  count  : Nat
  size   : Nat
  name   : Nat → Reg

def reg1 (start size : Nat) (r : Reg) : RegRow := ⟨start, size, 1, size, fun _ => r⟩

def regsLife : List RegRow :=
  [⟨0x20000, 8, 4, 8, .cap⟩,
   reg1 0x21000 4 .lifeCtrl, reg1 0x21008 8 .lifeStatus,
   reg1 0x21040 4 .pwrCfg, reg1 0x21044 4 .pwrCtrl, reg1 0x21048 8 .pwrStatus, reg1 0x21050 4 .marginCtrl,
   reg1 0x21054 4 .bankCfg, reg1 0x21058 8 .bankStatus, reg1 0x21060 8 .bankEnergy,
   ⟨0x21100, 8, 12, 8, .railCnt⟩,
   reg1 0x21200 4 .tollCfg, reg1 0x21208 8 .tollStatus, reg1 0x21210 4 .thermCfg, reg1 0x21218 8 .thermStatus,
   reg1 0x21220 4 .thermSel, reg1 0x21228 8 .thermData,
   reg1 0x21300 8 .cabStatus, reg1 0x21308 4 .mileSel, reg1 0x21310 8 .mileData]

def regsSec : List RegRow :=
  [reg1 0x22000 4 .secCfg, reg1 0x22004 4 .secCtrl, reg1 0x22008 4 .secStatus, reg1 0x2200C 4 .keySel,
   reg1 0x22010 16 .keyData, reg1 0x22020 4 .rekeySel, reg1 0x22040 32 .rekeyData,
   reg1 0x23000 4 .driftCfg, reg1 0x23004 4 .driftStatus, ⟨0x23008, 8, 8, 8, .ePos⟩, ⟨0x23048, 8, 128, 8, .hDie⟩]

def regsMedia : List RegRow :=
  [reg1 0x24000 8 .benchStatus, reg1 0x24008 4 .cacheCfg, reg1 0x2400C 4 .scratchCfg, reg1 0x24010 4 .maintCtrl,
   reg1 0x24020 16 .maintRange, reg1 0x24030 8 .cacheStatus,
   reg1 0x24100 8 .placeCfg, reg1 0x24108 8 .placeStatus, ⟨0x24110, 4, 7, 4, .refreshClass⟩,
   reg1 0x2412C 4 .ztSel, reg1 0x24130 16 .ztData,
   reg1 0x24200 4 .laneCtrl, reg1 0x24204 4 .laneCfg, reg1 0x24208 8 .spareStatus, ⟨0x24210, 8, 16, 8, .laneStatus⟩,
   reg1 0x24400 4 .errInjCfg, reg1 0x24404 4 .flipSram, reg1 0x24408 4 .flipTag, reg1 0x2440C 4 .flipLine,
   reg1 0x24410 8 .flipTarget, reg1 0x24418 4 .coreStatus,
   reg1 0x24500 4 .objCfg, reg1 0x24504 4 .objSel, reg1 0x24510 16 .objData]

def regsEvent : List RegRow :=
  [reg1 0x25000 4 .evtCfg, reg1 0x25004 4 .evSel, reg1 0x25008 8 .evtStatus, reg1 0x25010 8 .attnStatus,
   reg1 0x25018 4 .attnAck, reg1 0x25020 16 .timeNow, reg1 0x25040 32 .evData,
   reg1 0x25100 4 .dumpCfg, reg1 0x25108 8 .dumpBase, reg1 0x25110 8 .traceBase, reg1 0x25118 8 .dumpStatus,
   reg1 0x25120 4 .traceCfg, reg1 0x25128 8 .traceStatus, reg1 0x25130 4 .bwCfg,
   ⟨0x25200, 16, 2, 16, .bwHead⟩, ⟨0x25220, 16, 16, 16, .bwLane⟩, ⟨0x25400, 4, 16, 4, .cpageCfg⟩,
   ⟨0x28000, 4, 1024, 4, .evSrcCfg⟩, ⟨0x30000, 8, 4096, 8, .counter⟩]

def regsQueue : List RegRow :=
  [reg1 0x40000 8 .admqSq, reg1 0x40008 8 .admqCq, reg1 0x40010 4 .admqCfg, reg1 0x40014 4 .admqCtrl,
   ⟨0x41000, 8, 64, 4, .sqTail⟩, ⟨0x41004, 8, 64, 4, .cqHead⟩, ⟨0x42000, 4, 64, 4, .qpStatus⟩,
   ⟨0x50000, 16, 64, 4, .streamCfg⟩, ⟨0x50004, 16, 64, 4, .streamCtrl⟩, ⟨0x50008, 16, 64, 8, .streamStatus⟩,
   ⟨0x51000, 64, 32, 8, .dmaBase⟩, ⟨0x51008, 64, 32, 4, .dmaCfg⟩, ⟨0x5100C, 64, 32, 4, .dmaCtrl⟩,
   ⟨0x51010, 64, 32, 4, .dmaTail⟩, ⟨0x51018, 64, 32, 8, .dmaStatus⟩, ⟨0x51020, 64, 32, 8, .dmaHaltPos⟩,
   reg1 0x51800 4 .dmaReq]

def regRows : List RegRow := regsLife ++ regsSec ++ regsMedia ++ regsEvent ++ regsQueue

def RegRow.holds (r : RegRow) (off : Nat) : Bool :=
  decide (r.start ≤ off) && decide (off < r.start + r.stride * r.count) &&
  decide ((off - r.start) % r.stride < r.size)

/-- The register at an offset: its name, footprint, and the byte within it. -/
def regAt (off : Nat) : Option (Reg × Nat × Nat) :=
  (regRows.find? (fun r => r.holds off)).map (fun r =>
    (r.name ((off - r.start) / r.stride), r.size, (off - r.start) % r.stride))

/-! ### Field values -/

/-- A signed field. -/
def sfld (w : Nat) (x : Int) : Nat × Nat := (w, twos w x)

def sat (w n : Nat) : Nat := min n (2 ^ w - 1)

def Dev.lifeStatus (d : Dev) : Nat :=
  let l := d.life
  pack [(4, stageNum l.stage), (4, l.halt), (1, bool01 l.warm),
    (2, match l.lastStop with
      | .orderly => 0
      | .drained => 1
      | .unclean => 2),
    (1, bool01 l.bistRan), (4, 0), (16, sat 16 l.readyMs), (4, d.sec.runSlot.toNat), (4, 0),
    (3, lget l.bistRes 0), (3, lget l.bistRes 1), (3, lget l.bistRes 2), (3, lget l.bistRes 3)]

def pwrStateNum : PwrState → Nat
  | .off => 0
  | .seqUp => 1
  | .on => 2
  | .draining => 3
  | .seqDown => 4
  | .offWait => 5
  | .failed => 6

/-- One bit per rail. -/
def railBits (f : Nat → Bool) : Nat := (upTo 12).foldl (fun n i => n + bool01 (f i) * 2 ^ i) 0

/-- OFF_WAIT reads OFF once tOFF_MIN has passed. -/
def Dev.pwrStateNow (d : Dev) : PwrState :=
  if d.pwr.state = .offWait ∧ d.pwr.offAt + d.pwr.offMinNs ≤ d.aon then .off else d.pwr.state

/-- PWR_STATUS (16 R627). The device's own pull on PWR_FLT# reads low too. -/
def Dev.pwrStatus (d : Dev) : Nat :=
  let p := d.pwr
  pack [(3, pwrStateNum d.pwrStateNow), (3, p.attempt), (1, bool01 p.vinGood), (1, bool01 (p.fltIn || p.fltDrive)),
    (4, p.failRail.toNat), (3, p.failKind.toNat), (1, 0), (12, railBits (fun i => (d.rail i).en)),
    (12, railBits (fun i => (d.rail i).pg))]

def Dev.railCnt (d : Dev) (i : Nat) : Nat :=
  let r := d.rail i
  pack [(16, r.pgFail.toNat), (16, r.chatter.toNat), (16, r.timeout.toNat), sfld 4 r.step]

/-- A bank test is under way, to the release of TEST_CAP. -/
def testing : BankTest → Bool
  | .holding => true
  | .loaded => true
  | .recharging => true
  | _ => false

def Dev.bankStatus (d : Dev) : Nat :=
  let p := d.pwr
  pack [(16, p.bankMv.toNat), (16, sat 16 (p.capNf.getD 0 / 1000)), (10, sat 10 (p.esrUohm.getD 0 / 1000)),
    (3, p.result.toNat), (1, bool01 p.charged), (1, bool01 p.chgFault), (1, bool01 (testing p.test))]

/-- BANK_ENERGY: TEST_AGE in seconds of the always-on domain. -/
def Dev.bankEnergy (d : Dev) : Nat :=
  pack [(21, d.pwr.energy.getD 0), (11, 0),
    (32, match d.pwr.testedAt with
      | some a => sat 32 ((d.aon - a) / secNs)
      | none => 0xFFFFFFFF)]

def Dev.tollStatus (d : Dev) : Nat :=
  let t := d.therm
  pack [(8, t.budget0), (8, t.budget1), (8, d.tokensHeld 0), (8, d.tokensHeld 1), (8, t.budgetE),
    (8, d.eng.held), (9, t.factor), (1, bool01 d.bench.draining)]

/-- A rate in units of 0.125 °C/s. -/
def rateUnits (r : Int) : Int := r / rateStep

def Dev.thermStatus (d : Dev) : Nat :=
  let t := d.therm
  pack [sfld 16 t.tmax, (8, t.tmaxSrc.toNat), sfld 16 (rateUnits t.rateMax), (1, bool01 t.fast), (1, bool01 t.tripped)]

def Dev.thermData (d : Dev) : Nat :=
  let s := d.sensor d.therm.querySel.toNat
  pack [sfld 16 s.temp, sfld 16 (rateUnits s.rate), (1, bool01 s.valid), (1, bool01 s.cold)]

def Dev.cabStatus (d : Dev) : Nat :=
  pack [(10, d.cab.repairFree), (6, 0),
    (3, (upTo 3).foldl (fun n p => n + bool01 (d.partitionLocked p) * 2 ^ p) 0), (13, 0),
    (16, d.cab.invalid.toNat), (16, d.cab.equalSeq.toNat)]

def Dev.mileData (d : Dev) : Nat :=
  let n := d.mile d.cab.mileSel.toNat
  pack [(32, n), (1, bool01 (decide (n = milestoneMax)))]

def Dev.secStatus (d : Dev) : Nat :=
  let s := d.sec
  pack [(3, s.sessA.toNat), (1, 0), (3, s.sessB.toNat), (1, 0), (3, s.sessS.toNat), (5, 0),
    (1, bool01 s.kwk.isSome), (1, bool01 s.zeroised), (1, bool01 s.testUnlocked)]

def kstateNum : KState → Nat
  | .free => 0
  | .loaded => 1
  | .absent => 2
  | .closing => 3
  | .retired => 4

def Dev.keyData (d : Dev) : Nat :=
  let k := d.sec.keySel.toNat
  if k = 0 then 0
  else pack [(3, kstateNum (d.slot k).state), (5, 0), (40, d.keyLines k), (16, 0), (64, (d.slot k).check.toNat)]

/-- REKEY_QUERY_DATA (15 R593): paused by a lockdown or a key that is not loaded. -/
def Dev.rekeyData (d : Dev) : Nat :=
  match d.region d.sec.rekeySel.toNat with
  | some r =>
    match r.rekey with
    | some q =>
      let paused := r.locked || !d.keyLoaded q.oldKey || !d.keyLoaded q.newKey
      pack [(1, 1), (1, bool01 paused), (6, 0), (7, q.oldKey), (1, 0), (7, q.newKey), (41, 0), (64, q.boundary),
        (64, q.limit)]
    | none => 0
  | none => 0

def Dev.benchStatus (d : Dev) : Nat :=
  let b := d.bench
  let st := if b.draining then 3 else if b.exposed then 2 else if d.overCap then 1 else 0
  pack [(18, d.occupancy), (6, 0), (18, b.cap), (6, 0), (3, st), (1, bool01 (d.creditHold .a || d.creditHold .b))]

def Dev.cacheStatus (d : Dev) : Nat :=
  let c := d.cache
  pack [(1, bool01 c.maint.isSome), (1, bool01 c.refused), (1, bool01 c.abandoned), (2, c.steps.toNat),
    (1, bool01 c.conv.isSome), (2, 0), (16, c.retired.toNat), (8, 0), (32, sat 32 c.skipped)]

def Dev.placeCfg (d : Dev) : Nat :=
  pack [(16, d.wearDelta.toNat), (4, d.moveMax.toNat), (6, d.moveMaxOd.toNat), (6, 0), (6, d.earlyS.toNat),
    (4, d.earlyL.toNat), (6, 0), (12, d.pclrTarget.toNat)]

/-- PLACE_STATUS (06 R267). -/
def Dev.placeStatus (d : Dev) : Nat :=
  pack [(22, d.countState psClear), (22, d.freeDirtyCount), (6, sat 6 d.zt.runs.length), (14, sat 14 d.zt.overdue.length)]

def Dev.ztData (d : Dev) : Nat :=
  let e := d.zte d.ztSel.toNat
  pack [(64, e), (64, if zMapped e then d.wearRec (zPz e) else 0)]

def Dev.laneStatus (d : Dev) (i : Nat) : Nat :=
  let l := d.lane1 i
  pack [(3, scopeNum l.lstate), (5, l.cause), (24, diesNum l), (21, l.cursor), (3, l.testResult)]

def Dev.laneCtrl (d : Dev) : Nat :=
  let l := d.lane
  pack [(4, l.ctrlLane.toNat), (3, l.ctrlDie.toNat), (1, bool01 l.ctrlScope), (2, l.ctrlOp.toNat), (6, 0),
    (12, l.lastStatus.toNat)]

/-- OBJ_QUERY_DATA (12 R463). -/
def Dev.objData (d : Dev) : Nat :=
  let id := d.obj.sel.toNat
  match d.region id with
  | some r =>
    match r.typ with
    | .index => pack [(64, tget 0 d.obj.counts id), (62, 0), (2, 1)]
    | .heap =>
      let zones := (upTo r.zones).map (d.heapZone id)
      pack [(64, zones.foldl (fun n z => n + z.validUnits) 0),
        (21, (zones.filter (fun z => decide (z.hstate = .empty))).length),
        (21, (zones.filter HeapZone.noScan).length), (1, bool01 d.obj.recount), (19, 0), (2, 2)]
    | _ => 0
  | none => 0

def srcStateNum : CoalState → Nat
  | .quiet => 0
  | .coalescing => 1
  | .storm => 2

def Dev.evData (d : Dev) : Nat :=
  let s := d.ev.src d.ev.srcSel.toNat
  pack [(2, srcStateNum s.state), (1, bool01 s.asserted), (29, 0), (32, sat 32 s.count), (64, s.first), (64, s.last)]

def Dev.evSrcCfg (d : Dev) (n : Nat) : Nat :=
  match srcInfo n with
  | some i =>
    pack [(3, d.ev.levelOf n), (1, bool01 i.isLevel), (1, bool01 i.fixed), (3, 0), (8, d.ev.threshOf n)]
  | none => 0

/-- ATTN_STATUS of a head or the sideband (14 R544). -/
def Dev.attnStatus (d : Dev) (p : Port) : Nat :=
  let e := d.ev
  let a := e.attn p
  pack [(3, e.attnLevel p), (1, bool01 e.toggle), (3, e.cond), (1, 0), (7, a.hold.toNat / 2), (3, e.lostLevel), (14, 0),
    (32, a.ackSeq.toNat)]

def Dev.dumpCfg (d : Dev) : Nat :=
  pack [(1, bool01 d.ev.dumpEn), (1, 0), (1, bool01 d.ev.dumpHead), (5, 0), (8, d.ev.slotsM1.toNat),
    (16, d.ev.periodMs.toNat)]

def Dev.dumpStatus (d : Dev) : Nat :=
  pack [(32, (d.ev.lastDone d.now).toNat), (8, d.ev.nextSlot), (1, bool01 d.ev.dumpErr), (23, sat 23 d.ev.dumpSkipped)]

def Dev.traceCfg (d : Dev) : Nat :=
  let e := d.ev
  pack [(1, bool01 e.trEn), (1, bool01 e.trHead), (3, e.trKinds.toNat), (5, e.trRate.toNat), (6, 0), (12, e.trDepth.toNat)]

def Dev.traceStatus (d : Dev) : Nat :=
  pack [(7, d.ev.traces.length), (1, bool01 d.ev.trErr), (24, 0), (32, sat 32 d.ev.trMissed)]

/-- BW_HEAD0, BW_HEAD1, then BW_LANE0 to BW_LANE15 (14 R549). -/
def Dev.bwData (d : Dev) (i : Nat) : Nat :=
  let x := (d.ev.bwLast[i]?).getD (0, 0)
  pack [(48, x.1), (48, x.2), (32, d.ev.bwNo.toNat)]

def qstateNum : QState → Nat
  | .absent => 0
  | .active => 1
  | .error => 2
  | .deleting => 3

def Dev.qpStatus (d : Dev) (qid : Nat) : Nat :=
  let p := d.pair qid
  pack [(2, qstateNum p.state), (6, 0), (8, p.errCause), (12, p.sqHead)]

def Dev.streamStatus (d : Dev) (s : Nat) : Nat :=
  let x := d.stream s
  pack [(15, x.write % 32768), (1, 0), (15, x.read % 32768), (1, 0), (15, x.mark % 32768), (1, 0), (1, bool01 x.pending),
    (1, bool01 (!x.slots.isEmpty)), (1, bool01 x.err)]

def Dev.dmaStatus (d : Dev) (c : Nat) : Nat :=
  let x := d.chan c
  pack [(2, x.state), (6, 0), (4, x.cause), (4, 0), (12, x.ringHead), (4, 0), (32, x.done.toNat)]

/-! ### A register's value -/

/-- The head whose registers a port reads at 0x40000 and above, and at CPAGE_CFG. -/
def portHead : Port → Head
  | .head h => h
  | .sideband => .a

/-- Status and query registers. -/
def Dev.statusValue (d : Dev) (p : Port) : Reg → Nat
  | .cap i => d.cap i
  | .lifeStatus => d.lifeStatus
  | .pwrStatus => d.pwrStatus
  | .bankStatus => d.bankStatus
  | .bankEnergy => d.bankEnergy
  | .railCnt i => d.railCnt i
  | .tollStatus => d.tollStatus
  | .thermStatus => d.thermStatus
  | .thermData => d.thermData
  | .cabStatus => d.cabStatus
  | .mileData => d.mileData
  | .secStatus => d.secStatus
  | .keyData => d.keyData
  | .rekeyData => d.rekeyData
  | .driftStatus => pack [(3, d.therm.offCase.toNat), (5, 0), (24, d.therm.offCharge)]
  | .ePos i => d.ep i % 2 ^ 64
  | .hDie i => vget 0 d.therm.hdie i % 2 ^ 64
  | .benchStatus => d.benchStatus
  | .cacheStatus => d.cacheStatus
  | .placeStatus => d.placeStatus
  | .ztData => d.ztData
  | .spareStatus => pack [(21, sat 21 d.spare), (21, sat 21 d.deficit), (21, sat 21 d.resident)]
  | .laneStatus i => d.laneStatus i
  | .coreStatus => pack [(4, d.sec.halted.toNat), (4, d.sec.held.toNat)]
  | .objData => d.objData
  | .evtStatus => pack [(32, d.ev.headSeq.toNat), (32, sat 32 d.ev.lostRecs)]
  | .attnStatus => d.attnStatus p
  | .timeNow => pack [(64, d.now), sfld 64 d.ev.wallOffset]
  | .evData => d.evData
  | .dumpStatus => d.dumpStatus
  | .traceStatus => d.traceStatus
  | .bwHead i => d.bwData i
  | .bwLane i => d.bwData (2 + i)
  | .counter i => (tget (0 : BitVec 64) d.ev.counters i).toNat
  | .qpStatus q => d.qpStatus (qidOf (portHead p) q)
  | .streamStatus s => d.streamStatus s
  | .dmaStatus c => d.dmaStatus c
  | .dmaHaltPos c => pack [(32, (d.chan c).haltSrc.toNat), (32, (d.chan c).haltDone.toNat)]
  | _ => 0

/-- Configuration registers; a WO field, and a head's PWR_CTRL and MARGIN_CTRL, read 0. -/
def Dev.configValue (d : Dev) (p : Port) : Reg → Nat
  | .lifeCtrl => pack [(2, 0), (1, bool01 d.life.bistNext)]
  | .pwrCfg => pack [(3, d.pwr.retry.toNat), (5, 0), (8, d.pwr.offMin.toNat), (15, 0), (1, bool01 d.pwr.pwrLock)]
  | .marginCtrl =>
    if p = .sideband then
      pack [(4, d.pwr.marginRail.toNat), (4, d.pwr.marginStep.toNat), (8, 0), (12, d.pwr.marginStatus.toNat)]
    else 0
  | .bankCfg => d.pwr.iChg.toNat
  | .tollCfg => pack [(8, d.therm.bgShare.toNat), (8, d.therm.progFloor.toNat), (8, d.therm.engFloor.toNat)]
  | .thermCfg => pack [(7, d.therm.kp.toNat), (1, 0), (7, d.therm.kr.toNat)]
  | .thermSel => d.therm.querySel.toNat
  | .mileSel => d.cab.mileSel.toNat
  | .secCfg => pack [(1, bool01 d.sec.plaintext), (30, 0), (1, bool01 d.sec.secLock)]
  | .keySel => d.sec.keySel.toNat
  | .rekeySel => d.sec.rekeySel.toNat
  | .driftCfg => pack [(8, d.therm.ea.toNat), (8, d.therm.toff.toNat), (15, 0), (1, bool01 d.therm.driftLock)]
  | .cacheCfg =>
    pack [(8, d.cache.highWm.toNat), (8, d.cache.pfDepth.toNat), (1, bool01 d.cache.gather), (7, 0),
      (8, d.cache.ageLimit.toNat)]
  | .scratchCfg => d.cache.cfgSteps.toNat
  | .maintCtrl => d.cache.mOp.toNat
  | .maintRange =>
    pack [(10, d.cache.mRegion.toNat), (6, 0), (37, d.cache.mFirst.toNat), (11, 0), (37, d.cache.mCount.toNat)]
  | .placeCfg => d.placeCfg
  | .refreshClass i => (vget 0 d.refresh i).toNat
  | .ztSel => d.ztSel.toNat
  | .laneCtrl => d.laneCtrl
  | .laneCfg =>
    pack [(3, d.lane.mergeGuard.toNat), (1, bool01 d.lane.autoRepair), (4, d.lane.restoreDepth.toNat)]
  | .errInjCfg => pack [(1, bool01 d.sec.injAllow), (30, 0), (1, bool01 d.sec.injLock)]
  | .flipSram => d.sec.flipSram.toNat
  | .flipTag => d.sec.flipTag.toNat
  | .flipLine => d.sec.flipLine.toNat
  | .flipTarget => d.sec.flipTarget.toNat
  | .objCfg =>
    pack [(8, d.obj.collectLow.toNat), (8, d.obj.collectHigh.toNat), (7, d.obj.collectMax.toNat), (1, 0),
      (8, d.obj.sealTime.toNat)]
  | .objSel => d.obj.sel.toNat
  | .evtCfg => d.ev.coalMs.toNat
  | .evSel => d.ev.srcSel.toNat
  | .dumpCfg => d.dumpCfg
  | .dumpBase => d.ev.dumpBase.toNat
  | .traceBase => d.ev.trBase.toNat
  | .traceCfg => d.traceCfg
  | .bwCfg => d.ev.windowUs.toNat
  | .cpageCfg i => (tget (0 : BitVec 32) d.ev.cpages (cpageKey (portHead p) i)).toNat
  | .evSrcCfg n => d.evSrcCfg n
  | .admqSq => (d.adm (portHead p)).sqBase.toNat
  | .admqCq => (d.adm (portHead p)).cqBase.toNat
  | .admqCfg => (d.adm (portHead p)).cfg.toNat
  | .admqCtrl => pack [(1, bool01 (d.adm (portHead p)).en), (1, bool01 (d.adm (portHead p)).rdy)]
  | .streamCfg s => pack [(1, bool01 (d.stream s).en), (1, bool01 (d.stream s).mode)]
  | .dmaBase c => (d.chan c).base.toNat
  | .dmaCfg c => pack [(12, (d.chan c).depth - 1), (1, bool01 (d.chan c).head)]
  | .dmaCtrl c => bool01 (d.chan c).en
  | _ => 0

/-- A register is one of the two: the other value is 0. -/
def Dev.regValue (d : Dev) (p : Port) (r : Reg) : Nat := d.statusValue p r + d.configValue p r

/-! ### Reading (R732, R734, 01 R12, R19) -/

/-- Registers that a port reaches: the sideband has 0x20000 to 0x37FFF, less CPAGE_CFG. -/
def reaches (p : Port) (off : Nat) : Bool :=
  match p with
  | .head _ => true
  | .sideband => decide (0x20000 ≤ off) && decide (off < 0x38000) && !(decide (0x25400 ≤ off) && decide (off < 0x25440))

def allOnes32 : Nat := 2 ^ 32 - 1

/-- The sample that a port holds of a wide register. -/
def Dev.sampleOf (d : Dev) (p : Port) (start : Nat) : Option Nat :=
  (d.samples.find? (fun x => decide (x.1 = p) && x.2.1 == start)).map (fun x => x.2.2)

/-- A read of the lowest 8 B of a wide register samples it all. -/
def Dev.takeSample (d : Dev) (p : Port) (start v : Nat) : Dev :=
  { d with samples := (p, start, v) :: d.samples.filter (fun x => !(decide (x.1 = p) && x.2.1 == start)) }

/-- One 4 B unit: all ones where no register lies. -/
def Dev.read4 (d : Dev) (p : Port) (off : Nat) : Dev × Nat :=
  match regAt off with
  | none => (d, allOnes32)
  | some (r, size, at_) =>
    let v := d.regValue p r
    if size ≤ 8 then (d, fld v (8 * at_) 32)
    else if at_ < 8 then (d.takeSample p (off - at_) v, fld v (8 * at_) 32)
    else (d, fld ((d.sampleOf p (off - at_)).getD v) (8 * at_) 32)

/-- A read of 4 B or 8 B: none where the port reaches nothing, the access is misaligned, or no register lies. -/
def Dev.readReg (d : Dev) (p : Port) (off : Nat) (wide : Bool) : Dev × Option Nat :=
  let n := if wide then 8 else 4
  if reaches p off = false ∨ off % n ≠ 0 then (d, none)
  else if wide then
    if (regAt off).isNone && (regAt (off + 4)).isNone then (d, none)
    else
      let (d, lo) := d.read4 p off
      let (d, hi) := d.read4 p (off + 4)
      (d, some (lo + 2 ^ 32 * hi))
  else if (regAt off).isNone then (d, none)
  else
    let (d, lo) := d.read4 p off
    (d, some lo)

/-! ### Counter pages (14 R538) -/

/-- An 8 B read of a head's page. -/
def Dev.pageRead (d : Dev) (h : Head) (page off : Nat) : Nat :=
  let cfg := (tget (0 : BitVec 32) d.ev.cpages (cpageKey h page)).toNat
  let id := fld cfg 0 10
  let owned := match d.region id with
    | some r => ownsRegion h r
    | none => false
  if cfg.testBit 12 = false then 0
  else if off = 0 then d.now
  else if 64 ≤ off ∧ off < 112 then
    if cfg.testBit 10 && owned then (tget (0 : BitVec 64) d.ev.regionCnt (id * 6 + (off - 64) / 8)).toNat else 0
  else if 4096 ≤ off ∧ off < 36864 then
    if cfg.testBit 11 then (tget (0 : BitVec 64) d.ev.counters ((off - 4096) / 8)).toNat else 0
  else 0

end Sys2Proof.Machine
end

