-- ==== Sys2Proof/Machine/RegWrite.lean ====
section
/-!
DEFINITION. REGISTER_WRITE (21 R727-R734): a write of 4 B or 8 B by offset. Fields take their values, a reserved
value leaves its field and logs one event, locked fields stay, RW1C bits clear. The write of a register that has
a row of its own does what that row does, but for the actions whose rows carry further inputs (SHUTDOWN, WARM,
TEST_UNLOCK, DUMP_CFG.NOW), which their rows alone start.
-/

namespace Sys2Proof.Machine

/-! ### Reserved values and locks -/

/-- A field of w bits from bit lo when its value is valid, else the old value. -/
def keepFld {w : Nat} (v lo : Nat) (ok : Bool) (old : BitVec w) : BitVec w :=
  if ok then BitVec.ofNat w (fld v lo w) else old

/-- One event when any field was given a reserved value. -/
def Dev.noteReserved (d : Dev) (p : Port) (off : Nat) (ok : Bool) : Dev := if ok then d else d.regReserved p off

def inRange (lo hi n : Nat) : Bool := decide (lo ≤ n) && decide (n ≤ hi)

/-! ### Power, drift, thermal (02 R84, R86; 16 R625, R630; 17 R649, R651, R653) -/

def Dev.writePwrCfg (d : Dev) (p : Port) (off v : Nat) : Dev :=
  if d.pwr.pwrLock then d.regReserved p off
  else
    let ok := inRange 1 255 (fld v 8 8)
    ({ d with pwr := { d.pwr with
      retry := BitVec.ofNat 3 v, offMin := keepFld v 8 ok d.pwr.offMin,
      pwrLock := v.testBit 31 } }).noteReserved p off ok

def Dev.writeBankCfg (d : Dev) (p : Port) (off v : Nat) : Dev :=
  let ok := inRange 1 10 (fld v 0 4)
  let d := ({ d with pwr := { d.pwr with iChg := keepFld v 0 ok d.pwr.iChg } }).noteReserved p off ok
  if v.testBit 4 && d.portOn p then d.wantTest else d

def Dev.writeDriftCfg (d : Dev) (p : Port) (off v : Nat) : Dev :=
  if d.therm.driftLock then d.regReserved p off
  else
    let okE := inRange 50 150 (fld v 0 8)
    let okT := decide (-40 ≤ signed 8 (fld v 8 8)) && decide (signed 8 (fld v 8 8) ≤ 125)
    ({ d with therm := { d.therm with
      ea := keepFld v 0 okE d.therm.ea, toff := keepFld v 8 okT d.therm.toff, driftLock := v.testBit 31 } }).noteReserved
      p off (okE && okT)

def Dev.writeTollCfg (d : Dev) (p : Port) (off v : Nat) : Dev :=
  let a := inRange 0 50 (fld v 0 8)
  let b := inRange 1 100 (fld v 8 8)
  let c := inRange 1 140 (fld v 16 8)
  ({ d with therm := { d.therm with
    bgShare := keepFld v 0 a d.therm.bgShare, progFloor := keepFld v 8 b d.therm.progFloor,
    engFloor := keepFld v 16 c d.therm.engFloor } }).noteReserved p off (a && b && c)

def Dev.writeThermCfg (d : Dev) (p : Port) (off v : Nat) : Dev :=
  let a := inRange 1 100 (fld v 0 7)
  let b := inRange 0 100 (fld v 8 7)
  ({ d with therm := { d.therm with kp := keepFld v 0 a d.therm.kp, kr := keepFld v 8 b d.therm.kr } }).noteReserved
    p off (a && b)

def Dev.writeThermSel (d : Dev) (p : Port) (off v : Nat) : Dev :=
  let a := inRange 0 143 (fld v 0 8)
  ({ d with therm := { d.therm with querySel := keepFld v 0 a d.therm.querySel } }).noteReserved p off a

/-! ### Cache and placement (05 R209, R211, R213; 06 R265, R266; 07 R303) -/

def Dev.writeCacheCfg (d : Dev) (p : Port) (off v : Nat) : Dev :=
  let a := inRange 1 100 (fld v 0 8)
  let b := inRange 0 32 (fld v 8 8)
  ({ d with cache := { d.cache with
    highWm := keepFld v 0 a d.cache.highWm, pfDepth := keepFld v 8 b d.cache.pfDepth, gather := v.testBit 16,
    ageLimit := BitVec.ofNat 8 (fld v 24 8) } }).noteReserved p off (a && b)

/-- MAINT_RANGE, by 8 B unit. -/
def Dev.writeMaintRange (d : Dev) (unit v : Nat) : Dev :=
  if unit = 0 then
    { d with cache := { d.cache with mRegion := BitVec.ofNat 10 v, mFirst := BitVec.ofNat 37 (v / 2 ^ 16) } }
  else { d with cache := { d.cache with mCount := BitVec.ofNat 37 v } }

def Dev.clearCacheStatus (d : Dev) (v : Nat) : Dev :=
  { d with cache := { d.cache with
      refused := d.cache.refused && !v.testBit 1, abandoned := d.cache.abandoned && !v.testBit 2 } }

def Dev.writePlaceCfg (d : Dev) (p : Port) (off v : Nat) : Dev :=
  let a := inRange 1 65535 (fld v 0 16)
  let b := inRange 1 15 (fld v 16 4)
  let moveMax := keepFld v 16 b d.moveMax
  let c := inRange moveMax.toNat 63 (fld v 20 6)
  let e := inRange 1 32 (fld v 32 6)
  let f := inRange 1 8 (fld v 38 4)
  (({ d with
    wearDelta := keepFld v 0 a d.wearDelta, moveMax := moveMax, moveMaxOd := keepFld v 20 c d.moveMaxOd,
    earlyS := keepFld v 32 e d.earlyS, earlyL := keepFld v 38 f d.earlyL,
    pclrTarget := BitVec.ofNat 12 (v / 2 ^ 48) }).noteReserved p off (a && b && c && e && f)).coldTrigger

def Dev.writeRefreshClass (d : Dev) (p : Port) (off i v : Nat) : Dev :=
  let a := inRange 1 2048 (fld v 0 12)
  ({ d with refresh := vset d.refresh i (keepFld v 0 a (vget 0 d.refresh i)) }).noteReserved p off a

def Dev.writeLaneCfg (d : Dev) (p : Port) (off v : Nat) : Dev :=
  let a := inRange 0 4 (fld v 0 3)
  let b := inRange 1 8 (fld v 4 4)
  ({ d with lane := { d.lane with
    mergeGuard := keepFld v 0 a d.lane.mergeGuard, autoRepair := v.testBit 3,
    restoreDepth := keepFld v 4 b d.lane.restoreDepth } }).noteReserved p off (a && b)

/-! ### Fault injection (08 R318, R322-R327) -/

/-- A register word with its ARM bit cleared. -/
def disarm (w : BitVec 32) (arm : Nat) : BitVec 32 := BitVec.ofNat 32 (setFld w.toNat arm 1 0)

def Dev.writeErrInj (d : Dev) (p : Port) (off v : Nat) : Dev :=
  if d.sec.injLock then d.regReserved p off
  else
    let d := { d with sec := { d.sec with injAllow := v.testBit 0, injLock := v.testBit 31 } }
    if v.testBit 0 then d
    else { d with sec := { d.sec with
        flipSram := disarm d.sec.flipSram 26, flipTag := disarm d.sec.flipTag 7, flipLine := disarm d.sec.flipLine 20 } }

/-- HIT stays unless the write clears it. -/
def hitAfter (old : BitVec 32) (bit v : Nat) : Nat := bool01 (old.toNat.testBit bit && !v.testBit bit)

/-- Highest codeword bit of a target. -/
def sramLimit (target : Nat) : Nat := if target = 3 then 71 else 12

def Dev.writeFlipSram (d : Dev) (p : Port) (off v : Nat) : Dev :=
  let old := d.sec.flipSram
  let o := old.toNat
  let okT := decide (fld v 0 2 ≠ 0)
  let t := if okT then fld v 0 2 else fld o 0 2
  let okA := decide (fld v 10 7 ≤ sramLimit t)
  let okB := decide (fld v 18 7 ≤ sramLimit t)
  let a := if okA then fld v 10 7 else fld o 10 7
  let b := if okB then fld v 18 7 else fld o 18 7
  let stands := decide (t ≠ 0) && decide (a ≤ sramLimit t) && decide (b ≤ sramLimit t)
  let w := pack [(2, t), (8, fld v 2 8), (7, a), (1, fld v 17 1), (7, b), (1, fld v 25 1),
    (1, bool01 (v.testBit 26 && stands)), (1, hitAfter old 27 v)]
  ({ d with sec := { d.sec with flipSram := BitVec.ofNat 32 w } }).noteReserved p off (okT && okA && okB)

def Dev.writeFlipTag (d : Dev) (p : Port) (off v : Nat) : Dev :=
  let old := d.sec.flipTag
  let okB := decide (fld v 0 6 ≤ 58)
  let b := if okB then fld v 0 6 else fld old.toNat 0 6
  let w := pack [(6, b), (1, fld v 6 1), (1, fld v 7 1), (1, hitAfter old 8 v)]
  ({ d with sec := { d.sec with flipTag := BitVec.ofNat 32 w } }).noteReserved p off okB

/-- Highest first bit of a FLIP_LINE stage. -/
def lineLimit (stage : Nat) : Nat := if stage = 3 then 35 else if stage = 2 then 2047 else 2591

def Dev.writeFlipLine (d : Dev) (p : Port) (off v : Nat) : Dev :=
  let old := d.sec.flipLine
  let o := old.toNat
  let okS := decide (fld v 0 2 ≠ 0)
  let st := if okS then fld v 0 2 else fld o 0 2
  let okB := decide (fld v 2 12 ≤ lineLimit st)
  let okC := decide (fld v 14 6 ≠ 0)
  let b := if okB then fld v 2 12 else fld o 2 12
  let c := if okC then fld v 14 6 else fld o 14 6
  let stands := decide (st ≠ 0) && decide (b ≤ lineLimit st)
  let w := pack [(2, st), (12, b), (6, c), (1, bool01 (v.testBit 20 && stands)), (1, hitAfter old 21 v)]
  ({ d with sec := { d.sec with flipLine := BitVec.ofNat 32 w } }).noteReserved p off (okS && okB && okC)

/-! ### Objects, events (12 R462; 14 R540, R541, R546) -/

def Dev.writeObjCfg (d : Dev) (p : Port) (off v : Nat) : Dev :=
  let a := inRange 3 254 (fld v 0 8)
  let low := keepFld v 0 a d.obj.collectLow
  let b := inRange (low.toNat + 1) 255 (fld v 8 8)
  let c := inRange 1 100 (fld v 16 7)
  let e := inRange 1 255 (fld v 24 8)
  ({ d with obj := { d.obj with
    collectLow := low, collectHigh := keepFld v 8 b d.obj.collectHigh, collectMax := keepFld v 16 c d.obj.collectMax,
    sealTime := keepFld v 24 e d.obj.sealTime } }).noteReserved p off (a && b && c && e)

def Dev.writeEvtCfg (d : Dev) (p : Port) (off v : Nat) : Dev :=
  let a := inRange 1 255 (fld v 0 8)
  ({ d with ev := { d.ev with coalMs := keepFld v 0 a d.ev.coalMs } }).noteReserved p off a

/-- EV_SRC_CFG: a fixed level stays. -/
def Dev.writeEvSrc (d : Dev) (n v : Nat) : Dev :=
  match srcInfo n with
  | some i =>
    { d with ev := { d.ev with
        levels := if i.fixed then d.ev.levels else tset 0 d.ev.levels n (fld v 0 3 + 1),
        thresh := tset 64 d.ev.thresh n (fld v 8 8) } }
  | none => d

/-- The memory type of a base register: SCRATCH and 0b11 are reserved. -/
def baseTypeOk (v : Nat) : Bool := decide (fld v 62 2 < 2)

/-- A base with its low bits zero and, where the new one is reserved, its old memory type. -/
def baseOf (v shift : Nat) (old : BitVec 64) : BitVec 64 :=
  BitVec.ofNat 64 (fld v shift (62 - shift) * 2 ^ shift +
    (if baseTypeOk v then fld v 62 2 else fld old.toNat 62 2) * 2 ^ 62)

def Dev.writeDumpBase (d : Dev) (p : Port) (off v : Nat) : Dev :=
  if d.ev.dumpEn then d
  else ({ d with ev := { d.ev with dumpBase := baseOf v 16 d.ev.dumpBase } }).noteReserved p off (baseTypeOk v)

def Dev.writeTraceBase (d : Dev) (p : Port) (off v : Nat) : Dev :=
  if d.ev.trEn then d
  else ({ d with ev := { d.ev with trBase := baseOf v 12 d.ev.trBase } }).noteReserved p off (baseTypeOk v)

/-! ### The admin pair (11 R417-R419) -/

/-- ADMQ_SQ_BASE, ADMQ_CQ_BASE and ADMQ_CFG stay while RDY is 1. -/
def Dev.writeAdm (d : Dev) (h : Head) (off : Nat) (f : AdmQ → AdmQ) : Dev :=
  if (d.adm h).rdy then d.regReserved (.head h) off else d.setAdm h (f (d.adm h))

def Dev.writeAdmBase (d : Dev) (h : Head) (off v : Nat) (cq : Bool) : Dev :=
  let d' := d.writeAdm h off (fun a =>
    if cq then { a with cqBase := baseOf v 12 a.cqBase } else { a with sqBase := baseOf v 12 a.sqBase })
  if (d.adm h).rdy then d' else d'.noteReserved (.head h) off (baseTypeOk v)

/-! ### LIFE_CTRL (19 R700) -/

def Dev.writeLifeCtrl (d : Dev) (p : Port) (v : Nat) : Dev :=
  if d.mayLife p then { d with life := { d.life with bistNext := v.testBit 2 } } else d.denied

/-- SEC_CTRL.ZEROISE. -/
def Dev.writeSecCtrl (d : Dev) (p : Port) (v : Nat) : Dev := if v.testBit 0 then d.zeroise p else d

/-! ### By name -/

/-- Registers of the always-on domain: the sideband writes them while main power is off too (R730). -/
def aonReg : Reg → Bool
  | .pwrCfg => true
  | .pwrCtrl => true
  | .marginCtrl => true
  | .bankCfg => true
  | .mileSel => true
  | .lifeCtrl => true
  | _ => false

/-- The port reaches the register. -/
def Dev.canWrite (d : Dev) (p : Port) (r : Reg) : Bool :=
  match p with
  | .head _ => d.portOn p
  | .sideband => if aonReg r then d.pwr.vaux else d.portOn p

/-- Registers of the blocks that heads and sideband share; v holds 8 B of the register, or its 4 B. -/
def Dev.writeShared (d : Dev) (p : Port) (off unit v : Nat) : Reg → Dev
  | .lifeCtrl => d.writeLifeCtrl p v
  | .pwrCfg => d.writePwrCfg p off v
  | .pwrCtrl => if p = .sideband ∧ v.testBit 0 = true then d.restart else d
  | .marginCtrl => if p = .sideband then d.writeMarginCtrl v else d
  | .bankCfg => d.writeBankCfg p off v
  | .tollCfg => d.writeTollCfg p off v
  | .thermCfg => d.writeThermCfg p off v
  | .thermSel => d.writeThermSel p off v
  | .mileSel => { d with cab := { d.cab with mileSel := BitVec.ofNat 6 v } }
  | .secCfg => d.writeSecCfg p v
  | .secCtrl => d.writeSecCtrl p v
  | .keySel => { d with sec := { d.sec with keySel := BitVec.ofNat 7 v } }
  | .rekeySel => { d with sec := { d.sec with rekeySel := BitVec.ofNat 10 v } }
  | .driftCfg => d.writeDriftCfg p off v
  | .cacheCfg => d.writeCacheCfg p off v
  | .scratchCfg => d.writeScratchCfg v
  | .maintCtrl => d.writeMaintCtrl v
  | .maintRange => d.writeMaintRange unit v
  | .cacheStatus => d.clearCacheStatus v
  | .placeCfg => d.writePlaceCfg p off v
  | .refreshClass i => d.writeRefreshClass p off i v
  | .ztSel => { d with ztSel := BitVec.ofNat 21 v }
  | .laneCtrl => d.writeLaneCtrl v
  | .laneCfg => d.writeLaneCfg p off v
  | .errInjCfg => d.writeErrInj p off v
  | .flipSram => d.writeFlipSram p off v
  | .flipTag => d.writeFlipTag p off v
  | .flipLine => d.writeFlipLine p off v
  | .flipTarget =>
    { d with sec := { d.sec with
        flipTarget := BitVec.ofNat 64 (pack [(10, fld v 0 10), (6, 0), (37, fld v 16 37)]) } }
  | .objCfg => d.writeObjCfg p off v
  | .objSel => { d with obj := { d.obj with sel := BitVec.ofNat 10 v } }
  | .evtCfg => d.writeEvtCfg p off v
  | .evSel => { d with ev := { d.ev with srcSel := BitVec.ofNat 10 v } }
  | .attnAck => { d with ev := d.ev.ack p (BitVec.ofNat 32 v) }
  | .dumpCfg => d.writeDumpCfg p (setFld v 1 1 0) true
  | .dumpBase => d.writeDumpBase p off v
  | .traceBase => d.writeTraceBase p off v
  | .dumpStatus => { d with ev := { d.ev with dumpErr := d.ev.dumpErr && !v.testBit 40 } }
  | .traceCfg => d.writeTraceCfg p v
  | .traceStatus => { d with ev := { d.ev with trErr := d.ev.trErr && !v.testBit 7 } }
  | .bwCfg => d.writeBwCfg p v
  | .evSrcCfg n => d.writeEvSrc n v
  | _ => d

/-- Registers of one head, and those of streams and channels, which the sideband does not reach. -/
def Dev.writeHead (d : Dev) (h : Head) (off v : Nat) : Reg → Dev
  | .cpageCfg i => d.writeCpage h i v
  | .admqSq => d.writeAdmBase h off v false
  | .admqCq => d.writeAdmBase h off v true
  | .admqCfg => (d.writeAdm h off (fun a => { a with cfg := BitVec.ofNat 32 (fld v 0 31) })).noteCfg h
  | .admqCtrl => d.admqEn h (v.testBit 0)
  | .sqTail q => d.sqTail h q (fld v 0 12)
  | .cqHead q => d.cqHead h q (fld v 0 12)
  | .streamCfg s => if serviceStream s then d.writeStreamCfg s v else d
  | .streamCtrl s => if serviceStream s then d.writeStreamCtrl s v else d
  | .streamStatus s =>
    if serviceStream s then d.onStream s (fun x => { x with err := x.err && !v.testBit 50 }) else d
  | .dmaBase c => if serviceChan c then d.writeRingBase (.head h) c v else d
  | .dmaCfg c => if serviceChan c then d.writeDmaCfg (.head h) c v else d
  | .dmaCtrl c => if serviceChan c then d.writeDmaCtrl c v else d
  | .dmaTail c => if serviceChan c then d.writeDmaTail c v else d
  | .dmaReq => d.writeDmaReq v
  | r => d.writeShared (.head h) off 0 v r

def Dev.writeReg (d : Dev) (p : Port) (off unit v : Nat) (r : Reg) : Dev :=
  match p with
  | .sideband => d.writeShared p off unit v r
  | .head h => if r = .maintRange then d.writeShared p off unit v r else d.writeHead h off v r

/-- Status registers, whose writes only clear: a half that is not written clears nothing. -/
def clearsOnly : Reg → Bool
  | .cacheStatus => true
  | .dumpStatus => true
  | .traceStatus => true
  | .streamStatus _ => true
  | _ => false

/-! ### By offset (R731, R732, R734, 01 R10, R12) -/

/-- 4 B written within a register of 8 B or more leave the other half of its 8 B unit as it is. -/
def Dev.halfWrite (d : Dev) (p : Port) (off v : Nat) (r : Reg) (at_ : Nat) : Dev :=
  let unit := at_ / 8
  let old := if clearsOnly r then 0 else fld (d.regValue p r) (64 * unit) 64
  d.writeReg p (off - at_) unit (setFld old (8 * (at_ % 8)) 32 v) r

/-- One 4 B write at an offset. -/
def Dev.write4 (d : Dev) (p : Port) (off v : Nat) : Dev :=
  match regAt off with
  | none => d
  | some (r, size, at_) =>
    if d.canWrite p r = false then d
    else if size = 4 then d.writeReg p off 0 v r
    else d.halfWrite p off v r at_

/-- One 8 B write: a unit of a wide register, or two registers, the lower first. DESIGN CHOICE: an access that covers a
register in one half and none in the other is no occurrence of BAR_UNMAPPED (log entry 160). -/
def Dev.write8 (d : Dev) (p : Port) (off v : Nat) : Dev :=
  match regAt off with
  | some (r, size, at_) =>
    if size = 4 then (d.write4 p off (fld v 0 32)).write4 p (off + 4) (fld v 32 32)
    else if d.canWrite p r then d.writeReg p (off - at_) (at_ / 8) (fld v 0 64) r
    else d
  | none => d.write4 p (off + 4) (fld v 32 32)

/-- No register lies where the port writes. -/
def unassigned (p : Port) (off : Nat) (wide : Bool) : Bool :=
  !reaches p off || decide (off % (if wide then 8 else 4) ≠ 0) ||
  ((regAt off).isNone && !(wide && (regAt (off + 4)).isSome))

/-! ### HDM decoders (09 R335, R336, R731; log entry 18)

PRESUMED: CXL 3.1's HDM decoder capability structure and the rules of a commit. The manual puts the component registers at BAR0
offset 0 and leaves the structure's place within them to CXL; the model puts it at 0x1200. -/

def hdmAt : Nat := 0x1200

/-- The decoder and the offset within its registers that a BAR0 offset names. -/
def hdmField (off : Nat) : Option (Nat × Nat) :=
  if hdmAt + 0x10 ≤ off ∧ off < hdmAt + 0x110 then some ((off - hdmAt - 0x10) / 32, (off - hdmAt - 0x10) % 32) else none

/-- A commit is in order: an allowed number of ways and granularity, a size of whole units of 256 MiB for each way, behind the
decoder before it, and inside the DPA space. -/
def commitOk (prev : Option Hdm) (x : Hdm) (dpa : Nat) : Bool :=
  decide (x.iw ≤ 4) && decide (x.ig ≤ 6) && decide (0 < x.size) && decide (x.size % (x.ways * 2 ^ 28) = 0) &&
  (match prev with
    | some y => y.on && decide (y.base + y.size ≤ x.base)
    | none => true) && decide (dpa + x.size / x.ways ≤ 2 ^ 45)

/-- The DPA at which a decoder starts: behind the one before it and its skip. -/
def hdmStart (prev : Option Hdm) (x : Hdm) : Nat :=
  x.skip + (match prev with
    | some y => y.dpa + y.size / y.ways
    | none => 0)

/-- COMMIT written 1 or 0 to decoder x, which follows prev and stands before next. -/
def Hdm.commit (x : Hdm) (prev next : Option Hdm) (on : Bool) : Hdm :=
  if on then
    if x.on then x
    else
      let dpa := hdmStart prev x
      if commitOk prev x dpa then { x with on := true, err := false, dpa := dpa } else { x with err := true }
  else if x.on && (x.lock || next.any Hdm.on) then x
  else { x with on := false, err := false }

/-- 32 bits of a 64-bit field, of which bits 27:0 are reserved. -/
def setHalf (old v : Nat) (high : Bool) : Nat :=
  if high then setFld old 32 32 v else setFld old 28 4 (v / 2 ^ 28)

/-- One 4 B write to a decoder's registers; a committed one keeps its fields. -/
def Hdm.write (x : Hdm) (prev next : Option Hdm) (o v : Nat) : Hdm :=
  let set (y : Hdm) : Hdm := if x.on then x else y
  match o with
  | 0x00 => set { x with base := setHalf x.base v false }
  | 0x04 => set { x with base := setHalf x.base v true }
  | 0x08 => set { x with size := setHalf x.size v false }
  | 0x0C => set { x with size := setHalf x.size v true }
  | 0x10 =>
    (set { x with ig := fld v 0 4, iw := fld v 4 4, lock := v.testBit 8 }).commit prev next (v.testBit 9)
  | 0x14 => set { x with skip := setHalf x.skip v false }
  | 0x18 => set { x with skip := setHalf x.skip v true }
  | _ => x

/-- A 4 B write of a head to its HDM decoders: the global enable, or a decoder's registers. -/
def HeadSt.hdmWrite (x : HeadSt) (off v : Nat) : HeadSt :=
  if off = hdmAt + 4 then { x with hdmEn := v.testBit 1 }
  else match hdmField off with
    | some (i, o) =>
      let at_ (j : Nat) : Option Hdm := x.hdm[j]?
      let prev := if i = 0 then none else at_ (i - 1)
      { x with hdm := x.hdm.modify i (fun y => y.write prev (at_ (i + 1)) o v) }
    | none => x

/-- A write below 0x20000: the HDM decoders are programmed there, and what lies beside them is CXL's. -/
def Dev.cxlWrite (d : Dev) (p : Port) (off : Nat) (wide : Bool) (v : Nat) : Dev :=
  match p with
  | .sideband => d
  | .head h =>
    if d.portOn p = false ∨ off % (if wide then 8 else 4) ≠ 0 then d
    else
      let d := d.onHead h (·.hdmWrite off (fld v 0 32))
      if wide then d.onHead h (·.hdmWrite (off + 4) (fld v 32 32)) else d

/-- A write to the register map. The CXL registers lie below 0x20000 (log entry 18). -/
def Dev.registerWrite (d : Dev) (p : Port) (off : Nat) (wide : Bool) (v : Nat) : Dev :=
  if off < 0x20000 then d.cxlWrite p off wide v
  else if unassigned p off wide then
    if d.portOn p then d.barUnmapped p 0 off true else d
  else if wide then d.write8 p off v
  else d.write4 p off (fld v 0 32)

def execRegisterWrite (t : Nat) (p : Port) (offset : BitVec 20) (wide : Bool) (value : Word) (s : State) :
    Host.Outcome State Fault Refusal :=
  s.after t (fun d => d.registerWrite p offset.toNat wide value.toNat)

end Sys2Proof.Machine
end

