-- ==== Sys2Proof/Machine/Dispatch.lean ====
section
/-!
DEFINITION. Dispatch: the meaning of each command, one arm per row of spec/opcode_table.json.
-/

namespace Sys2Proof.Machine

/-- A command's effect on everything but the queue. -/
def exec (i : Instr) (s : State) : Host.Outcome State Fault Refusal :=
  match i with
  | .memrd t h tag hpa => Sys2Proof.Machine.execMemrd t h tag hpa s
  | .memwr t h tag hpa data poison => Sys2Proof.Machine.execMemwr t h tag hpa data poison s
  | .creditReturn t h => Sys2Proof.Machine.execCreditReturn t h s
  | .headReset t h kind => Sys2Proof.Machine.execHeadReset t h kind s
  | .cxlReset t h => Sys2Proof.Machine.execCxlReset t h s
  | .flr t h => Sys2Proof.Machine.execFlr t h s
  | .perstDeassert t h => Sys2Proof.Machine.execPerstDeassert t h s
  | .gpfPhase1 t h => Sys2Proof.Machine.execGpfPhase1 t h s
  | .gpfPhase2 t h => Sys2Proof.Machine.execGpfPhase2 t h s
  | .getEventRecords t h log => Sys2Proof.Machine.execGetEventRecords t h log s
  | .clearEventRecords t h log handles => Sys2Proof.Machine.execClearEventRecords t h log handles s
  | .getEventInterruptPolicy t h => Sys2Proof.Machine.execGetEventInterruptPolicy t h s
  | .setEventInterruptPolicy t h policy => Sys2Proof.Machine.execSetEventInterruptPolicy t h policy s
  | .getFwInfo t h => Sys2Proof.Machine.execGetFwInfo t h s
  | .transferFw t h offset bytes => Sys2Proof.Machine.execTransferFw t h offset bytes s
  | .activateFw t h slot mask activate => Sys2Proof.Machine.execActivateFw t h slot mask activate s
  | .getTimestamp t h => Sys2Proof.Machine.execGetTimestamp t h s
  | .setTimestamp t h ns => Sys2Proof.Machine.execSetTimestamp t h ns s
  | .getSupportedLogs t h => Sys2Proof.Machine.execGetSupportedLogs t h s
  | .getLog t h => Sys2Proof.Machine.execGetLog t h s
  | .identifyMemoryDevice t h => Sys2Proof.Machine.execIdentifyMemoryDevice t h s
  | .getPartitionInfo t h => Sys2Proof.Machine.execGetPartitionInfo t h s
  | .setPartitionInfo t h => Sys2Proof.Machine.execSetPartitionInfo t h s
  | .getHealthInfo t h => Sys2Proof.Machine.execGetHealthInfo t h s
  | .getAlertConfiguration t h => Sys2Proof.Machine.execGetAlertConfiguration t h s
  | .setAlertConfiguration t h cfg => Sys2Proof.Machine.execSetAlertConfiguration t h cfg s
  | .getLsa t h offset length => Sys2Proof.Machine.execGetLsa t h offset length s
  | .setLsa t h offset bytes => Sys2Proof.Machine.execSetLsa t h offset bytes s
  | .getPoisonList t h => Sys2Proof.Machine.execGetPoisonList t h s
  | .mailboxUnsupported t h opcode => Sys2Proof.Machine.execMailboxUnsupported t h opcode s
  | .sqTailDb t h q value => Sys2Proof.Machine.execSqTailDb t h q value s
  | .cqHeadDb t h q value => Sys2Proof.Machine.execCqHeadDb t h q value s
  | .sqFetch t h => Sys2Proof.Machine.execSqFetch t h s
  | .sqEntryArrive t qid ending => Sys2Proof.Machine.execSqEntryArrive t qid ending s
  | .orderedStart t qid cid => Sys2Proof.Machine.execOrderedStart t qid cid s
  | .msixItimeExpire t qid => Sys2Proof.Machine.execMsixItimeExpire t qid s
  | .admqEn t h value => Sys2Proof.Machine.execAdmqEn t h value s
  | .admqRdy t h => Sys2Proof.Machine.execAdmqRdy t h s
  | .identify t qid cid => Sys2Proof.Machine.execIdentify t qid cid s
  | .createQpair t qid cid => Sys2Proof.Machine.execCreateQpair t qid cid s
  | .deleteQpair t qid cid => Sys2Proof.Machine.execDeleteQpair t qid cid s
  | .setTime t qid cid => Sys2Proof.Machine.execSetTime t qid cid s
  | .watch t qid cid => Sys2Proof.Machine.execWatch t qid cid s
  | .watchTimeout t qid cid => Sys2Proof.Machine.execWatchTimeout t qid cid s
  | .barrier t qid cid => Sys2Proof.Machine.execBarrier t qid cid s
  | .eventRead t qid cid => Sys2Proof.Machine.execEventRead t qid cid s
  | .selfTest t qid cid bist => Sys2Proof.Machine.execSelfTest t qid cid bist s
  | .fwDownload t qid cid host => Sys2Proof.Machine.execFwDownload t qid cid host s
  | .fwCommit t qid cid => Sys2Proof.Machine.execFwCommit t qid cid s
  | .regionCreate t qid cid => Sys2Proof.Machine.execRegionCreate t qid cid s
  | .regionGrow t qid cid => Sys2Proof.Machine.execRegionGrow t qid cid s
  | .regionDelete t qid cid => Sys2Proof.Machine.execRegionDelete t qid cid s
  | .regionQuery t qid cid => Sys2Proof.Machine.execRegionQuery t qid cid s
  | .regionSetAttr t qid cid => Sys2Proof.Machine.execRegionSetAttr t qid cid s
  | .takeover t qid cid => Sys2Proof.Machine.execTakeover t qid cid s
  | .regionUnlock t qid cid => Sys2Proof.Machine.execRegionUnlock t qid cid s
  | .discard t qid cid => Sys2Proof.Machine.execDiscard t qid cid s
  | .secureDiscard t qid cid media => Sys2Proof.Machine.execSecureDiscard t qid cid media s
  | .keyLoad t qid cid host => Sys2Proof.Machine.execKeyLoad t qid cid host s
  | .keyRetire t qid cid => Sys2Proof.Machine.execKeyRetire t qid cid s
  | .rangeRekey t qid cid => Sys2Proof.Machine.execRangeRekey t qid cid s
  | .cabinetAuth t qid cid host => Sys2Proof.Machine.execCabinetAuth t qid cid host s
  | .objPut t qid cid host media => Sys2Proof.Machine.execObjPut t qid cid host media s
  | .objGet t qid cid media => Sys2Proof.Machine.execObjGet t qid cid media s
  | .objDelete t qid cid media => Sys2Proof.Machine.execObjDelete t qid cid media s
  | .objSecureDelete t qid cid media => Sys2Proof.Machine.execObjSecureDelete t qid cid media s
  | .objStat t qid cid media => Sys2Proof.Machine.execObjStat t qid cid media s
  | .ecEncode t qid cid host media => Sys2Proof.Machine.execEcEncode t qid cid host media s
  | .ecReconstruct t qid cid host media => Sys2Proof.Machine.execEcReconstruct t qid cid host media s
  | .verify t qid cid host media => Sys2Proof.Machine.execVerify t qid cid host media s
  | .checksum t qid cid host media => Sys2Proof.Machine.execChecksum t qid cid host media s
  | .laneSenseStart t lane => Sys2Proof.Machine.execLaneSenseStart t lane s
  | .senseTransferDone t lane sense noise => Sys2Proof.Machine.execSenseTransferDone t lane sense noise s
  | .decodeDone t lane sense => Sys2Proof.Machine.execDecodeDone t lane sense s
  | .waymarkSenseDone t lane sense medians => Sys2Proof.Machine.execWaymarkSenseDone t lane sense medians s
  | .senseTimeout t lane sense => Sys2Proof.Machine.execSenseTimeout t lane sense s
  | .linkCheckReject t lane sense => Sys2Proof.Machine.execLinkCheckReject t lane sense s
  | .recoveryIntervalEnd t => Sys2Proof.Machine.execRecoveryIntervalEnd t s
  | .readDeadline t h tag => Sys2Proof.Machine.execReadDeadline t h tag s
  | .vergeConfirmTimeout t lane sense => Sys2Proof.Machine.execVergeConfirmTimeout t lane sense s
  | .prefetchIssue t h detector => Sys2Proof.Machine.execPrefetchIssue t h detector s
  | .ztRebuild t lzone => Sys2Proof.Machine.execZtRebuild t lzone s
  | .writebackAge t region line => Sys2Proof.Machine.execWritebackAge t region line s
  | .stagingMove t => Sys2Proof.Machine.execStagingMove t s
  | .stagedIssue t entry media => Sys2Proof.Machine.execStagedIssue t entry media s
  | .programVerifyDone t prog senses residue => Sys2Proof.Machine.execProgramVerifyDone t prog senses residue s
  | .verifySenseTimeout t prog => Sys2Proof.Machine.execVerifySenseTimeout t prog s
  | .mergeRefuse t prog media => Sys2Proof.Machine.execMergeRefuse t prog media s
  | .suspLong t prog => Sys2Proof.Machine.execSuspLong t prog s
  | .intentClear t pzone => Sys2Proof.Machine.execIntentClear t pzone s
  | .stripeSeal t region target => Sys2Proof.Machine.execStripeSeal t region target s
  | .gapMove t lzone media => Sys2Proof.Machine.execGapMove t lzone media s
  | .move t lzone work media => Sys2Proof.Machine.execMove t lzone work media s
  | .preclear t pzone media => Sys2Proof.Machine.execPreclear t pzone media s
  | .checkpointTimer t media => Sys2Proof.Machine.execCheckpointTimer t media s
  | .bind t lzone => Sys2Proof.Machine.execBind t lzone s
  | .bindReserveRefill t => Sys2Proof.Machine.execBindReserveRefill t s
  | .laneTakeOut t p value => Sys2Proof.Machine.execLaneTakeOut t p value s
  | .laneTest t p value => Sys2Proof.Machine.execLaneTest t p value s
  | .laneReturn t p value => Sys2Proof.Machine.execLaneReturn t p value s
  | .selfTestDone t lane linkOk dieOk badTiles => Sys2Proof.Machine.execSelfTestDone t lane linkOk dieOk badTiles s
  | .restoreZone t lane media => Sys2Proof.Machine.execRestoreZone t lane media s
  | .maintClean t p value => Sys2Proof.Machine.execMaintClean t p value s
  | .maintInvalidate t p value => Sys2Proof.Machine.execMaintInvalidate t p value s
  | .maintFlush t p value => Sys2Proof.Machine.execMaintFlush t p value s
  | .maintDone t => Sys2Proof.Machine.execMaintDone t s
  | .scratchCfgWrite t p value => Sys2Proof.Machine.execScratchCfgWrite t p value s
  | .scratchConversionDone t => Sys2Proof.Machine.execScratchConversionDone t s
  | .coreFetchPoison t core addr => Sys2Proof.Machine.execCoreFetchPoison t core addr s
  | .coreDataAbort t core => Sys2Proof.Machine.execCoreDataAbort t core s
  | .streamFlush t p stream => Sys2Proof.Machine.execStreamFlush t p stream s
  | .streamFlushEffect t stream => Sys2Proof.Machine.execStreamFlushEffect t stream s
  | .streamMark t p stream => Sys2Proof.Machine.execStreamMark t p stream s
  | .streamRewind t p stream => Sys2Proof.Machine.execStreamRewind t p stream s
  | .streamRelease t p stream => Sys2Proof.Machine.execStreamRelease t p stream s
  | .streamCfgWrite t p stream value => Sys2Proof.Machine.execStreamCfgWrite t p stream value s
  | .dmaEn t p chan value => Sys2Proof.Machine.execDmaEn t p chan value s
  | .dmaResume t p chan => Sys2Proof.Machine.execDmaResume t p chan s
  | .dmaSkip t p chan => Sys2Proof.Machine.execDmaSkip t p chan s
  | .dmaStop t p chan => Sys2Proof.Machine.execDmaStop t p chan s
  | .dmaTail t p chan value => Sys2Proof.Machine.execDmaTail t p chan value s
  | .dmaReq t p value => Sys2Proof.Machine.execDmaReq t p value s
  | .dmaCfgWrite t p chan value => Sys2Proof.Machine.execDmaCfgWrite t p chan value s
  | .dmaDescriptor t chan host linkError media => Sys2Proof.Machine.execDmaDescriptor t chan host linkError media s
  | .collect t region media => Sys2Proof.Machine.execCollect t region media s
  | .rekeyStripe t region media => Sys2Proof.Machine.execRekeyStripe t region media s
  | .zeroise t p => Sys2Proof.Machine.execZeroise t p s
  | .testUnlock t p media => Sys2Proof.Machine.execTestUnlock t p media s
  | .secCfgWrite t p value => Sys2Proof.Machine.execSecCfgWrite t p value s
  | .coalWindowEnd t source => Sys2Proof.Machine.execCoalWindowEnd t source s
  | .lostRecord t => Sys2Proof.Machine.execLostRecord t s
  | .attnAck t p value => Sys2Proof.Machine.execAttnAck t p value s
  | .dumpPeriod t ok => Sys2Proof.Machine.execDumpPeriod t ok s
  | .dumpNow t p value ok => Sys2Proof.Machine.execDumpNow t p value ok s
  | .bwWindowEnd t => Sys2Proof.Machine.execBwWindowEnd t s
  | .bwCfgWrite t p value => Sys2Proof.Machine.execBwCfgWrite t p value s
  | .traceTimeout t tag ok => Sys2Proof.Machine.execTraceTimeout t tag ok s
  | .cpageCfgWrite t h page value => Sys2Proof.Machine.execCpageCfgWrite t h page value s
  | .barUnmapped t p bar offset isWrite => Sys2Proof.Machine.execBarUnmapped t p bar offset isWrite s
  | .vauxPowerOn t => Sys2Proof.Machine.execVauxPowerOn t s
  | .powerUpStart t => Sys2Proof.Machine.execPowerUpStart t s
  | .railPgChange t rail good => Sys2Proof.Machine.execRailPgChange t rail good s
  | .pgStable t start => Sys2Proof.Machine.execPgStable t start s
  | .pgTimeout t => Sys2Proof.Machine.execPgTimeout t s
  | .railFail t rail media => Sys2Proof.Machine.execRailFail t rail media s
  | .vphyReenable t h => Sys2Proof.Machine.execVphyReenable t h s
  | .pwrFltIn t media => Sys2Proof.Machine.execPwrFltIn t media s
  | .fltPulseEnd t => Sys2Proof.Machine.execFltPulseEnd t s
  | .vinGoodLoss t media => Sys2Proof.Machine.execVinGoodLoss t media s
  | .bankFloor t => Sys2Proof.Machine.execBankFloor t s
  | .railFallDone t => Sys2Proof.Machine.execRailFallDone t s
  | .fallTimeout t rail => Sys2Proof.Machine.execFallTimeout t rail s
  | .restart t p => Sys2Proof.Machine.execRestart t p s
  | .marginGo t p value => Sys2Proof.Machine.execMarginGo t p value s
  | .testNow t p => Sys2Proof.Machine.execTestNow t p s
  | .bankTestDue t => Sys2Proof.Machine.execBankTestDue t s
  | .bankTestHoldTimeout t => Sys2Proof.Machine.execBankTestHoldTimeout t s
  | .bankTestRetry t => Sys2Proof.Machine.execBankTestRetry t s
  | .bankTestLoadEnd t v0 v1 v2 v3 x t3 => Sys2Proof.Machine.execBankTestLoadEnd t v0 v1 v2 v3 x t3 s
  | .bankCharged t mv => Sys2Proof.Machine.execBankCharged t mv s
  | .chargerFault t mv => Sys2Proof.Machine.execChargerFault t mv s
  | .energyLimitRecompute t mv => Sys2Proof.Machine.execEnergyLimitRecompute t mv s
  | .energyWaitTimeout t => Sys2Proof.Machine.execEnergyWaitTimeout t s
  | .aonClkStop t => Sys2Proof.Machine.execAonClkStop t s
  | .thermalSample t temps media => Sys2Proof.Machine.execThermalSample t temps media s
  | .aonSample t temps => Sys2Proof.Machine.execAonSample t temps s
  | .thermtripComparator t sensor media => Sys2Proof.Machine.execThermtripComparator t sensor media s
  | .thermtripRelease t temps => Sys2Proof.Machine.execThermtripRelease t temps s
  | .driftCheckpoint t => Sys2Proof.Machine.execDriftCheckpoint t s
  | .timeWaitExpire t => Sys2Proof.Machine.execTimeWaitExpire t s
  | .shutdown t p bist media => Sys2Proof.Machine.execShutdown t p bist media s
  | .warm t p start => Sys2Proof.Machine.execWarm t p start s
  | .shutdownCmdTimeout t => Sys2Proof.Machine.execShutdownCmdTimeout t s
  | .cabinetWriteDone t ok => Sys2Proof.Machine.execCabinetWriteDone t ok s
  | .tapInstruction t x => Sys2Proof.Machine.execTapInstruction t x s
  | .registerWrite t p offset wide value => Sys2Proof.Machine.execRegisterWrite t p offset wide value s
  | .vauxLoss t => Sys2Proof.Machine.execVauxLoss t s
  | .vinGoodFall t => Sys2Proof.Machine.execVinGoodFall t s
  | .headLinkDown t h => Sys2Proof.Machine.execHeadLinkDown t h s
  | .headLinkUp t h width => Sys2Proof.Machine.execHeadLinkUp t h width s
  | .clusterReloadDone t cluster => Sys2Proof.Machine.execClusterReloadDone t cluster s
  | .clusterUpdateCmdTimeout t cluster => Sys2Proof.Machine.execClusterUpdateCmdTimeout t cluster s
  | .bankTestChargeSettled t => Sys2Proof.Machine.execBankTestChargeSettled t s
  | .strobeTracking t lane => Sys2Proof.Machine.execStrobeTracking t lane s
  | .afTableRebuilt t => Sys2Proof.Machine.execAfTableRebuilt t s
  | .testEnChange t level => Sys2Proof.Machine.execTestEnChange t level s

end Sys2Proof.Machine
end

