-- ==== Sys2Proof/Safety.lean ====
section
/-!
DEFINITION. The terms that claims use: the state that a command leaves behind its work, the command's own device,
what a state must meet at every step, the canonical form of every table, and commands that change nothing but time.
-/

namespace Sys2Proof.Machine

/-- The state left by a command that comes at time stamp t, when its work ends with device d: what the step owes
is settled (levels, WATCHes, BENCH_CAP, key slots), the clocks are set, and the queue stands. -/
def State.leave (s : State) (t : Nat) (d : Dev) : State := s.run t (fun _ => d)

/-- Command i changes nothing but what time itself changes. -/
def State.idle (s : State) (i : Instr) (t : Nat) : Prop := exec i s = .next (s.leave t (s.before t))

/-- The time-stamp counter stands at a multiple of 5 ns (01 R24), and the device's sample of the always-on clock
is that clock. -/
def State.clocked (s : State) : Prop := s.clock.now % 5 = 0 ∧ s.dev.aon = s.clock.aon

/-- A safe run never stops: every step answers a next state. -/
def State.safe (s : State) : Prop := ∃ s', step s = .next s'

/-- The byte-addressed memories of a device, each in canonical form. -/
def Dev.memoriesWf (d : Dev) : Bool :=
  Memory.wf d.cache.scratch && Memory.wf d.sec.download &&
  Memory.wf d.sys.labelA && Memory.wf d.sys.labelB && Memory.wf d.nv.labelA && Memory.wf d.nv.labelB &&
  d.dma.streams.toList.all (fun x => Memory.wf x.bytes)

/-- The sparse tables of a device, each in canonical form: no entry equals what an unlisted key reads as. -/
def Dev.tablesWf (d : Dev) : Bool :=
  twf blankImage d.medium.lines && twf [] d.medium.remaps && twf false d.medium.waymarks &&
  twf none d.sys.regions && twf none d.nv.regions && twf none d.cache.ways && twf slotFree d.sec.slots &&
  twf srcQuiet d.ev.sources && twf 0 d.ev.counters && twf none d.cab.slots

/-- Command x, of opcode op, that a queue and a command ID name, is executing, a cluster serves the queues, and the cluster
that the command needs is not halted. -/
def Dev.performs (d : Dev) (op : Nat) (qid : BitVec 7) (cid : BitVec 16) (x : Exec) : Prop :=
  d.executing op qid.toNat cid.toNat = some x ∧ d.life.running = true ∧
  (d.clusterDown 2 && d.clusterDown 3) = false ∧ d.unavailable op = false

/-- d0 is d with the ENGINE tokens granted that work of the consumers l asks for (17 R635), and each of them holds
one. -/
def Dev.granted (d : Dev) (l : List Nat) (d0 : Dev) : Prop := d0 = d.grant l ∧ ∀ c ∈ l, 0 < tget 0 d0.eng.tokens c

/-- No request is being traced. -/
def Dev.untraced (d : Dev) : Prop := d.ev.trEn = false ∧ d.ev.traces = []

/-- The queue is served first in, first out: what a step takes is its front, and what it leaves is the rest. -/
def State.servesFront (s s' : State) : Prop := s'.pending = s.pending.tail

end Sys2Proof.Machine
end

