-- ==== Sys2Proof/Certificates/Slice0/Obligations.lean ====
section
/-!
DEFINITION. The statements for the provers. d is the device as the command finds it at its time stamp t
(State.before: time has moved its clocks, counters and event log), and s.leave t d' the state in which the command's work ends with device d', levels and
WATCHes settled.
-/

open Sys2Proof Sys2Proof.Machine

/-! ### The machine: queue, time, settling -/

/-- A step runs the command at the front of the queue on the state with the queue's rest. On an empty queue the
block idles: the model's choice (log entry 2). -/
def Obligations.StepServesTheQueue : Prop :=
  (∀ (c : Instr) (rest : List Instr) (s : State), s.pending = c :: rest →
    step s = exec c { s with pending := rest }) ∧
  (∀ s : State, s.pending = [] → step s = .next s)

/-- Every command answers a next state: none stops the block, none touches the queue, and after each the
device's sample of the always-on clock is that clock. -/
def Obligations.EveryCommandAnswersNext : Prop :=
  ∀ (i : Instr) (s : State), ∃ s', exec i s = .next s' ∧ s'.pending = s.pending ∧ s'.clock.aon = s'.dev.aon

/-- In a state whose counter stands at a multiple of 5 ns (R24) and whose device samples the always-on clock
as it stands, a step that answers a next state leaves both so, and takes the front of the queue off it. -/
def Obligations.EveryStepKeepsTheClocks : Prop :=
  ∀ s s' : State, s.clocked → step s = .next s' → s'.clocked ∧ s.servesFront s'

/-- Reset meets what every step keeps (State.clocked), its queue is empty, and its memories and its tables
(those that Dev.memoriesWf and Dev.tablesWf name) are in canonical form. -/
def Obligations.ResetIsWellFormed : Prop :=
  State.reset.clocked ∧ State.reset.dev.memoriesWf = true ∧ State.reset.dev.tablesWf = true ∧
  State.reset.pending = []

/-- The device as a command finds it: its counter stands at the command's instant, and time has changed no
more than its clocks, the fields of the event block named here, the milestone counters, and the records in the heads' event
logs. A command that brings no
device reset leaves the counter at its time stamp's multiple of 5 ns, or where it stood if that is later. -/
def Obligations.TimeMovesOnlyWhatRunsByItself : Prop :=
  (∀ (s : State) (t : Nat),
    let d := s.before t
    d.now = s.instant t ∧
    d = { s.dev with
      now := d.now, aon := d.aon,
      ev := { s.dev.ev with
        sources := d.ev.sources, log := d.ev.log, headSeq := d.ev.headSeq, intake := d.ev.intake,
        nextLogAt := d.ev.nextLogAt, lostRecs := d.ev.lostRecs, lostLevel := d.ev.lostLevel,
        lostSince := d.ev.lostSince, lostPending := d.ev.lostPending, attnA := d.ev.attnA, attnB := d.ev.attnB,
        attnS := d.ev.attnS, lastSeq := d.ev.lastSeq, toggle := d.ev.toggle, counters := d.ev.counters },
      cab := { s.dev.cab with milestone := d.cab.milestone },
      headA := { s.dev.headA with
        logs := d.headA.logs, logNext := d.headA.logNext, overflow := d.headA.overflow },
      headB := { s.dev.headB with
        logs := d.headB.logs, logNext := d.headB.logNext, overflow := d.headB.overflow } }) ∧
  (∀ (s : State) (t : Nat) (d : Dev), d.life.resets = (s.before t).life.resets →
    (s.leave t d).clock.now = max s.clock.now (t / 5 * 5))

/-- What a step settles once its work is done with device d: the cells, the supply, the sensors, streams and channels
and the heap zones' registers stay as d has them, and so does the life cycle but for the ATTN level that the sideband
last signalled; of the event block its configuration registers stay (those that EventBlock.keepCfg names), of the cache,
the lanes, the Cabinet and the security block the registers named here, and of the placement registers the refresh
periods and the ZT query. A stopped controller settles nothing. -/
def Obligations.SettlingLeavesTheWork : Prop :=
  ∀ (s : State) (t : Nat) (d : Dev),
    let x := (s.leave t d).dev
    x.medium = d.medium ∧ x.pwr = d.pwr ∧ x.therm = d.therm ∧ x.dma = d.dma ∧ x.obj = d.obj ∧
    x.life = { d.life with ibiLevel := x.life.ibiLevel } ∧
    x.sec = { d.sec with
      slots := x.sec.slots, zeroised := x.sec.zeroised, macLines := x.sec.macLines, flipSram := x.sec.flipSram,
      flipTag := x.sec.flipTag, flipLine := x.sec.flipLine } ∧
    x.ev = d.ev.keepCfg x.ev ∧
    x.cache.highWm = d.cache.highWm ∧ x.cache.pfDepth = d.cache.pfDepth ∧ x.cache.gather = d.cache.gather ∧
    x.cache.ageLimit = d.cache.ageLimit ∧ x.cache.maint = d.cache.maint ∧ x.cache.conv = d.cache.conv ∧
    x.cache.steps = d.cache.steps ∧ x.cache.refused = d.cache.refused ∧ x.cache.abandoned = d.cache.abandoned ∧
    x.lane.posMask = d.lane.posMask ∧ x.lane.lastStatus = d.lane.lastStatus ∧
    x.lane.mergeGuard = d.lane.mergeGuard ∧ x.lane.autoRepair = d.lane.autoRepair ∧
    x.lane.restoreDepth = d.lane.restoreDepth ∧ x.cab.milestone = d.cab.milestone ∧ x.cab.mileSel = d.cab.mileSel ∧
    x.refresh = d.refresh ∧ x.ztSel = d.ztSel ∧
    (d.life.running = false → x = d)

/-! ### CXL.mem and the heads -/

/-- A host read of a live DPA in an open region, from memory ready on, with no request traced: where the Bench or the
cache holds a copy of the sector it is counted and answered from that copy (Dev.hit), and a way that holds the line is
marked used; where no copy and no side-buffer line holds it, it becomes a miss (Dev.miss). A read of a dead DPA, and every
read before memory ready, answers poisoned zeros, with an error record of cause ACCESS that names the DPA of the line, and
the region and line of the window that the DPA lies in. A hit with no request traced sends one response: the sector's bytes,
or zeros with poison where the copy is poisoned. -/
def Obligations.HostReadAnswers : Prop :=
  (∀ (s : State) (t : Nat) (h : Head) (tag : Nat) (hpa : Word),
    let d := s.before t
    let dpa := d.dpaOf h hpa.toNat
    let d0 := d.count (cntHead h 0) 1
    d.linked h = true →
    (d.memoryReady = true → ∀ (id : Nat) (r : Region) (off : Nat), d0.resolve h dpa = some (id, r, off) →
      let d1 := d0.depthCount h r id (off / 256)
      d1.readLocked r (off / 256) = false → d1.untraced →
      let d2 := (((d1.regionCount id 0 1).readStage id (off / 256) 0).readStage id (off / 256) 1).checkLine r id
        (off / 256)
      (∀ x, d2.sectorCopy r id (off / 256) (off % 256 / 64) = some x → d2.findWay r id (off / 256) = none →
        exec (.memrd t h tag hpa) s =
          .next (s.leave t (d2.hit h tag id (off / 256) (off % 256 / 64) x))) ∧
      (∀ x k w, d2.sectorCopy r id (off / 256) (off % 256 / 64) = some x →
        d2.findWay r id (off / 256) = some (k, w) →
        exec (.memrd t h tag hpa) s =
          .next (s.leave t ((d2.touch k).hit h tag id (off / 256) (off % 256 / 64) x))) ∧
      (d2.sectorCopy r id (off / 256) (off % 256 / 64) = none → d2.cache.sideConfirmed id (off / 256) = none →
        exec (.memrd t h tag hpa) s =
          .next (s.leave t (d2.miss h tag r id (off / 256) (off % 256 / 64))))) ∧
    (d.memoryReady = false ∨ d0.resolve h dpa = none →
      exec (.memrd t h tag hpa) s =
        .next (s.leave t ((d0.returnData h tag 0 true).mediaRecord h .failure (dpa / 256 * 256) 6 0 (d0.lineAt dpa).1
          (d0.lineAt dpa).2)))) ∧
  (∀ (d : Dev) (h : Head) (tag region line sector : Nat) (x : Copy), d.untraced → sector < 4 →
    (d.hit h tag region line sector x).out =
      d.out ++ [.readData h tag (if x.poison then 0 else x.data) x.poison])

/-- A host write from memory ready on, by a head that holds a credit, spends one and is counted. With the tracer off, one
to a live line that is open and takes writes is accepted sector by sector (Dev.accept) and then finished
(Dev.finishWrite). One to a dead DPA is dropped (Dev.deadWrite) and its completion sent. Outside EXPOSED Dev.finishWrite
sends the completion at once and holds nothing. -/
def Obligations.HostWriteCompletes : Prop :=
  (∀ (s : State) (t : Nat) (h : Head) (tag : Nat) (hpa : Word) (data : Sector) (poison : Bool),
    let d := s.before t
    let d1 := ((((d.onHead h (fun x => { x with credits := x.credits - 1 })).count (cntHead h 1) 1).count
      (cntHead h 3) 64).bwHead h 0 64)
    let dpa := d1.dpaOf h hpa.toNat
    d.linked h = true → d.memoryReady = true → 0 < (d.head h).credits →
    (∀ (id : Nat) (r : Region) (off : Nat), d1.resolve h dpa = some (id, r, off) →
      d1.writeLocked r (off / 256) = false → d1.writeRefused r id (off / 256) = false →
      d.ev.trEn = false →
      exec (.memwr t h tag hpa data poison) s =
        .next (s.leave t
          ((((((d1.regionCount id 1 1).regionCount id 3 64).writeStage id (off / 256) 0).accept r id (off / 256)
            (off % 256 / 64) ⟨data, poison, 1⟩).writeStage id (off / 256) 1).finishWrite h tag id (off / 256)))) ∧
    (d1.resolve h dpa = none →
      exec (.memwr t h tag hpa data poison) s =
        .next (s.leave t ((d1.deadWrite h dpa).send (.writeDone h tag))))) ∧
  (∀ (d : Dev) (h : Head) (tag region line : Nat), d.bench.exposed = false →
    (d.finishWrite h tag region line).out = d.out ++ [.writeDone h tag] ∧
    (d.finishWrite h tag region line).bench.held = d.bench.held)

/-- A credit goes back to a head that is served, with a BENCH_CAP in force, outside a drain and a shut-down, with no GPF
phase 1 noted, with fewer than 256 credits out, and with room for one more line under BENCH_CAP and one more staging
entry: the head's credits rise by one and a credit is sent; where any of these fails, nothing changes but time. PERST#
deasserted on a head that no self-test has retired: the reset ends, configuration space answers and Memory_Info_Valid is
set (R331, R681). On such a head, out of reset, whose PHY rail stands, a link comes up with the width trained and Memory_Active set
when memory is ready; a link goes down with its reads abandoned and its credits gone. On a head whose link is up, GPF
phase 1 is noted, and phase 2 is answered. -/
def Obligations.CreditsLinksAndGpf : Prop :=
  (∀ (s : State) (t : Nat) (h : Head),
    let d := s.before t
    d.serving h = true → d.bench.capGiven = true → d.bench.draining = false → d.life.shutting = none →
    (d.head h).gpf1 = false → (d.head h).credits < 256 →
    d.occupancy + d.reservedLines + 1 ≤ d.bench.cap → d.stagingUsed + d.reservedLines + 1 ≤ 8192 →
    exec (.creditReturn t h) s =
      .next (s.leave t ((d.onHead h (fun x => { x with credits := x.credits + 1 })).send (.credit h)))) ∧
  (∀ (s : State) (t : Nat) (h : Head),
    let d := s.before t
    d.serving h = false ∨ d.bench.capGiven = false ∨ d.bench.draining = true ∨ d.life.shutting ≠ none ∨
      (d.head h).gpf1 = true ∨ 256 ≤ (d.head h).credits ∨ d.bench.cap < d.occupancy + d.reservedLines + 1 ∨
      8192 < d.stagingUsed + d.reservedLines + 1 →
    s.idle (.creditReturn t h) t) ∧
  (∀ (s : State) (t : Nat) (h : Head),
    let d := s.before t
    (d.life.running = true → (d.head h).retired = false →
      exec (.perstDeassert t h) s =
        .next (s.leave t ((d.onHead h (fun x => { x with
          inReset := false, perstOffAt := d.now, cfgReady := true, memInfo := true, memTimeout := 3 })).send
          (.cfgReady h)))) ∧
    (∀ width : BitVec 4, d.life.running = true → (d.head h).inReset = false → (d.head h).retired = false →
      d.phyUp h = true →
      exec (.headLinkUp t h width) s =
        .next (s.leave t (d.onHead h (fun x => { x with linkUp := true, width := width, memActive := d.ready })))) ∧
    (d.life.running = true →
      exec (.headLinkDown t h) s =
        .next (s.leave t ((d.abandonReads h).onHead h (fun x => { x with
          linkUp := false, linkDownAt := if x.linkUp then d.now else x.linkDownAt, width := 0, memActive := false,
          credits := 0 })))) ∧
    (d.linked h = true →
      exec (.gpfPhase1 t h) s = .next (s.leave t (d.onHead h (fun x => { x with gpf1 := true }))) ∧
      exec (.gpfPhase2 t h) s = .next (s.leave t (d.send (.gpfDone h)))))

/-- The resets of a head while the controller runs. PERST#, a hot reset and a CXL Reset each abandon the head's reads,
drop the completions it owes, delete its queues, stop what it dumps or traces and its channels, and set its HDM decoders,
its GPF phase 1 note, its event interrupt policy and its alert configuration to their reset values. PERST# and a hot reset
take the link down too, with its credits gone, and PERST# holds the head in reset, where configuration space does not
answer. An FLR sets the function's event interrupt policy and alert configuration to 0 and changes nothing else. Which head
registers a reset returns is the model's choice (log entry 24). -/
def Obligations.HeadResetScopes : Prop :=
  ∀ (s : State) (t : Nat) (h : Head),
    let d := s.before t
    let d1 := ((((d.abandonReads h).dropHeld h).deleteQueues h).stopDumps h).resetChannels h
    d.life.running = true →
    exec (.headReset t h .hot) s =
      .next (s.leave t (d1.onHead h (fun x => { x with
        linkUp := false, linkDownAt := if x.linkUp then d1.now else x.linkDownAt, width := 0, memActive := false,
        credits := 0, gpf1 := false, hdm := Reset.head.hdm, hdmEn := false, policy := 0, alerts := 0 }))) ∧
    (let d2 := d1.onHead h (fun x => { x with
        linkUp := false, linkDownAt := if x.linkUp then d1.now else x.linkDownAt, width := 0, memActive := false,
        credits := 0, gpf1 := false, hdm := Reset.head.hdm, hdmEn := false, policy := 0, alerts := 0 })
     exec (.headReset t h .perst) s =
      .next (s.leave t (d2.onHead h (fun x => { x with
        inReset := true, resetAt := if x.inReset then x.resetAt else d2.now, cfgReady := false })))) ∧
    exec (.cxlReset t h) s =
      .next (s.leave t (d1.onHead h (fun x => { x with
        hdm := Reset.head.hdm, hdmEn := false, gpf1 := false, policy := 0, alerts := 0 }))) ∧
    exec (.flr t h) s = .next (s.leave t (d.onHead h (fun x => { x with policy := 0, alerts := 0 })))

/-- A PERST#, a hot reset, a CXL Reset and an FLR of a head (headReset, cxlReset, flr) each complete, whatever the head is
doing, while the controller runs. PERST# and a hot reset leave its link down with no credits, PERST# leaves the head in
reset; the four leave the event interrupt policy and the alerts at 0, and all but the FLR leave HDM decoding off. Where none
of its channels runs, PERST#, a hot reset and a CXL Reset leave none of its pairs, no read in flight for it and no completion
owed to it; a CXL Reset keeps its link and its credits; and the accepted writes, the cache, the medium, the regions with
their owners, the channels and the other head with its pairs stay. An FLR changes no more than that policy and those alerts
(which registers a reset returns: log entry 24). -/
def Obligations.HeadResetsComplete : Prop :=
  ∀ (s : State) (t : Nat) (h : Head),
    let d := s.before t
    let o := otherHead h
    let quiet := ∀ c, c < 32 → (d.chan c).owner = h → (d.chan c).state = 2 ∨
      ((d.chan c).en = false ∧ (d.chan c).stopping = false)
    let released (d' : Dev) : Prop :=
      (∀ i, i < 64 → (d'.pair (64 * headNum h + i)).state = .absent ∧
        d'.pair (64 * headNum o + i) = d.pair (64 * headNum o + i)) ∧
      (d'.head h).readsOut = 0 ∧
      (∀ x ∈ d'.lane.reads, ∀ w ∈ x.waiters, w ≠ .prefetch h ∧ ∀ tag sector at_, w ≠ .host h tag sector at_) ∧
      (∀ w ∈ d'.bench.held, w.head ≠ h) ∧
      d'.head o = d.head o ∧ d'.bench.entries = d.bench.entries ∧ d'.cache = d.cache ∧ d'.medium = d.medium ∧
      d'.sys = d.sys ∧ d'.dma = d.dma
    d.life.running = true →
    (∀ kind, ∃ d', exec (.headReset t h kind) s = .next (s.leave t d') ∧
      (d'.head h).linkUp = false ∧ (d'.head h).width = 0 ∧ (d'.head h).credits = 0 ∧ (d'.head h).hdmEn = false ∧
      (d'.head h).policy = 0 ∧ (d'.head h).alerts = 0 ∧ (kind = .perst → (d'.head h).inReset = true) ∧
      (quiet → released d')) ∧
    (∃ d', exec (.cxlReset t h) s = .next (s.leave t d') ∧
      (d'.head h).hdmEn = false ∧ (d'.head h).policy = 0 ∧ (d'.head h).alerts = 0 ∧
      (quiet → released d' ∧ (d'.head h).linkUp = (d.head h).linkUp ∧ (d'.head h).width = (d.head h).width ∧
        (d'.head h).credits = (d.head h).credits)) ∧
    (∃ d' y, exec (.flr t h) s = .next (s.leave t d') ∧ d' = d.setHead h y ∧
      y = { d.head h with policy := 0, alerts := 0 })

/-! ### The mailbox -/

/-- The reporting commands of R330 on a mailbox that is reached: each sends one reply with what the device
holds, and changes nothing but time. A read of label storage ends at its 128 KiB (log entry 146). -/
def Obligations.MailboxReports : Prop :=
  ∀ (s : State) (t : Nat) (h : Head),
    let d := s.before t
    let reply (r : Reply) : Host.Outcome State Fault Refusal :=
      .next (s.leave t (d.send (.mailbox h .success r)))
    d.boxOn h = true →
    (∀ log, exec (.getEventRecords t h log) s =
      reply (.events ((d.head h).logs.filter (fun r => decide (r.log = log)))
        (lget (d.head h).overflow (logIndex log)))) ∧
    exec (.getEventInterruptPolicy t h) s = reply (.policy (d.head h).policy) ∧
    exec (.getFwInfo t h) s = reply (.fwInfo (d.sec.runSlot.toNat.testBit 0) (d.sec.active.toNat.testBit 0)
      (d.sec.fw0.map FwImage.version) (d.sec.fw1.map FwImage.version)) ∧
    exec (.getTimestamp t h) s = reply (.timestamp ((d.now : Int) + d.ev.wallOffset).toNat) ∧
    exec (.getSupportedLogs t h) s = reply (.logs ["CEL"]) ∧
    exec (.getLog t h) s = reply (.cel celNames) ∧
    exec (.identifyMemoryDevice t h) s = reply (.identify 0 (d.capacity h) 131072) ∧
    exec (.getPartitionInfo t h) s = reply (.partition 0 (d.capacity h)) ∧
    exec (.getHealthInfo t h) s = reply (.health (d.ev.attnLevel (.head h)) d.lifetime.dirty) ∧
    exec (.getAlertConfiguration t h) s = reply (.alerts (d.head h).alerts) ∧
    (∀ off n, exec (.getLsa t h off n) s =
      reply (.bytes (readBytes (d.labels h) off (min n (131072 - off))))) ∧
    exec (.getPoisonList t h) s = reply (.poison (d.poisonList h))

/-- The commands of R330 that set something, on a mailbox that is reached: the interrupt policy, the alert
configuration, the removal of records from a log, bytes of the firmware buffer, label storage line by line within its
128 KiB (log entry 146), and the time, where a value other than 0 acts as a SET_TIME. Each replies Success, but Transfer FW,
which replies that its background operation has started and, in the same step (log entry 177), that it has ended. Set
Partition Info, and every opcode that R330 does not list, reply Unsupported and change nothing but time. -/
def Obligations.MailboxSets : Prop :=
  (∀ (s : State) (t : Nat) (h : Head),
    let d := s.before t
    let done (d : Dev) : Host.Outcome State Fault Refusal :=
      .next (s.leave t (d.send (Sent.mailbox h .success .none)))
    d.boxOn h = true →
    (∀ p, exec (.setEventInterruptPolicy t h p) s = done (d.onHead h (fun x => { x with policy := p }))) ∧
    (∀ c, exec (.setAlertConfiguration t h c) s = done (d.onHead h (fun x => { x with alerts := c }))) ∧
    (∀ log handles, exec (.clearEventRecords t h log handles) s =
      done (d.onHead h (fun x => { x with
        logs := x.logs.filter (fun r => !(decide (r.log = log) &&
          (handles.isEmpty || handles.any (fun k => k.toNat == r.handle % 65536)))),
        overflow := x.overflow.set (logIndex log) 0 }))) ∧
    (∀ off bytes, exec (.transferFw t h off bytes) s =
      .next (s.leave t (({ d with
        sec := { d.sec with
          download := writeBytes d.sec.download off.toNat bytes,
          loaded := d.sec.loaded ++ [(off.toNat, bytes.length)] },
        out := d.out ++ [Sent.mailbox h .started .none] } : Dev).send (.backgroundDone h .success)))) ∧
    (∀ off bytes, exec (.setLsa t h off bytes) s =
      done (d.each (storePieces off (bytes.take (131072 - off))) (fun d p =>
        d.sysPut (.label (decide (h = .b)) p.1 p.2)))) ∧
    (∀ ns : Word, ns ≠ 0 → exec (.setTimestamp t h ns) s = done (d.takeTime ns.toNat))) ∧
  (∀ (s : State) (t : Nat) (h : Head), (s.before t).boxOn h = true →
    exec (.setPartitionInfo t h) s = .next (s.leave t ((s.before t).send (.mailbox h .unsupported .none))) ∧
    ∀ opcode, exec (.mailboxUnsupported t h opcode) s =
      .next (s.leave t ((s.before t).send (.mailbox h .unsupported .none))))

/-- A commit runs the checks of R696 in its order, and an image that passes them all starts (Dev.startCommit). The two
ways to ask for one are Activate FW over a mailbox that is reached, and FW_COMMIT with no commit in progress.
CLUSTER_RELOAD_DONE for a held cluster whose active slot can be loaded runs that slot on it. -/
def Obligations.FirmwareCommits : Prop :=
  (∀ (d : Dev) (a : FwAsker) (slot : Bool) (mask : BitVec 4) (activate : Bool),
    let m := d.sec.download
    let len := hdr m 20 4
    d.commitFw a slot mask activate =
      if mask = 0 ∨ mask &&& ~~~(BitVec.ofNat 4 (hdr m 6 1)) ≠ 0 then d.answerFw a 0x102
      else if (upTo 4).any (fun c => !mask.toNat.testBit c && decide (d.sec.active.toNat.testBit c = slot)) then
        d.answerFw a 0x102
      else if d.sec.commit.isSome then d.answerFw a 0x601
      else if covered d.sec.loaded 256 = false ∨ covered d.sec.loaded len = false ∨ len < 256 ∨ len % 4096 ≠ 0 ∨
          2 ^ 25 < len then d.answerFw a 0x408
      else if d.imageCheck m len = false then (d.event (evSecurity 6)).answerFw a 0x408
      else d.startCommit a slot mask activate (bufferImage m len)) ∧
  (∀ (s : State) (t : Nat),
    let d := s.before t
    (∀ h slot mask activate, d.boxOn h = true →
      exec (.activateFw t h slot mask activate) s =
        .next (s.leave t (d.commitFw (.box h) slot mask activate))) ∧
    (∀ qid cid x, d.performs 0x0A qid cid x → d.sec.commit = none →
      exec (.fwCommit t qid cid) s =
        .next (s.leave t (d.commitFw (.cmd x.qid x.cid) ((x.p 0).toNat.testBit 0) (BitVec.ofNat 4 (x.pn 0 4 4))
          ((x.p 0).toNat.testBit 8)))) ∧
    (∀ c : Fin 4, d.life.running = true → d.sec.held.toNat.testBit c.val = true →
      d.loadable (d.sec.active.toNat.testBit c.val) c.val = true →
      exec (.clusterReloadDone t c) s =
        .next (s.leave t (d.runOn c.val (d.sec.active.toNat.testBit c.val)))))

/-! ### Queues -/

/-- A doorbell of an ACTIVE queue of a head that is reached moves the place it names; an SQ tail outside the ring, and
a CQ head outside it or past the tail, put the queue in ERROR with cause 1 and 2. A pair that enters ERROR keeps all but
its state and its cause, and no other pair changes. -/
def Obligations.DoorbellsMoveTheRing : Prop :=
  (∀ (s : State) (t : Nat) (h : Head) (q : Fin 64) (v : BitVec 32),
    let d := s.before t
    let qid := 64 * headNum h + q.val
    let p := d.pair qid
    let n := fld v.toNat 0 12
    d.headOn h = true → p.state = .active →
    exec (.sqTailDb t h q v) s =
      .next (s.leave t (if n < p.sqDepth then d.setPair qid { p with sqTail := n } else d.pairError qid 1)) ∧
    exec (.cqHeadDb t h q v) s =
      .next (s.leave t
        (if n < p.cqDepth ∧ (n + p.cqDepth - p.cqHead) % p.cqDepth ≤ (p.cqTail + p.cqDepth - p.cqHead) % p.cqDepth
         then d.setPair qid { p with cqHead := n } else d.pairError qid 2))) ∧
  (∀ (d : Dev) (qid cause : Nat), qid < 128 → (d.pair qid).state = .active →
    (d.pairError qid cause).pair qid = { d.pair qid with state := .error, errCause := cause } ∧
    ∀ j, j ≠ qid → (d.pairError qid cause).pair j = d.pair j)

/-- A fetch goes to the queue whose turn it is (Dev.nextQueue), below ATTN 7, with fewer than 1,024 commands of the
head in flight and no request traced: its SQ head moves on, a slot of its CQ is reserved, and the request leaves. At
ATTN 7, or with 1,024 or more in flight, nothing changes but time. While a cluster serves the queues, the oldest fetch
of a queue whose ring lies in host memory ends: its entry is checked (Dev.entryData), poison ends it with POISON_CONSUMED under CID 0xFFFF, and an error of
the link puts the queue in ERROR with cause 3 and frees the slot. -/
def Obligations.FetchesReserveAndEnd : Prop :=
  (∀ (s : State) (t : Nat) (h : Head) (q : Nat),
    let d := s.before t
    let qid := 64 * headNum h + q
    let p := d.pair qid
    (d.ev.attnLevel (.head h) = 7 ∨ 1024 ≤ d.inFlight h → s.idle (.sqFetch t h) t) ∧
    (d.headOn h = true → d.queuesServed = true → d.untraced → d.inFlight h < 1024 →
      d.ev.attnLevel (.head h) ≠ 7 → d.nextQueue h = some q →
      exec (.sqFetch t h) s =
        .next (s.leave t
          (((d.setPair qid { p with
            sqHead := (p.sqHead + 1) % p.sqDepth, slots := p.slots + 1,
            fetching := p.fetching ++ [{ index := p.sqHead, start := d.now, seq := d.ev.headSeq,
                                         toggle := d.ev.toggle, tag := none }] }).setRr h ((q + 1) % 64)).send
            (.fetch qid p.sqHead))))) ∧
  (∀ (s : State) (t : Nat) (qid : BitVec 7) (f : Fetch) (rest : List Fetch),
    let d := s.before t
    let n := qid.toNat
    let d1 := d.setPair n { d.pair n with fetching := rest }
    d.life.running = true → d.queuesServed = true → (d.pair n).fetching = f :: rest →
    mtype (d.pair n).sqBase = 0 →
    (∀ e, exec (.sqEntryArrive t qid (.data e)) s = .next (s.leave t (d1.entryData n f e))) ∧
    exec (.sqEntryArrive t qid .poison) s = .next (s.leave t (d1.endEntry n 0xFFFF 0x205 f)) ∧
    exec (.sqEntryArrive t qid .linkError) s =
      .next (s.leave t (((d1.pairError n 3).onPair n (fun p => { p with slots := p.slots - 1 })).traceEndIf
        (traceTag f.tag))))

/-- With no request traced, an entry with a free CID that no check of R404 ends is a command: it takes the next order
of fetch, and one that is not ORDERED is kept with its words and started at once. ORDERED_START of a command not yet
started starts it where it is not ORDERED, or where no command of its queue, of those that were fetched before it, is
executing and no completion of its queue waits; where such a command is executing, nothing changes but time. -/
def Obligations.CommandsStartInOrder : Prop :=
  (∀ (d : Dev) (qid : Nat) (f : Fetch) (e : Sector),
    let op := fld e.toNat 0 8
    let flags := fld e.toNat 8 8
    let cid := fld e.toNat 16 16
    let ps := (upTo 7).map (fun i => BitVec.ofNat 64 (fld e.toNat (64 + 64 * i) 64))
    let x : Exec :=
      { qid := qid, cid := cid, opcode := op, ordered := flags.testBit 0, params := ps, started := false,
        order := d.q.order, fetchAt := f.start, orphan := false, tag := none, seqAt := f.seq, toggleAt := f.toggle,
        parked := false, checked := false, cluster := 0 }
    d.untraced → f.tag = none → cid ≠ 0xFFFF →
    d.q.exec.any (fun y => y.qid == qid && y.cid == cid && !y.orphan) = false →
    d.rejects qid op flags (fld e.toNat 32 32) ps = none →
    (d.entryData qid f e).q.order = d.q.order + 1 ∧
    (x.ordered = false → x ∉ d.q.exec →
      (d.entryData qid f e).q.exec = d.q.exec ++ [{ x with started := true, cluster := d.servedBy qid }])) ∧
  (∀ (s : State) (t : Nat) (qid : BitVec 7) (cid : BitVec 16) (x : Exec),
    let d := s.before t
    d.life.running = true →
    d.q.exec.find? (fun y => y.qid == qid.toNat && y.cid == cid.toNat && !y.started) = some x →
    (x.ordered = false ∨ ((∀ y ∈ d.q.exec, y.qid = x.qid → x.order ≤ y.order) ∧ d.postPending x.qid = false) →
      exec (.orderedStart t qid cid) s = .next (s.leave t (d.start x))) ∧
    (x.ordered = true → (∃ y ∈ d.q.exec, y.qid = x.qid ∧ y.orphan = x.orphan ∧ y.order < x.order) →
      s.idle (.orderedStart t qid cid) t))

/-- A queue with interrupts on, entries posted since its last message and an ITIME other than 0 that has run since the
oldest of them sends its message and counts anew. On a head that is reached, ADMQ_EN 1 with a good ADMQ_CFG notes the
enable, with a bad one it also sets the admin pair's error cause to 1, ADMQ_EN 0 deletes the admin pair, and ADMQ_RDY of an enabled pair that is absent makes it ACTIVE with the bases,
depths and vector of its registers. -/
def Obligations.CoalescedInterruptAndAdminPair : Prop :=
  ∀ (s : State) (t : Nat),
    let d := s.before t
    (∀ qid : BitVec 7, (d.pair qid.toNat).ien = true → 0 < (d.pair qid.toNat).posted →
      (d.pair qid.toNat).itime ≠ 0 → (d.pair qid.toNat).oldestAt + (d.pair qid.toNat).itime * 1000 ≤ d.now →
      exec (.msixItimeExpire t qid) s =
        .next (s.leave t ((d.setPair qid.toNat { d.pair qid.toNat with posted := 0 }).send
          (.msix (headOfQid qid.toNat) (d.pair qid.toNat).vector)))) ∧
    (∀ (h : Head) (v : BitVec 32), d.headOn h = true →
      (v.toNat.testBit 0 = true → (d.adm h).en = false → cfgOk (d.adm h).cfg.toNat = true →
        exec (.admqEn t h v) s =
          .next (s.leave t (d.setAdm h { d.adm h with en := true, rdy := false, enAt := d.now }))) ∧
      (v.toNat.testBit 0 = true → (d.adm h).en = false → cfgOk (d.adm h).cfg.toNat = false →
        exec (.admqEn t h v) s =
          .next (s.leave t ((d.setAdm h { d.adm h with en := true, rdy := false, enAt := d.now }).onPair
            (64 * headNum h) (fun p => { p with errCause := 1 })))) ∧
      (v.toNat.testBit 0 = false → (d.adm h).en = true →
        exec (.admqEn t h v) s =
          .next (s.leave t ((d.setAdm h { d.adm h with en := false, rdy := false }).deletePair (64 * headNum h)
            none))) ∧
      ((d.adm h).en = true → (d.adm h).rdy = false → cfgOk (d.adm h).cfg.toNat = true →
        (d.pair (64 * headNum h)).state = .absent →
        exec (.admqRdy t h) s =
          .next (s.leave t ((d.setAdm h { d.adm h with rdy := true }).setPair (64 * headNum h)
            { Reset.qpair with
              state := .active, sqBase := (d.adm h).sqBase, cqBase := (d.adm h).cqBase,
              sqDepth := fld (d.adm h).cfg.toNat 0 12 + 1, cqDepth := fld (d.adm h).cfg.toNat 12 12 + 1,
              vector := fld (d.adm h).cfg.toNat 24 6, ien := (d.adm h).cfg.toNat.testBit 30, icount := 1,
              itime := 0 }))))

/-- A completion entry posted on an ACTIVE pair whose ring lies in host memory, over a link that is up: its 16 bytes are the
first thing sent, to the place of CQ tail; the tail moves past it, PHASE inverts at the wrap, the reserved slot is freed, and
no other pair changes. Over a link that is down nothing is sent and the pair enters ERROR with cause 4 (the model's reading of
a host-memory write error, log entry 74). -/
def Obligations.CompletionIsPosted : Prop :=
  ∀ (d : Dev) (qid cid status result : Nat) (urgent : Bool), qid < 128 →
    let p := d.pair qid
    let d1 := d.post qid cid status result none urgent
    p.state = .active → mtype p.cqBase = 0 →
    ((d.head (headOfQid qid)).linkUp = true →
      (∃ l, d1.out = d.out ++ [.hostWrite (headOfQid qid) (addrOf p.cqBase + 16 * p.cqTail)
        (d.cplBytes qid cid status result none)] ++ l) ∧
      (d1.pair qid).slots = p.slots - 1 ∧
      (d1.pair qid).cqTail = (if p.cqTail + 1 = p.cqDepth then 0 else p.cqTail + 1) ∧
      (d1.pair qid).phase = (if p.cqTail + 1 = p.cqDepth then !p.phase else p.phase)) ∧
    ((d.head (headOfQid qid)).linkUp = false →
      d1.out = d.out ∧ d1.pair qid = { p with state := .error, errCause := 4, slots := p.slots - 1 }) ∧
    (∀ j, j ≠ qid → d1.pair j = d.pair j)

/-! ### Native commands 0x01 to 0x0A -/

/-- A command's result goes where its address word says, and the command completes: into host memory, into scratch, or
into device memory line by line (Dev.storeAll), where a dead line makes the status BARRIER_LOST_STORE and the result 0; a
range in no live window does the same, and each of its lines counts as lost. A region that refuses stores in EXPOSED ends
the command with EXPOSED_READ_ONLY, nothing is stored, and the head counts one refused store (log entry 173). While line writes of the command wait for the Bench, its
completion waits behind them. -/
def Obligations.ResultsAreDelivered : Prop :=
  ∀ (d : Dev) (ans : Answers) (x : Exec) (w : Word) (bs : List Byte) (result : Nat),
    (mtype w = 0 → d.deliver ans x w bs result =
      (d.send (.hostWrite (issuer x) (addrOf w) bs)).complete x stSuccess result) ∧
    (mtype w = 2 → d.deliver ans x w bs result = (d.scratchStore (addrOf w) bs).complete x stSuccess result) ∧
    (d.saveRefused (issuer x) w bs.length = true →
      d.deliver ans x w bs result = (d.refusedStore (issuer x) 1).complete x 0x606 0) ∧
    (∀ id r off, mtype w = 1 → d.saveRefused (issuer x) w bs.length = false →
      d.liveRange (issuer x) (addrOf w) bs.length = some (id, r, off) →
      let y := d.storeAll ans (.cmd x.order) (issuer x) id off bs
      d.deliver ans x w bs result = y.1.complete x (if y.2 then 0x204 else 0x000) (if y.2 then 0 else result)) ∧
    (mtype w = 1 → d.liveRange (issuer x) (addrOf w) bs.length = none →
      d.deliver ans x w bs result =
        (d.lostStore (issuer x) (linePieces (addrOf w % 256) bs.length).length).complete x 0x204 0) ∧
    (∀ status, d.waits x = true → d.complete x status result = d.addLater (.ends x.order status result))

/-- IDENTIFY, REGION_QUERY of a user region that is there and, once the device is formatted, of a SYSTEM region (ID 1,008 and
above), and EVENT_READ of 1 to 4,096 records from a sequence that is not
past the next one, each with a buffer it can use, deliver their bytes through the address word they name (Dev.deliver);
EVENT_READ answers with the number of records and the sequence after the last. -/
def Obligations.QueriesDeliverTheirData : Prop :=
  ∀ (s : State) (t : Nat) (qid : BitVec 7) (cid : BitVec 16) (x : Exec),
    let d := s.before t
    (d.performs 0x01 qid cid x → d.bufferOk (issuer x) (x.p 0) 4096 = true →
      exec (.identify t qid cid) s =
        .next (s.leave t (d.deliver noAnswers x (x.p 0) d.identifyBytes 0))) ∧
    (∀ r, d.performs 0x13 qid cid x → x.pn 0 0 10 < 1008 → d.region (x.pn 0 0 10) = some r →
      d.bufferOk (issuer x) (x.p 1) 64 = true →
      exec (.regionQuery t qid cid) s =
        .next (s.leave t (d.deliver noAnswers x (x.p 1) (queryBytes (x.pn 0 0 10) r) 0))) ∧
    (d.performs 0x13 qid cid x → 1008 ≤ x.pn 0 0 10 → d.life.formatted = true →
      d.bufferOk (issuer x) (x.p 1) 64 = true →
      exec (.regionQuery t qid cid) s =
        .next (s.leave t (d.deliver noAnswers x (x.p 1) (systemBytes (x.pn 0 0 10)) 0))) ∧
    (d.performs 0x07 qid cid x → 1 ≤ x.pn 0 32 16 → x.pn 0 32 16 ≤ 4096 →
      seqLater (BitVec.ofNat 32 (x.pn 0 0 32)) (d.ev.headSeq + 1) = false →
      d.bufferOk (issuer x) (x.p 1) (64 * x.pn 0 32 16) = true →
      let l := ((d.ev.log.filter (fun r => !seqLater (BitVec.ofNat 32 (x.pn 0 0 32)) r.seq)).reverse).take
        (x.pn 0 32 16)
      let next := match l.getLast? with
        | some r => (r.seq + 1).toNat
        | none => (BitVec.ofNat 32 (x.pn 0 0 32)).toNat
      exec (.eventRead t qid cid) s =
        .next (s.leave t (d.deliver noAnswers x (x.p 1) (l.flatMap logBytes) (l.length + 65536 * next))))

/-- CREATE_QPAIR of an absent I/O pair of the issuing head, with depths above 1 and two rings that are aligned and
usable, makes it ACTIVE with the depths, the vector and the coalescing it names. DELETE_QPAIR of an ACTIVE I/O pair of
that head drops its fetches, its WATCHes and what waits to be posted on it, and notes the command; the pair goes, and
the command completes, once no command of it is left (Dev.finishDelete). -/
def Obligations.QueuePairsAreMadeAndDeleted : Prop :=
  ∀ (s : State) (t : Nat) (qid : BitVec 7) (cid : BitVec 16) (x : Exec),
    let d := s.before t
    let q := x.pn 0 0 7
    q / 64 = x.qid / 64 → q % 64 ≠ 0 →
    (d.performs 0x02 qid cid x → (d.pair q).state = .absent → x.pn 0 8 12 ≠ 0 → x.pn 0 20 12 ≠ 0 →
      ringField (x.p 1) = true → ringField (x.p 2) = true →
      d.bufferOk (issuer x) (x.p 1) (64 * (x.pn 0 8 12 + 1)) = true →
      d.bufferOk (issuer x) (x.p 2) (16 * (x.pn 0 20 12 + 1)) = true →
      exec (.createQpair t qid cid) s =
        .next (s.leave t ((d.setPair q
          { Reset.qpair with
            state := .active, sqBase := x.p 1, cqBase := x.p 2, sqDepth := x.pn 0 8 12 + 1,
            cqDepth := x.pn 0 20 12 + 1, vector := x.pn 0 32 6, ien := (x.p 0).toNat.testBit 38,
            icount := x.pn 0 40 8, itime := x.pn 0 48 8 }).complete x stSuccess 0))) ∧
    (d.performs 0x03 qid cid x → (d.pair q).state = .active → (d.pair q).deleter ≠ some (x.qid, x.cid) →
      exec (.deleteQpair t qid cid) s =
        .next (s.leave t
          (((({ d with q := { d.q with
              exec := d.q.exec.filter (fun y => !(y.qid == q && y.opcode == 5)) } } : Dev).dropPosts q).onPair q
            (fun p => { p with state := .deleting, fetching := [], deleter := some (x.qid, x.cid) })).finishDelete
            q)))

/-- SET_TIME of a value other than 0 takes effect at once from memory ready on (Dev.applyTime), and answers with
OFF_CASE; before that the value is held. SELF_TEST while no in-service test runs: a lane or die in Detour starts its
test, and the command waits; LOGIC asks for a BIST at the next start and completes. FW_DOWNLOAD of whole 4 KiB pieces
from host memory, inside the 32 MiB buffer, puts the bytes there, and with poison among them ends with POISON_CONSUMED. 100 ms after cluster 2 or 3 of a live update stopped
fetching, with no CLUSTER test running, the commands it still runs are interrupted. -/
def Obligations.TimeTestsAndDownloads : Prop :=
  (∀ (s : State) (t : Nat) (qid : BitVec 7) (cid : BitVec 16) (x : Exec),
    let d := s.before t
    d.performs 0x04 qid cid x → x.p 0 ≠ 0 →
    (d.memoryReady = true →
      exec (.setTime t qid cid) s =
        .next (s.leave t ((d.applyTime (x.p 0).toNat).complete x stSuccess
          (d.applyTime (x.p 0).toNat).therm.offCase.toNat))) ∧
    (d.memoryReady = false →
      exec (.setTime t qid cid) s =
        .next (s.leave t (({ d with q := { d.q with heldTime := some (x.p 0) } }).complete x stSuccess
          d.therm.offCase.toNat)))) ∧
  (∀ (s : State) (t : Nat) (qid : BitVec 7) (cid : BitVec 16) (x : Exec),
    let d := s.before t
    (∀ bist, d.performs 0x08 qid cid x → d.testers = [] →
      (x.pn 0 0 4 = 1 → d.scopeState (x.pn 0 4 4) none = .detour →
        exec (.selfTest t qid cid bist) s =
          .next (s.leave t (d.startTest (x.pn 0 4 4) none (some (x.qid, x.cid))))) ∧
      (x.pn 0 0 4 = 2 → d.posUsed (x.pn 0 8 3) = true →
        d.scopeState (x.pn 0 4 4) (some (x.pn 0 8 3)) = .detour →
        exec (.selfTest t qid cid bist) s =
          .next (s.leave t (d.startTest (x.pn 0 4 4) (some (x.pn 0 8 3)) (some (x.qid, x.cid))))) ∧
      (x.pn 0 0 4 = 3 →
        exec (.selfTest t qid cid bist) s =
          .next (s.leave t (({ d with life := { d.life with bistNext := true } }).complete x stSuccess 0)))) ∧
    (∀ host, d.performs 0x09 qid cid x → 0 < x.pn 2 0 32 → x.pn 2 0 32 % 4096 = 0 →
      x.pn 0 0 32 + x.pn 2 0 32 ≤ 2 ^ 25 → mtype (x.p 1) = 0 →
      (hostBad host (addrOf (x.p 1)) (x.pn 2 0 32) = [] →
        exec (.fwDownload t qid cid host) s =
          .next (s.leave t ((d.downloadFw (x.pn 0 0 32) (d.hostLoad host (addrOf (x.p 1)) (x.pn 2 0 32))).complete x
            stSuccess 0))) ∧
      (hostBad host (addrOf (x.p 1)) (x.pn 2 0 32) ≠ [] →
        exec (.fwDownload t qid cid host) s = .next (s.leave t (d.complete x 0x205 0)))) ∧
    (∀ (c : Fin 4) (f : FwCommit) (l : List Nat), d.life.running = true → d.sec.commit = some f →
      f.durable = true → f.todo = c.val :: l → 2 ≤ c.val → f.startAt + 100 * 1000000 ≤ d.now →
      d.life.clusterTest = none →
      exec (.clusterUpdateCmdTimeout t c) s = .next (s.leave t (d.interruptRunning c.val f.since))))

/-- A WATCH completes at once when something has changed since its fetch; else it is parked while fewer than eight of
its head are, and refused with WATCH_LIMIT otherwise; a parked one with a TIMEOUT other than 0 completes with TIMED_OUT
set once that time has passed. A BARRIER completes with the counts LOST and REFUSED of its head and the status that R375
gives them, and sets both counts to 0; one whose completion is discarded leaves the counts. -/
def Obligations.WatchesAndBarriers : Prop :=
  (∀ (s : State) (t : Nat) (qid : BitVec 7) (cid : BitVec 16) (x : Exec),
    let d := s.before t
    d.performs 0x05 qid cid x →
    (x.parked = false → d.watchChanged x = true →
      exec (.watch t qid cid) s =
        .next (s.leave t (d.complete x stSuccess (65536 * d.ev.headSeq.toNat)))) ∧
    (x.parked = false → d.watchChanged x = false → d.watches (issuer x) < 8 →
      exec (.watch t qid cid) s =
        .next (s.leave t { d with q := { d.q with
          exec := d.q.exec.map (fun y => if y = x then { y with parked := true } else y) } })) ∧
    (x.parked = false → d.watchChanged x = false → 8 ≤ d.watches (issuer x) →
      exec (.watch t qid cid) s = .next (s.leave t (d.complete x 0x507 0))) ∧
    (x.parked = true → x.pn 0 16 16 ≠ 0 → x.fetchAt + x.pn 0 16 16 * 10 * 1000000 ≤ d.now →
      exec (.watchTimeout t qid cid) s =
        .next (s.leave t (d.complete x stSuccess (1 + 65536 * d.ev.headSeq.toNat))))) ∧
  (∀ (s : State) (t : Nat) (qid : BitVec 7) (cid : BitVec 16) (x : Exec),
    let d := s.before t
    let y := d.head (issuer x)
    d.performs 0x06 qid cid x →
    exec (.barrier t qid cid) s =
      .next (s.leave t ((if x.orphan then d
        else d.onHead (issuer x) (fun y => { y with lost := 0, refused := 0 })).complete x
        (if 0 < y.lost then 0x204 else if 0 < y.refused then 0x606 else 0x000) (y.lost + y.refused * 65536))))

/-! ### Regions -/

/-- REGION_CREATE with fields that stand for a region (regionOf), a size, for a DIRECT region a window that holds it and
for others none, a free ID, PLAINTEXT set for key ID 0, its key loaded, zones that the spares allow, at most 16 extents
of them, and a place for the window: the region enters the table with those extents and that window, the heads'
capacities follow, and the answer carries its ID and the window's base in units of 256 MiB. -/
def Obligations.RegionIsCreated : Prop :=
  ∀ (s : State) (t : Nat) (qid : BitVec 7) (cid : BitVec 16) (x : Exec) (r : Region) (id base : Nat)
    (ext : List (Nat × Nat)),
    let d := s.before t
    let zones := ceilDiv (x.p 1).toNat (zoneBytes r.prot)
    let dpa := if r.typ = .direct then ceilDiv (x.p 2).toNat (2 ^ 28) * 2 ^ 28 else 0
    d.performs 0x10 qid cid x → regionOf (x.p 0).toNat = some r → (x.p 1).toNat ≠ 0 →
    (r.typ = .direct → zones * zoneBytes r.prot ≤ dpa) → (r.typ ≠ .direct → (x.p 2).toNat = 0) →
    d.pickId (x.p 0).toNat = some id → (r.keyId = 0 → d.sec.plaintext = true) → d.keyLoaded r.keyId = true →
    d.spareRefuses zones = false → pickZones zones d.freeExtents = some ext → d.windowFor r dpa = some base →
    ext.length ≤ 16 →
    exec (.regionCreate t qid cid) s =
      .next (s.leave t (((d.sysPut (.region id (some
        { r with extents := ext, dpaBase := base, dpaSize := dpa }))).updateCapacities).complete x stSuccess (id + base / 2 ^ 28 * 1024)))

/-- Commands on a region that the issuing head owns. REGION_GROW of one that is not locked, with its keys loaded, no
INDEX region, under no rekey, to more zones that the spares, the window and 16 extents allow, lengthens it.
REGION_SET_ATTR rewrites the attributes it selects and queues the moves that a new profile asks for. REGION_DELETE of
one that is not locked and holds no object, with room for the journal records and nothing of its zones in flight, drops
it. REGION_UNLOCK of a locked one with its keys loaded clears the lock, logs it and posts a warning to both heads. The
check that most of them share, in its order: an absent region, one that another head owns, a locked one, and one without
its keys end the command with INVALID_REGION, NOT_OWNER, REGION_LOCKED and KEY_NOT_LOADED. -/
def Obligations.RegionsChange : Prop :=
  (∀ (s : State) (t : Nat) (qid : BitVec 7) (cid : BitVec 16) (x : Exec) (r : Region),
    let d := s.before t
    let id := x.pn 0 0 10
    d.region id = some r → ownsRegion (issuer x) r = true →
    (∀ l, let zones := ceilDiv (x.p 1).toNat (zoneBytes r.prot)
      d.performs 0x11 qid cid x → r.locked = false → d.regionKeyed r = true → r.typ ≠ .index → r.rekey = none →
      r.zones < zones → (r.typ = .direct → zones * zoneBytes r.prot ≤ r.dpaSize) →
      d.spareRefuses (zones - r.zones) = false → d.growZones r.extents (zones - r.zones) = some l →
      (joinExts r.extents l).length ≤ 16 →
      exec (.regionGrow t qid cid) s =
        .next (s.leave t ((d.sysPut (.region id (some { r with extents := joinExts r.extents l }))).complete x
          stSuccess zones))) ∧
    (let r' := setAttrs (x.pn 0 16 4) (x.p 1).toNat r
     d.performs 0x14 qid cid x → r.locked = false → d.regionKeyed r = true → x.pn 0 16 4 ≠ 0 → attrsOk r' = true →
      exec (.regionSetAttr t qid cid) s =
        .next (s.leave t (((d.sysPut (.region id (some r'))).profileMoves r').complete x stSuccess 0))) ∧
    (d.performs 0x12 qid cid x → r.locked = false → d.holdsObjects id r = false → d.journalFits r.zones = true →
      (∀ lz ∈ r.zoneList, d.zoneStill lz = true) →
      exec (.regionDelete t qid cid) s = .next (s.leave t ((d.dropRegion id r).complete x stSuccess 0))) ∧
    (d.performs 0x16 qid cid x → r.locked = true → d.regionKeyed r = true →
      exec (.regionUnlock t qid cid) s =
        .next (s.leave t ((((d.sysPut (.region id (some { r with locked := false }))).event
          (evSecurity 2)).moduleEventBoth .warning).complete x stSuccess 0)))) ∧
  (∀ (d : Dev) (x : Exec) (f : Dev → Nat → Region → Dev),
    (d.region (x.pn 0 0 10) = none → d.onUsable x f = d.complete x 0x105 0) ∧
    (∀ r, d.region (x.pn 0 0 10) = some r →
      (ownsRegion (issuer x) r = false → d.onUsable x f = d.complete x 0x607 0) ∧
      (ownsRegion (issuer x) r = true → r.locked = true → d.onUsable x f = d.complete x 0x403 0) ∧
      (ownsRegion (issuer x) r = true → r.locked = false → d.regionKeyed r = false →
        d.onUsable x f = d.complete x 0x402 0) ∧
      (ownsRegion (issuer x) r = true → r.locked = false → d.regionKeyed r = true →
        d.onUsable x f = f d (x.pn 0 0 10) r)))

/-- TAKEOVER of a region that is neither locked nor without its keys: RELEASE by an owner gives it to the owner it
names, FAILOVER by a head that does not own it gives it to that head when every owner has been in reset or without a link
for 100 ms, FORCE by a head that does not own it gives it to that head and is logged; where the mode's condition does not
hold, the command ends with TAKEOVER_REFUSED and the region stays. -/
def Obligations.TakeoverGivesTheRegion : Prop :=
  ∀ (s : State) (t : Nat) (qid : BitVec 7) (cid : BitVec 16) (x : Exec) (r : Region),
    let d := s.before t
    let id := x.pn 0 0 10
    let given (o : Owner) := (d.sysPut (.region id (some { r with owner := o }))).updateCapacities
    let ends (d : Dev) : Prop := exec (.takeover t qid cid) s = .next (s.leave t d)
    d.performs 0x15 qid cid x → d.region id = some r → r.locked = false → d.regionKeyed r = true →
    (∀ o, x.pn 0 16 2 = 0 → ownerOf (x.pn 0 24 2) = some o →
      (ownsRegion (issuer x) r = true → ends ((given o).complete x stSuccess 0)) ∧
      (ownsRegion (issuer x) r = false → ends (d.complete x 0x608 0))) ∧
    (x.pn 0 16 2 = 1 →
      (ownsRegion (issuer x) r = false → ownersDead d r = true →
        ends ((given (ownerOfHead (issuer x))).complete x stSuccess 0)) ∧
      (ownsRegion (issuer x) r = true ∨ ownersDead d r = false → ends (d.complete x 0x608 0))) ∧
    (x.pn 0 16 2 = 2 →
      (ownsRegion (issuer x) r = false →
        ends (((given (ownerOfHead (issuer x))).event (evHead (issuer x) 8)).complete x stSuccess 0)) ∧
      (ownsRegion (issuer x) r = true → ends (d.complete x 0x608 0)))

/-- DISCARD of whole lines of a DIRECT region that takes writes: the zones it covers whole are unbound once, and the
other lines are written with zeros one by one while the Bench has room; the command completes when all are, and is kept
with the lines that are left while some wait. SECURE_DISCARD does the same, selects its lines for write-back, and goes on
to its second part (Dev.secureNext) once all zero writes are made. zeroLines writes the four sectors of a line with zeros
and goes on, and stops at the first line for which there is no room. -/
def Obligations.DiscardZeroesTheRange : Prop :=
  ∀ (s : State) (t : Nat) (qid : BitVec 7) (cid : BitVec 16) (x : Exec) (r : Region) (lo hi : Nat),
    let d := s.before t
    let id := x.pn 0 0 10
    let y := if x.parked then zeroLines r id x.zeroLeft d
      else zeroLines r id (partLines r lo hi) (d.each (wholeZones r lo hi) (fun d k =>
        match r.zoneAt k with
        | some lz =>
          ((d.endReads lz).forget id (k * zoneLines r.prot) (k * zoneLines r.prot + zoneLines r.prot)).unbind lz
        | none => d))
    d.region id = some r → ownsRegion (issuer x) r = true → r.locked = false → d.regionKeyed r = true →
    r.typ = .direct → discardRange x r = some (lo, hi) →
    (∀ l ∈ partLines r lo hi, d.writeRefused r id l = false) → (x.parked = true ∨ d.discardOk r lo hi = true) →
    (d.performs 0x17 qid cid x →
      exec (.discard t qid cid) s =
        .next (s.leave t (if y.2 = [] then y.1.complete x stSuccess 0 else y.1.keep x y.2))) ∧
    (∀ media, d.performs 0x18 qid cid x →
      let d1 := (y.1.each (partLines r lo hi) (fun d l => d.selectLine r id l)).keep x y.2
      exec (.secureDiscard t qid cid media) s =
        .next (s.leave t (if y.2 = [] then d1.secureNext media (x.kept []) id r lo hi else d1).countMissed)) ∧
    (∀ d l rest,
      (d.roomForLine = true → zeroLines r id (l :: rest) d =
        zeroLines r id rest ((upTo 4).foldl (fun d s => d.acceptNow r id l s ⟨0, false, 0⟩) d)) ∧
      (d.roomForLine = false → zeroLines r id (l :: rest) d = (d, l :: rest)))

/-! ### Keys, sessions, rekey -/

/-- KEY_LOAD of 104 bytes that its source gives whole: a key that does not unwrap under the KWK ends with one event and
AUTH_FAIL, one whose two XTS halves are equal with INVALID_FIELD; another goes into the slot it names, or into the lowest
FREE one, and NO_KEY_SLOT ends it where none is. A FREE slot that no other load has asked for waits for its KEY_STATE
record; a LOADED or ABSENT one whose check value is the key's is LOADED at once, and another ends with KEY_IN_USE, as a
CLOSING one does. KEY_RETIRE of a LOADED slot that no rekey uses makes it CLOSING with a FLUSH asked of the maintenance
engine, and waits; of one in a rekey it ends with KEY_IN_USE, of one not LOADED with KEY_NOT_LOADED. ZEROISE from a head
with an owner session makes every LOADED slot CLOSING, and each ends ABSENT; from any other port that is reached it is
one event. -/
def Obligations.KeysAreLoadedAndClosed : Prop :=
  ((∀ (s : State) (t : Nat) (qid : BitVec 7) (cid : BitVec 16) (host : List HostBytes) (x : Exec),
    let d := s.before t
    let (d', b) := d.load host noAnswers (issuer x) (x.p 1) 104
    d.performs 0x20 qid cid x → d.cabWaits x = false → x.pn 2 0 16 = 104 →
    (x.pn 0 0 7 ≠ 0 ∨ (x.p 0).toNat.testBit 7 = true) → d.bufferOk (issuer x) (x.p 1) 104 = true →
    b.macFail = false → b.bad = [] →
    exec (.keyLoad t qid cid host) s =
      .next (s.leave t (match d'.sec.kwk.bind (fun w => keyUnwrap (leBytes 32 w.toNat) b.bytes) with
        | none => (d'.event (evSecurity 3)).complete x 0x404 0
        | some key =>
          if key.take 32 = (key.drop 32).take 32 then d'.complete x 0x102 0
          else if (x.p 0).toNat.testBit 7 then
            match d'.freeKeySlot with
            | none => d'.complete x 0x502 0
            | some k => d'.loadSlot x k key
          else d'.loadSlot x (x.pn 0 0 7) key))) ∧
  (∀ (d : Dev) (x : Exec) (k : Nat) (key : List Byte),
    ((d.slot k).state = .free → d.slotsAsked.contains k = false →
      d.loadSlot x k key = d.cabWrite cabKey k 8 (cabPayload [(0, 8, (checkValue key).toNat)])
        (.keyLoad x.qid x.cid k (BitVec.ofNat 768 (leNat key)))) ∧
    ((d.slot k).state = .loaded ∨ (d.slot k).state = .absent →
      d.loadSlot x k key =
        if (d.slot k).check = checkValue key then (d.putSlot k (loadedSlot key)).keyLoads x k
        else d.complete x 0x406 0) ∧
    ((d.slot k).state = .closing → d.loadSlot x k key = d.complete x 0x406 0))) ∧
  (∀ (s : State) (t : Nat),
    let d := s.before t
    (∀ qid cid x, d.performs 0x21 qid cid x → x.parked = false → x.pn 0 0 7 ≠ 0 →
      ((d.slot (x.pn 0 0 7)).state = .loaded → d.rekeying (x.pn 0 0 7) = false →
        exec (.keyRetire t qid cid) s = .next (s.leave t ((((d.putSlot (x.pn 0 0 7)
          { d.slot (x.pn 0 0 7) with state := .closing }).addWork (.keyFlush (x.pn 0 0 7) true))).park x))) ∧
      ((d.slot (x.pn 0 0 7)).state = .loaded → d.rekeying (x.pn 0 0 7) = true →
        exec (.keyRetire t qid cid) s = .next (s.leave t (d.complete x 0x406 0))) ∧
      ((d.slot (x.pn 0 0 7)).state ≠ .loaded →
        exec (.keyRetire t qid cid) s = .next (s.leave t (d.complete x 0x402 0)))) ∧
    (∀ h, d.portOn (.head h) = true → d.session (.head h) 1 = true →
      exec (.zeroise t (.head h)) s =
        .next (s.leave t ((((d.sec.slots.filter (fun p => decide (p.2.state = .loaded))).map Prod.fst).foldl
          (fun d k => (d.putSlot k { d.slot k with state := .closing }).addWork (.keyFlush k false)) d).zeroiseEnds))) ∧
    (∀ p, d.portOn p = true → (∀ h, p = .head h → d.session p 1 = false) →
      exec (.zeroise t p) s = .next (s.leave t (d.event (evSecurity 8)))))

/-- RANGE_REKEY from an owner of a region that is not locked and under no rekey, to another key, where both keys are
loaded, starts at boundary 0 with a LIMIT of one zone. A REKEY_STRIPE runs while background work does and no clearing goes
before it: past the region's lines the region is left under the new key, with one event; at LIMIT the next zone's LIMIT
is persisted; a zone not bound is passed over; at a stripe that cannot be taken yet nothing changes but time; where a
line's MAC failure must lock the region, it is recorded, the region is locked and the line is poisoned in the cache
(Dev.siblingMac); else the stripe is rewritten
(Dev.rekeyStripe), and BOUNDARY passes it when every line of it was kept. -/
def Obligations.RekeyMovesByStripes : Prop :=
  ∀ (s : State) (t : Nat) (id : BitVec 10) (r : Region),
    let d := s.before t
    d.region id.toNat = some r → r.locked = false →
    (∀ qid cid x, d.performs 0x22 qid cid x → x.pn 0 0 10 = id.toNat → ownsRegion (issuer x) r = true →
      x.pn 0 16 7 ≠ r.keyId → x.pn 0 16 7 ≠ 0 → d.keyLoaded r.keyId = true → d.keyLoaded (x.pn 0 16 7) = true →
      r.rekey = none →
      let q : Rekey :=
        { oldKey := r.keyId, newKey := x.pn 0 16 7, persist := 0, limit := min r.lines (zoneLines r.prot),
          boundary := 0, resumed := false }
      exec (.rangeRekey t qid cid) s =
        .next (s.leave t ((d.sysPut (.region id.toNat (some { r with rekey := some q }))).complete x stSuccess 0))) ∧
    (∀ media q, d.background = true → d.clearFirst = false → r.rekey = some q → d.keyLoaded q.oldKey = true →
      d.keyLoaded q.newKey = true →
      (r.lines ≤ q.boundary →
        exec (.rekeyStripe t id media) s =
          .next (s.leave t (((d.sysPut (.region id.toNat (some { r with keyId := q.newKey, rekey := none }))).event
            (evSecurity 7) (detailOf [(32, id.toNat), (34, q.oldKey), (35, q.newKey)])).countMissed))) ∧
      (q.boundary < r.lines → q.limit ≤ q.boundary →
        let q' : Rekey :=
          { q with persist := q.limit, limit := min r.lines (q.limit + zoneLines r.prot), resumed := false }
        exec (.rekeyStripe t id media) s =
          .next (s.leave t ((d.sysPut (.region id.toNat (some { r with rekey := some q' }))).countMissed))) ∧
      (∀ u c, q.boundary < r.lines → q.boundary < q.limit → d.lineStripe id.toNat r q.boundary = some (u, c) →
        (zMapped u.e = false →
          exec (.rekeyStripe t id media) s =
            .next (s.leave t ((d.setBoundary id.toNat r q
              (min q.limit ((q.boundary / zoneLines r.prot + 1) * zoneLines r.prot))).countMissed))) ∧
        (zMapped u.e = true → d.rekeyOk media u = false →
          exec (.rekeyStripe t id media) s = .next (s.leave t d.countMissed)) ∧
        (∀ y pass, zMapped u.e = true → d.rekeyOk media u = true → d.macStops media u = some (y, pass) →
          exec (.rekeyStripe t id media) s =
            .next (s.leave t ((d.siblingMac u.r y pass).countMissed))) ∧
        (zMapped u.e = true → d.rekeyOk media u = true → d.macStops media u = none →
          let d1 := (d.rekeyStripe media u q).1
          exec (.rekeyStripe t id media) s =
            .next (s.leave t (if (d.rekeyStripe media u q).2 then
              (d1.forgetMac (fun x => x.1 == id.toNat && u.data.any (fun c => c.lineNo == x.2))).setBoundary id.toNat r
                q (q.boundary + stripeLines r.prot) else d1).countMissed))))

/-- CABINET_AUTH that does not wait for a record, with its 32 B block read whole and neither poisoned nor
refused. OPEN of a locked partition ends with PARTITION_LOCKED; with the right secret it opens the session and clears the
failures; with a wrong one it counts a failure, logs it, locks the partition at the eighth with a second event, and ends
with AUTH_FAIL. CLOSE with an all-zero block ends the session. CHANGE with a session of the partition and a block that is
not all zero asks for a PASSWORD record with a fresh salt, and SET_KWK of the owner partition with its session for the KWK
record; neither completes here. A Cabinet write that ends durable for a KEY_LOAD makes its slot LOADED and goes on with the
KEY_LOAD; one that fails its read-back is made once more, and the second time, where no command waits for it, given up with
one event. SEC_CFG: without an owner session the write is discarded and logged; with one it sets PLAINTEXT_EN and LOCK,
unless LOCK stands or it would clear PLAINTEXT_EN while a region has key ID 0; then it is logged as a reserved value. -/
def Obligations.PartitionsAreOpenedBySecrets : Prop :=
  (∀ (s : State) (t : Nat) (qid : BitVec 7) (cid : BitVec 16) (host : List HostBytes) (x : Exec),
    let d := s.before t
    let part := x.pn 0 0 2
    let (d', b) := d.load host noAnswers (issuer x) (x.p 1) 32
    let ends (d : Dev) : Prop := exec (.cabinetAuth t qid cid host) s = .next (s.leave t d)
    d.performs 0x23 qid cid x → d.cabWaits x = false → part ≠ 3 → d.bufferOk (issuer x) (x.p 1) 32 = true →
    b.macFail = false → b.bad = [] →
    (x.pn 0 2 2 = 0 →
      (d'.partitionLocked part = true → ends (d'.complete x 0x405 0)) ∧
      (d'.partitionLocked part = false →
        ends (if d'.secretMatches part b.bytes then
          (let d1 := d'.putSession (.head (issuer x)) part true
           { d1 with sec := { d1.sec with fails := d'.sec.fails.set part 0 } }).complete x stSuccess 0
        else
          (let n := lget d'.sec.fails part + 1
           let d1 := ({ d' with sec := { d'.sec with fails := d'.sec.fails.set part n } }.event
             (evSecurity 3)).milestone 10
           if n = 8 then
             { d1 with sec := { d1.sec with locks := setBit d1.sec.locks part true } }.event (evSecurity 4)
           else d1).complete x 0x404 0))) ∧
    (x.pn 0 2 2 = 1 → leNat b.bytes = 0 →
      ends ((d'.putSession (.head (issuer x)) part false).complete x stSuccess 0)) ∧
    (x.pn 0 2 2 = 2 → d'.session (.head (issuer x)) part = true → leNat b.bytes ≠ 0 →
      ends ({ d' with draws := d'.draws + 1 }.cabWrite cabPassword part 48
        (cabPayload [(0, 16, (Config.freeSalt d'.draws).toNat),
          (16, 32, leNat (sha256 (leBytes 16 (Config.freeSalt d'.draws).toNat ++ b.bytes)))])
        (.change x.qid x.cid part))) ∧
    (x.pn 0 2 2 = 3 → part = 1 → d'.session (.head (issuer x)) 1 = true →
      ends (d'.cabWrite cabKwk 0 40 (cabPayload [(0, 40, leNat (keyWrap d'.rootKey b.bytes))])
        (.setKwk x.qid x.cid (BitVec.ofNat 256 (leNat b.bytes)))))) ∧
  (∀ (s : State) (t : Nat) (r : CabReq) (n : Nat),
    let d := s.before t
    d.pwr.vaux = true → d.cab.busy = some (r, n) →
    (∀ q c k key x, r.after = .keyLoad q c k key →
      d.q.exec.find? (fun y => y.qid == q && y.cid == c && y.opcode == 0x20) = some x →
      exec (.cabinetWriteDone t true) s =
        .next (s.leave t
          (({ d with cab := d.cab.done r }.putSlot k
            { state := .loaded, key := key, check := checkValue (leBytes 96 key.toNat) }).keyLoads x k))) ∧
    (n = 0 →
      exec (.cabinetWriteDone t false) s =
        .next (s.leave t { d with cab := { d.cab.put r true with busy := some (r, 1) } })) ∧
    (n ≠ 0 → r.after = .nothing →
      exec (.cabinetWriteDone t false) s =
        .next (s.leave t ({ d with cab := ({ d.cab.put r true with busy := none }).startNext }.event (evPlatform 23)
          (cabDetail r.pair (d.cab.target r.pair).1 r.typ.toNat r.id.toNat))))) ∧
  (∀ (s : State) (t : Nat) (p : Port) (v : BitVec 32),
    let d := s.before t
    d.portOn p = true →
    (d.session p 1 = false → exec (.secCfgWrite t p v) s = .next (s.leave t (d.event (evSecurity 3)))) ∧
    (d.session p 1 = true → d.sec.secLock = false → (v.toNat.testBit 0 = true ∨ d.plainRegion = false) →
      exec (.secCfgWrite t p v) s =
        .next (s.leave t { d with sec := { d.sec with
          plaintext := v.toNat.testBit 0, secLock := v.toNat.testBit 31 } })) ∧
    (d.session p 1 = true → (d.sec.secLock = true ∨ (v.toNat.testBit 0 = false ∧ d.plainRegion = true)) →
      exec (.secCfgWrite t p v) s = .next (s.leave t (d.regReserved p 0x22000))))

/-! ### Objects and engines -/

/-- OBJ_PUT by the owner of an index and a heap, neither locked nor without its keys, with good fields, a source it can
use, no line that EXPOSED refuses, no bucket of its key held, room for its own lines, and a token of the checksum and the
collection consumers each. Where no entry has its key, a slot can be had and the record a place: the record is reserved,
its source read whole, and its header and units staged; if they wait for the Bench, or in EXPOSED, the command is kept,
else the entry follows, the units are counted, the index counts one more, and the command answers with the locator (in
EXPOSED once the entry has verified). Where an entry has the key, the command ends with OBJ_EXISTS without REPLACE, and
with REPLACE it does the same over that slot, and the old record's units are taken off. No slot ends it with INDEX_FULL, a
slot but no place with HEAP_FULL. A command kept goes on by Dev.putNext. -/
def Obligations.ObjectPutWritesRecordThenEntry : Prop :=
  ∀ (s : State) (t : Nat) (qid : BitVec 7) (cid : BitVec 16) (host : List HostBytes) (media : Answers) (x : Exec)
    (ri rh : Region) (d0 d1 : Dev),
    let d := s.before t
    let ends (d : Dev) : Prop := exec (.objPut t qid cid host media) s = .next (s.leave t d.countMissed.goOn)
    let entered (d : Dev) (o : Slot) (loc : Nat) : Dev :=
      let d := (d.putEntry media (indexId x) ri o.bucket o.slot (putEntryOf x loc).bits).addUnits (heapId x) loc
        (putUnits x)
      let d := if o.entry = 0 then d.countEntry (indexId x) ri
        else d.addUnits (entryOf o.entry).heap (entryOf o.entry).loc (-((entryOf o.entry).units : Int))
      if d.bench.exposed then d.keep x [2, loc, o.bucket] else d.complete x stSuccess loc
    let puts (d : Dev) (k unit : Nat) (new : Bool) (o : Slot) : Prop :=
      let loc := k * rh.units + unit
      let y := (d.reserveRecord (heapId x) rh k unit (putUnits x) (objKey x) new).load host media (issuer x) (x.p 3)
        (putLen x)
      let d1 := ((y.1.digestBytes (putDigest x) (putLen x)).codeBytes (putK x * shardLen (putLen x) (putK x))).saveUnits x
        (heapId x) loc (BitVec.ofNat 512 (putHead x y.2.bytes).bits :: payloadUnits y.2.bytes (putK x) (putM x))
      y.2.macFail = false → y.2.firstBad = none →
      ends (if d1.bench.exposed || d1.waits x then d1.keep x [1, loc, o.bucket, o.slot] else entered d1 o loc)
    d.performs 0x30 qid cid x → d.granted [10, 11] d0 → d0.named x .index (indexId x) = .inr ri →
    d0.named x .heap (heapId x) = .inr rh →
    (x.parked = true → ends (d0.putNext media x ri rh)) ∧
    (x.parked = false → putBad x rh = false → d0.bufferOk (issuer x) (x.p 3) (putLen x) = true →
      d0.keyRefused (indexId x) ri (objKey x) = false → d0.recordRefused x rh = false →
      d0.keyFree (indexId x) ri (objKey x) = true → d0.roomFor (stripeLines rh.prot + 12) = true →
      (d0.lookup media (indexId x) ri (objKey x) = (d1, .inr none) →
        (∀ d2 b i k unit new, d1.makeSlot media (indexId x) ri (objKey x) = (d2, .slot (b, i)) →
          d1.placeRecord (heapId x) rh (putUnits x) = some (k, unit, new) → puts d2 k unit new ⟨b, i, 0⟩) ∧
        (∀ d2, d1.makeSlot media (indexId x) ri (objKey x) = (d2, .full) →
          ends ((d2.indexFull (indexId x)).complete x 0x503 0)) ∧
        (∀ d2 b i, d1.makeSlot media (indexId x) ri (objKey x) = (d2, .slot (b, i)) →
          d1.placeRecord (heapId x) rh (putUnits x) = none → ends (d1.complete x 0x506 0))) ∧
      (∀ o : Slot, d0.lookup media (indexId x) ri (objKey x) = (d1, .inr (some o)) →
        (putReplace x = false → ends (d1.complete x 0x302 0)) ∧
        (∀ k unit new, putReplace x = true → d1.placeRecord (heapId x) rh (putUnits x) = some (k, unit, new) →
          puts d1 k unit new o)))

/-- OBJ_GET, OBJ_DELETE and OBJ_STAT on an index that is the issuing head's, open and keyed, with no bucket of the key
held, the tokens they need, a buffer that OBJ_GET and OBJ_STAT can use, and room for the index lines that they may write.
A key that no entry holds ends each with OBJ_NOT_FOUND. OBJ_GET of an object whose bytes and digest read well stores the
bytes it names and answers with the object's length, with OBJ_TRUNCATED where the buffer is short; OBJ_DELETE frees the
entry's slot, takes the record's units off, and completes; OBJ_STAT stores the entry and answers with the length. -/
def Obligations.ObjectsAreFoundByKey : Prop :=
  ∀ (s : State) (t : Nat) (qid : BitVec 7) (cid : BitVec 16) (media : Answers) (x : Exec) (ri : Region) (d0 d1 : Dev),
    let d := s.before t
    let id := indexId x
    d0.named x .index id = .inr ri → d0.keyFree id ri (objKey x) = true →
    (d.performs 0x31 qid cid x → d.granted [10, 11] d0 → d0.bufferOk (issuer x) (x.p 3) (x.pn 4 0 32) = true →
      d0.pairWaits media id ri (objKey x) = false →
      (d0.lookup media id ri (objKey x) = (d1, .inr none) →
        exec (.objGet t qid cid media) s = .next (s.leave t ((d1.complete x 0x301 0).countMissed.goOn))) ∧
      (∀ o rh d2 d3 bs, d0.lookup media id ri (objKey x) = (d1, .inr (some o)) →
        let e := entryOf o.entry
        let n := min (x.pn 4 0 32) (e.len - x.pn 4 32 32)
        d1.heapOf e = .inr rh → x.pn 4 32 32 ≤ e.len →
        d1.objBytes media rh e (x.pn 4 32 32) n = (d2, bs, none) →
        d2.digestStop media rh e (x.pn 4 32 32) n bs = (d3, none) →
        exec (.objGet t qid cid media) s =
          .next (s.leave t ((d3.getEnd media x bs
            (if x.pn 4 0 32 < e.len - x.pn 4 32 32 then 0x305 else 0x000, e.len)).countMissed.goOn)))) ∧
    (d.performs 0x32 qid cid x → d.granted [10] d0 → d0.keyRefused id ri (objKey x) = false → d0.roomFor 2 = true →
      (d0.lookup media id ri (objKey x) = (d1, .inr none) →
        exec (.objDelete t qid cid media) s = .next (s.leave t ((d1.complete x 0x301 0).countMissed.goOn))) ∧
      (∀ o, d0.lookup media id ri (objKey x) = (d1, .inr (some o)) →
        let e := entryOf o.entry
        exec (.objDelete t qid cid media) s =
          .next (s.leave t (((((d1.putEntry media id ri o.bucket o.slot 0).uncountEntry id).addUnits e.heap e.loc
            (-(e.units : Int))).complete x stSuccess 0).countMissed.goOn)))) ∧
    (d.performs 0x34 qid cid x → d.granted [10] d0 → d0.bufferOk (issuer x) (x.p 3) 32 = true →
      d0.pairWaits media id ri (objKey x) = false →
      (d0.lookup media id ri (objKey x) = (d1, .inr none) →
        exec (.objStat t qid cid media) s = .next (s.leave t ((d1.complete x 0x301 0).countMissed.goOn))) ∧
      (∀ o, d0.lookup media id ri (objKey x) = (d1, .inr (some o)) →
        exec (.objStat t qid cid media) s =
          .next (s.leave t ((d1.getEnd media x (leBytes 32 o.entry) (stSuccess, (entryOf o.entry).len)).countMissed.goOn))))

/-- COLLECT of a heap region, while background work runs with a token of the collection consumer, no recount owed, the
journal open, no bucket held, and a source whose zone is still and for whose copies there are free tiles and 64 lines: a
source that no entry names is released, and another is walked and copied out, and released once nothing valid is left in
it, both when the entry writes are durable. OBJ_SECURE_DELETE that has begun goes on (Dev.secureObject); one that begins, with
no bucket of its key held and room for two lines, deletes the entry it finds and goes on. Where no zone is noted any more
and what the next step needs is there, it ends: with OBJ_NOT_FOUND where neither an entry nor a record was there, with
MEDIA_RESIDUE where something is left behind or, by the model's choice (log entry 185), a zone could not be walked, else
with SUCCESS. STRIPE_SEAL outside EXPOSED and a drain closes a stripe that
has waited its time, with room for its lines. -/
def Obligations.HeapZonesAreCollectedAndSealed : Prop :=
  (∀ (s : State) (t : Nat),
    let d := s.before t
    (∀ (region : BitVec 10) (media : Answers) (r : Region) (k lz : Nat) (d0 : Dev),
      let d1 := d0.noteRunning region.toNat r
      d.background = true → d.granted [11] d0 → d0.obj.recount = false → d0.region region.toNat = some r →
      r.typ = .heap → d0.journalOk = true → d0.noLocks = true →
      d1.sourceZone region.toNat r = some k → r.zoneAt k = some lz → d1.zoneStill lz = true →
      d1.targetFree region.toNat r = true → d1.roomFor 64 = true →
      ((d1.heapZone region.toNat k).validUnits = 0 → d1.entriesDurable = true →
        exec (.collect t region media) s =
          .next (s.leave t (((d1.releaseSource region.toNat r k).1.noteRunning region.toNat r).countMissed.goOn))) ∧
      (∀ d2, (d1.heapZone region.toNat k).validUnits ≠ 0 →
        d1.collectZone media region.toNat r k = (d2, .emptied) → d2.entriesDurable = true →
        exec (.collect t region media) s =
          .next (s.leave t (((d2.releaseSource region.toNat r k).1.noteRunning region.toNat r).countMissed.goOn)))) ∧
    (∀ qid cid media x ri d0 d1, d.performs 0x33 qid cid x → d.granted [10, 11] d0 →
      d0.named x .index (indexId x) = .inr ri →
      (x.parked = true →
        exec (.objSecureDelete t qid cid media) s =
          .next (s.leave t ((d0.secureObject media x (x.p 7).toNat).countMissed.goOn))) ∧
      (∀ o, x.parked = false → d0.keyRefused (indexId x) ri (objKey x) = false → d0.roomFor 2 = true →
        d0.keyFree (indexId x) ri (objKey x) = true →
        d0.lookup media (indexId x) ri (objKey x) = (d1, .inr (some o)) →
        exec (.objSecureDelete t qid cid media) s =
          .next (s.leave t (((d1.deleteEntry media (indexId x) ri o).secureObject media x 1).countMissed.goOn)))) ∧
    (∀ (region : BitVec 10) (target : Bool) (r : Region) (k : Nat),
      d.life.running = true → d.region region.toNat = some r → r.typ = .heap → d.bench.exposed = false →
      d.bench.draining = false → d.sealDue region.toNat r target = some k →
      d.roomFor (stripeLines r.prot) = true →
      exec (.stripeSeal t region target) s = .next (s.leave t (d.sealStripe region.toNat r k)))) ∧
  (∀ (d d1 : Dev) (media : Answers) (x : Exec) (flags : Nat) (whole : Bool),
    d.notedZones media (objKey x) = (d1, [], whole) →
    d1.journalOk = true → d1.noLocks = true → d1.entriesDurable = true → d1.roomFor 64 = true →
    d.secureObject media x flags =
      d1.complete x (if flags.testBit 0 = false then 0x301 else if flags.testBit 1 || !whole then 0x206 else 0x000) 0)

/-- EC_ENCODE, EC_RECONSTRUCT, VERIFY and CHECKSUM run turn by turn. One that is in its engine takes a turn
(Dev.engineTurn). One that is not enters it and takes its first: EC_ENCODE and EC_RECONSTRUCT the Reed-Solomon engine, with K
free streams, shard buffers that pass their checks, and no output that EXPOSED refuses; the K lowest survivors are the
inputs of EC_RECONSTRUCT, and its outputs the 1 to M shards its mask names. VERIFY and CHECKSUM enter the engine of their
digest, where one is free, with good fields and buffers. A turn that EC_ENCODE consumes adds to each output that is held the
parity of the bytes consumed. The end of a command, once all is released with no MAC failure, no poison and no shard too
few: EC_ENCODE and EC_RECONSTRUCT complete, with BARRIER_LOST_STORE where a store was dead; a byte compare answers with the
first difference, or with all ones; CHECKSUM stores the digest that its engine holds. -/
def Obligations.EnginesComputeOverBuffers : Prop :=
  (∀ (s : State) (t : Nat) (qid : BitVec 7) (cid : BitVec 16) (host : List HostBytes) (media : Answers) (x : Exec),
    let d := s.before t
    let turn (i : Instr) (d : Dev) : Prop := exec i s = .next (s.leave t ((d.engineTurn host media x).countMissed.goOn))
    (∀ j, d.job x.order = some j →
      (d.performs 0x38 qid cid x → turn (.ecEncode t qid cid host media) d) ∧
      (d.performs 0x39 qid cid x → turn (.ecReconstruct t qid cid host media) d) ∧
      (d.performs 0x3A qid cid x → turn (.verify t qid cid host media) d) ∧
      (d.performs 0x3B qid cid x → turn (.checksum t qid cid host media) d)) ∧
    (d.job x.order = none →
      (∀ d1 l, d.performs 0x38 qid cid x → d.shards host media x = (d1, .inr l) → ecK x ≤ d1.freeStreams.length →
        d1.storesRefused x (l.drop (ecK x)) (ecLen x) = false →
        turn (.ecEncode t qid cid host media)
          (d1.openJob x.order 0 0 (ecLen x) ((upTo (ecK x)).zip l) [] ((upTo (ecM x)).zip (l.drop (ecK x))))) ∧
      (∀ d1 l, d.performs 0x39 qid cid x → ecBad x = false → ecMask x < 2 ^ (ecK x + ecM x) →
        d.shards host media x = (d1, .inr l) → ecK x ≤ d1.freeStreams.length →
        let gone := erased x (ecK x + ecM x)
        let out := gone.map (fun i => (l[i]?).getD 0)
        let rest := ((upTo (ecK x + ecM x)).zip l).filter (fun p => !gone.contains p.1)
        gone ≠ [] → gone.length ≤ ecM x → d1.storesRefused x out (ecLen x) = false →
        turn (.ecReconstruct t qid cid host media)
          (d1.openJob x.order 0 0 (ecLen x) (rest.take (ecK x)) (rest.drop (ecK x)) (gone.zip out))) ∧
      (d.performs 0x3A qid cid x → x.pn 3 0 32 ≠ 0 → x.pn 0 0 3 ≤ 3 →
        let m := if x.pn 0 0 3 = 0 then x.pn 3 0 32 else digestLen (x.pn 0 0 3)
        let ins := if x.pn 0 0 3 = 0 then [x.p 1, x.p 2] else [x.p 1]
        d.bufferOk (issuer x) (x.p 1) (x.pn 3 0 32) = true → d.bufferOk (issuer x) (x.p 2) m = true →
        ∀ e, d.engineFor (x.pn 0 0 3) = some e → ins.length ≤ d.freeStreams.length →
        turn (.verify t qid cid host media)
          (d.openJob x.order e (x.pn 0 0 3) (x.pn 3 0 32) ((upTo ins.length).zip ins) [] [])) ∧
      (d.performs 0x3B qid cid x → x.pn 2 0 32 ≠ 0 → x.pn 0 0 3 ≠ 0 → x.pn 0 0 3 ≤ 3 →
        let dl := digestLen (x.pn 0 0 3)
        overlaps (x.p 3) dl (x.p 1) (x.pn 2 0 32) = false → d.bufferOk (issuer x) (x.p 1) (x.pn 2 0 32) = true →
        d.bufferOk (issuer x) (x.p 3) dl = true → d.saveRefused (issuer x) (x.p 3) dl = false →
        ∀ e, d.engineFor (x.pn 0 0 3) = some e → 1 ≤ d.freeStreams.length →
        turn (.checksum t qid cid host media)
          (d.openJob x.order e (x.pn 0 0 3) (x.pn 2 0 32) [(0, x.p 1)] [] [])))) ∧
  (∀ (d : Dev) (host : List HostBytes) (media : Answers) (x : Exec) (j : EngJob) (n : Nat), x.opcode = 0x38 →
    (d.consume host media x j n).eng.jobs = d.eng.jobs.filter (fun y => y.order != j.order) ++ [{ j with
      pos := j.pos + n, sum := sumStep j.dig j.sum j.pos (d.jobBytes j j.pos n), cut := none, stalled := false,
      held := List.zipWith (· ++ ·) j.held (j.outs.map (fun o => rsShard o.1 n (d.jobBytes j j.pos n))) }]) ∧
  (∀ (d : Dev) (host : List HostBytes) (media : Answers) (x : Exec) (j : EngJob), d.job x.order = some j →
    j.macFail = false → j.sure = j.stop x → j.poisoned x = none → j.cut = none →
    let d1 := d.dropJob j.order
    (x.opcode = 0x38 → d.tryEnd host media x = d1.complete x (if j.dead then 0x204 else 0x000) 0) ∧
    (x.opcode = 0x39 → d.tryEnd host media x =
      d1.complete x (if j.dead then 0x204 else 0x000) (if j.dead then 0 else ecMask x)) ∧
    (x.opcode = 0x3A → j.dig = 0 → d.tryEnd host media x =
      d1.complete x (if j.sum.diff = none then 0x000 else 0x304) (j.sum.diff.getD 0xFFFFFFFF)) ∧
    (x.opcode = 0x3B → d1.saveRefused (issuer x) (x.p 3) (digestLen j.dig) = false →
      let bs := sumEnd j.dig j.len j.sum
      let y := d1.saveCmd media x (x.p 3) bs
      d.tryEnd host media x = y.1.complete x (if y.2 then 0x204 else 0x000)
        (if y.2 then 0 else if j.dig = 1 then leNat bs else 0)))

/-! ### Lanes and the read path -/

/-- LANE_SENSE_START of a lane while the controller runs. Of each class of queued senses the one whose read came first is
due. A RECOVERY sense is due before a NORMAL one while fewer than twelve RECOVERY senses of the lane began in the last
2,500 ns; with twelve or more the wait is noted (Dev.noteAllowance) and the NORMAL one is due. The sense that is due starts,
and what then waits for the allowance is noted, unless its die senses another tile; then nothing starts. -/
def Obligations.LaneStartsTheSenseInTurn : Prop :=
  ∀ (s : State) (t : Nat) (lane : Fin 16),
    let d := s.before t
    let q := (d.lane1 lane.val).queue.filter isQueued
    let normal := firstSense (q.filter (fun y => !y.recovery))
    let rec_ := firstSense (q.filter (fun y => y.recovery))
    let goes (d : Dev) (y : Sense) : Dev :=
      if d.dieSensing lane.val y then d else (d.launch lane.val y).noteAllowance lane.val
    let first (d : Dev) : Dev := match normal with
      | some y => goes d y
      | none => d
    d.life.running = true →
    (rec_ = none → exec (.laneSenseStart t lane) s = .next (s.leave t ((first d).countMissed.goOn))) ∧
    (∀ y, rec_ = some y → (recentStarts d.now (d.lane1 lane.val)).length < 12 →
      exec (.laneSenseStart t lane) s = .next (s.leave t ((goes d y).countMissed.goOn))) ∧
    (∀ y, rec_ = some y → 12 ≤ (recentStarts d.now (d.lane1 lane.val)).length →
      exec (.laneSenseStart t lane) s = .next (s.leave t ((first (d.noteAllowance lane.val)).countMissed.goOn)))

/-- A started sense ends. A line sense that is transferred holds its cells with their noise, counted as 324 bytes, and may
give a Verge copy; a waymark sense counts 16 bytes and gives its tile's medians, which start the burst of passes 2 to 5.
260 ns after its command, or after the lane's last transfer where that is later, it counts as a timeout of its die and
fails. A rejected transfer is repeated once; a second reject fails the sense. The decode of a sensed line waits for the
line's earlier passes and for a decoder. A pass of a read's own line after the first then ends: a line that confirms ends
the read with its cells, one whose MAC fails ends it with poison of cause 3, one that does neither fails the pass. -/
def Obligations.SensesAndDecodesEnd : Prop :=
  (∀ (s : State) (t : Nat) (lane : Fin 16) (id since : Nat) (y : Sense),
    let d := s.before t
    d.life.running = true → d.senseOf lane.val id = some y → y.state = .started since →
    (∀ noise, y.kind ≠ .waymark →
      let img := d.stored y.pla ^^^ noise
      let d1 := ((d.setSense { y with state := .sensed img d.now }).laneBytes lane.val 324 0).transferEnds lane.val
      let d2 := match d1.readTx y.read with
        | some x => if y.kind = SenseKind.pass 1 then d1.readStage x.region x.line 3 else d1
        | none => d1
      exec (.senseTransferDone t lane id noise) s = .next (s.leave t ((d2.makeVerge y img).countMissed.goOn))) ∧
    (∀ medians, y.kind = .waymark →
      exec (.waymarkSenseDone t lane id medians) s =
        .next (s.leave t ((((d.laneBytes lane.val 16 0).transferEnds lane.val).burst y
          (medians16 (plaTile y.pla) medians)).countMissed.goOn))) ∧
    (max since (d.lane1 lane.val).linkAt + 260 ≤ d.now →
      exec (.senseTimeout t lane id) s =
        .next (s.leave t (((d.dieTimeout lane.val (plaDie y.pla)).failIfHeld lane.val y).countMissed.goOn))) ∧
    (let d1 := d.transferEnds lane.val
     (y.repeated = false →
      exec (.linkCheckReject t lane id) s =
        .next (s.leave t (((d1.setSense { y with repeated := true, state := .started d1.now }).linkReject lane.val
          (plaDie y.pla)).countMissed.goOn))) ∧
     (y.repeated = true →
      exec (.linkCheckReject t lane id) s =
        .next (s.leave t (((d1.linkReject lane.val (plaDie y.pla)).failIfHeld lane.val y).countMissed.goOn))))) ∧
  (∀ (s : State) (t : Nat) (lane : Fin 16) (id n since : Nat) (y : Sense) (img : Image) (x : ReadTx) (u : StripeCtx)
    (c : LineCtx),
    let d := s.before t
    d.life.running = true → d.senseOf lane.val id = some y → y.state = .sensed img since →
    (d.earlierPass y = true ∨ d.decoding lane.val y = false →
      exec (.decodeDone t lane id) s = .next (s.leave t d.countMissed.goOn)) ∧
    (d.earlierPass y = false → d.decoding lane.val y = true → y.kind = .pass n → n ≠ 1 → d.readTx y.read = some x →
      d.readCtx x = some (u, c) →
      (∀ cells m k, d.confirm c true img = .good cells m k →
        exec (.decodeDone t lane id) s =
          .next (s.leave t (((d.dequeue y).finishRead x u c (.line cells m (goodImage c cells m) n k)).countMissed.goOn))) ∧
      (d.confirm c true img = .macFail →
        exec (.decodeDone t lane id) s =
          .next (s.leave t ((((d.dequeue y).denyVerge x).finishRead x u c (.poison 3 n)).countMissed.goOn))) ∧
      (d.confirm c true img = .bad →
        exec (.decodeDone t lane id) s = .next (s.leave t ((d.senseFails y img).countMissed.goOn)))))

/-- What runs beside the senses, while the controller runs: at a multiple of 2,500 ns every lane's allowance interval
ends (Dev.intervalEnd); a host read that has waited 2,415 ns is answered with poison of cause DEADLINE
(Dev.deadlineAnswer); the Verge copies of a line sensed 64 ns ago or longer are denied (Dev.denyVerge); a detector of a head
that is served, with two hits or more and a next line within its reach and on a lane that is open, has that line
prefetched; a trained lane with no sense, last tracked 10 ms ago or longer, tracks its strobe; and a lost ZT entry is
lost no more once it is rebuilt and written anew, from memory ready on with a media cluster up. -/
def Obligations.ReadPathTimersRun : Prop :=
  ∀ (s : State) (t : Nat),
    let d := s.before t
    (d.life.running = true → d.now % 2500 = 0 →
      exec (.recoveryIntervalEnd t) s = .next (s.leave t ((d.each (upTo 16) Dev.intervalEnd).countMissed.goOn))) ∧
    (∀ h tag x, d.life.running = true → d.lane.reads.find? (fun x => x.waiters.any (isHost h tag d.now)) = some x →
      exec (.readDeadline t h tag) s = .next (s.leave t ((d.deadlineAnswer h tag x).countMissed.goOn))) ∧
    (∀ (lane : Fin 16) id y img since x, d.life.running = true → d.senseOf lane.val id = some y →
      y.state = .sensed img since → since + 64 ≤ d.now → d.readTx y.read = some x →
      exec (.vergeConfirmTimeout t lane id) s = .next (s.leave t ((d.denyVerge x).countMissed.goOn))) ∧
    (∀ h (i : Fin 16) x r, d.serving h = true → vget none (d.detectors h) i.val = some x →
      d.region x.region = some r → 2 ≤ x.hits → x.next ≤ x.last + d.cache.pfDepth.toNat → x.next < r.lines →
      d.laneOpen r x.region x.next = true →
      exec (.prefetchIssue t h i) s =
        .next (s.leave t (((d.setDetector h i.val (some { x with next := x.next + 1 })).prefetch h r x.region
          x.next).countMissed.goOn))) ∧
    (∀ lane : Fin 16, d.life.running = true → (d.lane1 lane.val).trained = true → (d.lane1 lane.val).queue = [] →
      (d.lane1 lane.val).strobeAt + 10 * msNs ≤ d.now →
      exec (.strobeTracking t lane) s =
        .next (s.leave t ((d.setLane lane.val { d.lane1 lane.val with strobeAt := d.now }).countMissed.goOn))) ∧
    (∀ lz : BitVec 21, d.ready = true → d.mediaUp = true → d.zt.lost.contains lz.toNat = true →
      exec (.ztRebuild t lz) s =
        .next (s.leave t (({ d with zt := { d.zt with lost := d.zt.lost.filter (· != lz.toNat) } } : Dev).writeZte
          lz.toNat (d.zte lz.toNat))))

/-! ### Write-back, programs, background work, lane control, maintenance -/

/-- Write-back while the controller runs: a line that has been dirty for AGE_LIMIT is selected; while a staging entry is
free (Dev.stagingFree) the oldest selected line moves into one. A STAGED entry of a SYSTEM line goes to the medium while
the staging store is not full and the die of a journal line takes one more program, but the journal's last line while it
fills. One of a user line, whose ZT entry has no flipped bit and is not lost, asks for its zone's bind where it has none,
and is issued where every check of R142 holds and no heap stripe holds it back: where an entry of its line is pinned under
R41 it merges into that one, and else it goes as a full-stripe update where that can start, or alone. -/
def Obligations.WriteBackMovesLinesOut : Prop :=
  ∀ (s : State) (t : Nat),
    let d := s.before t
    d.life.running = true →
    (∀ (region : BitVec 10) (line : BitVec 37) r k w, d.region region.toNat = some r →
      d.findWay r region.toNat line.toNat = some (k, w) → w.dirty ≠ 0 → d.cache.ageLimit ≠ 0 →
      w.dirtyAt + d.cache.ageLimit.toNat * 10 * msNs ≤ d.now →
      exec (.writebackAge t region line) s =
        .next (s.leave t ((d.selectLine r region.toNat line.toNat).countMissed.goOn))) ∧
    (∀ key, d.stagingFree = true → d.cache.nextSelected = some key →
      exec (.stagingMove t) s = .next (s.leave t ((d.stageWay key).countMissed.goOn))) ∧
    (∀ id media e, d.bench.entry id = some e → e.state = .staged →
      (∀ recs, e.kind = .system recs → d.lineFills e.key = true →
        exec (.stagedIssue t id media) s = .next (s.leave t d.countMissed.goOn)) ∧
      (∀ recs, e.kind = .system recs → d.lineFills e.key = false → d.stagingUsed < 8192 → d.journalFree e.key = true →
        exec (.stagedIssue t id media) s =
          .next (s.leave t ((({ d with
            nv := recs.foldl applySys d.nv, bench := d.bench.dropEntry e.id } : Dev).progJournal media recs).countMissed.goOn))) ∧
      (∀ region line r u c, (∀ recs, e.kind ≠ .system recs) → e.key = .user region line → d.region region = some r →
        d.lineStripe region r line = some (u, c) → tget [] d.zt.flips u.lz = [] → d.zt.lost.contains u.lz = false →
        (zMapped u.e = false →
          exec (.stagedIssue t id media) s = .next (s.leave t ((d.wantBind u.lz).countMissed.goOn))) ∧
        (zMapped u.e = true → d.issueOk u c = true → d.heapHeld u e = false →
          let (d1, e1) := d.checkEntry e
          let d2 := d1.setEntry e1
          exec (.stagedIssue t id media) s =
            .next (s.leave t ((if (d2.pinnedEntry c).isSome then d2.mergePinned e1 c
              else if d2.fullReady u && d2.fullStart u then d2.issueFull u
              else d2.issueOne media u c e1).countMissed.goOn)))))

/-- A program in flight, while the controller runs. One that its lane is not holding back ends by the number of cells
outside their windows once its steps have run over what its verify senses read, with no reset step in the first attempt on
a line that is pre-cleared (log entry 163): within the profile's limit it is verified, beyond it the program is repeated once, and then its line
is remapped. A verify sense times out 260 ns after it began: a timeout of its die, and the program begins anew. A refused
merge counts, and becomes a parity program of an image formed anew. A suspension past 50 µs is counted and logged once. -/
def Obligations.ProgramsEndVerified : Prop :=
  ∀ (s : State) (t : Nat) (id : Nat) (p : Prog),
    let d := s.before t
    d.life.running = true → d.bench.progs.find? (fun p => p.id == id) = some p →
    (∀ senses residue, p.suspAt = none →
      let cells := programCells (d.preCleared p.spec.pla && decide (p.attempt = 1)) (d.progImage p.spec) senses
      let limit := match d.profileAt p.spec.pla with
        | .strong => 8
        | .light => 2
      exec (.programVerifyDone t id senses residue) s =
        .next (s.leave t ((if outsideCount (d.progImage p.spec) cells ≤ limit then d.verified p residue
          else if p.attempt = 1 then d.setProg { p with attempt := 2, startAt := d.now }
          else d.remap p residue).countMissed.goOn))) ∧
    (p.startAt + 260 ≤ d.now →
      exec (.verifySenseTimeout t id) s =
        .next (s.leave t (((d.setProg { p with startAt := d.now }).dieTimeout (plaLane p.spec.pla)
          (plaDie p.spec.pla)).countMissed.goOn))) ∧
    (∀ media u st c, p.spec.role = .merge → d.bench.update p.update = some u →
      d.stripe u.lzone u.lstripe = some st → st.check.find? (fun c => c.pla == p.spec.pla) = some c →
      let d1 := d.count (cntLane (plaLane p.spec.pla) 6) 1
      let y := (d1.dropProg p.id).mergeImage media st u c p.spec.image
      let d2 := { y.1 with bench := { y.1.bench with progs := d1.bench.progs } }
      exec (.mergeRefuse t id media) s =
        .next (s.leave t ((d2.setProg { p with spec := { p.spec with
          role := .parity, image := y.2, noise := 0 } }).countMissed.goOn))) ∧
    (p.longDone = false → 50 * usNs < suspNow d.now p →
      exec (.suspLong t id) s =
        .next (s.leave t ((((d.setProg { p with longDone := true }).count (cntLane (plaLane p.spec.pla) 5) 1).event
          (evLane (plaLane p.spec.pla) 5)).countMissed.goOn)))

/-- Background work. A gap move that is due while no clearing goes before it, on a stripe that is quiet in tiles that are
free, copies the stripe into the gap and, where every copy was kept, moves the gap by one place; where one was not, the gap
stays. A MOVE command starts a queued move whose turn it is and whose zone, target and journal are ready, then copies at
most as many stripes as it names (moveGo), or releases the source of a move that has switched; a stripe that is quiet is
copied in order, and SWITCH comes when none is left. A FREE_DIRTY zone that is usable and no move's source is pre-cleared
while the journal takes the record. A zone that waits for its bind, with
an owner and tokens in both pools, is bound to the first zone of the reserve. From memory ready on the reserve is refilled,
a due checkpoint is written, and a mark with no update for 1 s is cleared. -/
def Obligations.BackgroundWorkRuns : Prop :=
  (∀ (s : State) (t : Nat),
    let d := s.before t
    (∀ (lz : BitVec 21) media u d2 wseq d3 end_,
      let d1 := d.checkZte lz.toNat
      let e := d1.zte lz.toNat
      d1.stripe lz.toNat (stripeAt e (gapSource e)) = some u → d1.gapDue lz.toNat = true → d1.clearFirst = false →
      d1.stripeBusy lz.toNat (stripeAt e (gapSource e)) = false → d1.tilesFree (zPz e) = true →
      d1.copyRoom media u = true → (d1.markOutage (zPz e)).takeWseq lz.toNat = (d2, wseq) →
      d2.copyStripe media u (zPz e) (zGap e) wseq (zProfile e) = (d3, end_) →
      exec (.gapMove t lz media) s =
        .next (s.leave t (if end_.kept then
          (((((d3.journal .gap 0 lz.toNat 0 (gapNext e)).writeZte lz.toNat (gapNext e)).resetUpdates
            lz.toNat).addWear (zPz e) 1).wearTriggers (zPz e) lz.toNat).count (cntPlace 0) 1 else d3).countMissed)) ∧
    (∀ (lz : BitVec 21) work media, d.background = true → d.clearFirst = false →
      (∀ m, d.zt.runs.find? (fun m => m.lzone == lz.toNat && m.switched) = some m →
        exec (.move t lz work media) s = .next (s.leave t (d.endSource m media).countMissed)) ∧
      (d.zt.runs.find? (fun m => m.lzone == lz.toNat && m.switched) = none →
        let d1 := d.checkZte lz.toNat
        d1.zt.lost.contains lz.toNat = false →
        (∀ m, d1.runOf lz.toNat = some m →
          exec (.move t lz work media) s = .next (s.leave t (moveGo media lz.toNat work.stripes d1).countMissed)) ∧
        (∀ m u z, d1.runOf lz.toNat = none → d1.movePick lz.toNat = some m → d1.stripe lz.toNat 0 = some u →
          zMapped u.e = true → zState u.e = 1 → d1.journalOk = true →
          d1.moveTarget m = some z →
          exec (.move t lz work media) s =
            .next (s.leave t (moveGo media lz.toNat work.stripes (d1.moveStart m u z work.medians)).countMissed)))) ∧
    (∀ (pz : BitVec 21) media, d.background = true → d.zt.resetDue.contains pz.toNat = false →
      d.pstate pz.toNat = psDirty → d.zoneUsable pz.toNat = true → (∀ m ∈ d.zt.runs, m.source ≠ pz.toNat) →
      d.journalTakes .pclrDone = true →
      exec (.preclear t pz media) s = .next (s.leave t (d.preclearZone pz.toNat media).catchUp.countMissed)) ∧
    (∀ (lz : BitVec 21) id r k z, d.life.running = true → d.zt.binds.contains lz.toNat = true →
      tget [] d.zt.flips lz.toNat = [] → d.zt.lost.contains lz.toNat = false → d.zoneOwner lz.toNat = some (id, r, k) → d.reserveZone = some z →
      zMapped (d.zte lz.toNat) = false → d.journalOk = true → d.tokensHeld 0 < d.benchLimit 0 →
      d.tokensHeld 1 < d.benchLimit 1 →
      exec (.bind t lz) s = .next (s.leave t (d.bindTo lz.toNat z r))) ∧
    (d.ready = true → d.mediaUp = true →
      exec (.bindReserveRefill t) s = .next (s.leave t d.refillReserve)) ∧
    (∀ media, d.background = true → d.ckptDue = true → d.ckptTiles = true →
      exec (.checkpointTimer t media) s = .next (s.leave t (d.checkpoint media).catchUp.countMissed)) ∧
    (∀ pz : BitVec 21, d.ready = true → d.bench.draining = false → d.intent pz.toNat ≠ 0 →
      (∀ lz, d.boundTo pz.toNat = some lz → ∀ u ∈ d.bench.updates, u.lzone ≠ lz) →
      tget 0 d.zt.lastUpdate pz.toNat + secNs ≤ d.now →
      exec (.intentClear t pz) s =
        .next (s.leave t (let d1 := d.sysPut (.intent pz.toNat 0)
          { d1 with zt := { d1.zt with lastUpdate := tset 0 d1.zt.lastUpdate pz.toNat 0 } })))) ∧
  (∀ (d : Dev) (media : Answers) (lz n : Nat) (m : MoveRun) (u : StripeCtx), d.runOf lz = some m →
    d.stripe lz (m.todo.getD 0) = some u →
    (∀ i d1, m.todo = some i → d.stripeBusy lz i = false → d.tilesFree m.target = true →
      d.copyRoom media u = true → d.moveCopy m u media = (d1, true) → moveGo media lz (n + 1) d = moveGo media lz n d1) ∧
    (m.todo = none → d.journalOk = true → moveGo media lz (n + 1) d = d.switch m u media))

/-- LANE_CTRL from a port that is reached keeps its fields and, with GO on a scope that stands, does its operation.
TAKE_OUT of a scope in service takes it out with cause 6, and is refused where another lane has a tile out at one of its
positions. TEST of a scope in Detour, or of a dead one with no test of it running, starts its test; of one in service it
is BUSY_IN_SERVICE. RETURN of a scope in Detour whose last test gave 1, 2 or 3 starts its restore. LAST_STATUS holds the status. The end of a test
records its result, lets the scope act on it unless the scope was dead, logs it, and answers the command that waits.
Restore, while background work runs, takes the stripes that are next in the zone at CURSOR where the journal, the zone and its
tiles let it, and with no zone left it puts the scope back in service (Dev.restoreEnd). -/
def Obligations.LaneControlTakesOutTestsAndReturns : Prop :=
  ∀ (s : State) (t : Nat) (p : Port) (v : BitVec 32),
    let d := s.before t
    let lane := fld v.toNat 0 4
    let die := if v.toNat.testBit 7 then none else some (fld v.toNat 4 3)
    let d1 := { d with lane := { d.lane with
      ctrlLane := BitVec.ofNat 4 v.toNat, ctrlDie := BitVec.ofNat 3 (v.toNat / 16), ctrlScope := v.toNat.testBit 7,
      ctrlOp := BitVec.ofNat 2 (v.toNat / 256) } }
    let notes (d : Dev) (st : Nat) : Dev := { d with lane := { d.lane with lastStatus := BitVec.ofNat 12 st } }
    (d.portOn p = true → v.toNat.testBit 10 = true → d1.scopeOk die = true →
      (fld v.toNat 8 2 = 1 → d1.scopeState lane die = .inService →
        ((d1.scopePositions die).any (d1.otherOut lane) = true →
          exec (.laneTakeOut t p v) s = .next (s.leave t (notes d1 0x605))) ∧
        ((d1.scopePositions die).any (d1.otherOut lane) = false →
          exec (.laneTakeOut t p v) s = .next (s.leave t (notes (d1.takeOut lane die 6) 0x000)))) ∧
      (fld v.toNat 8 2 = 2 → d1.scopeState lane die = .detour ∨ (d1.scopeState lane die = .dead ∧
          ∀ r ∈ d1.life.tests, r.lane = lane → r.die ≠ die) →
        exec (.laneTest t p v) s = .next (s.leave t (notes (d1.startTest lane die none) 0x000))) ∧
      (fld v.toNat 8 2 = 2 → d1.scopeState lane die = .inService →
        exec (.laneTest t p v) s = .next (s.leave t (notes d1 0x601))) ∧
      (fld v.toNat 8 2 = 3 → 1 ≤ (d1.lane1 lane).testResult → (d1.lane1 lane).testResult ≤ 3 →
        d1.scopeState lane die = .detour →
        exec (.laneReturn t p v) s = .next (s.leave t (notes (d1.startRestore lane die) 0x000)))) ∧
    (∀ (l : Fin 16) linkOk (dieOk : BitVec 8) bad run, d.life.running = true →
      d.life.tests.find? (fun r => r.lane == l.val) = some run →
      let listed := (bad.map (fun b : Fin 8 × BitVec 18 => (b.1.val, b.2.toNat))).filter
        (fun b => (d.scopePositions run.die).contains b.1)
      let d2 := { d with life := { d.life with tests := d.life.tests.filter (fun r => r != run) } }
      let fails := d2.failingDies run.die dieOk.toNat listed
      let result := testResultOf run.die linkOk fails listed
      let d3 := d2.onLane l.val (fun x => { x with testResult := result })
      exec (.selfTestDone t l linkOk dieOk bad) s =
        .next (s.leave t ((((if run.wasDead then d3
          else d3.testActs l.val run.die result fails listed).laneRecord l.val).event (evLane l.val 9)).answerTest run
          result))) ∧
    (∀ (l : Fin 16) media, d.background = true → d.restoreOn l.val = true →
      (∀ pz, d.restoreNext l.val = some pz → d.journalOk = true → d.zoneQuiet pz = true →
        d.tilesFree pz = true → exec (.restoreZone t l media) s = .next (s.leave t (d.restoreZone media l.val pz).countMissed)) ∧
      (d.restoreNext l.val = none →
        exec (.restoreZone t l media) s = .next (s.leave t (d.restoreEnd l.val).countMissed)))

/-- MAINT_CTRL with START from a port that is reached asks the maintenance engine for one operation over MAINT_RANGE, which
begins behind the work that came before it; while an operation or a conversion runs, or where the range lies outside the
region, it sets REFUSED alone. MAINT_DONE of the operation the engine runs, outside a drain, once nothing of the range is
still to be written back (of an INVALIDATE at once), ends it: INVALIDATE and FLUSH drop the range's clean lines and count
the dirty ones, and the engine takes its next work. SCRATCH_CFG from a port that is reached to another size asks for a conversion, and is refused while
maintenance or a conversion runs; the conversion that the engine runs, outside a drain, selects lines while ways to be added
hold any to write back, and otherwise ends: groups added read as zeros, and groups released are invalid ways. -/
def Obligations.CacheMaintenanceAndScratch : Prop :=
  (∀ (s : State) (t : Nat) (p : Port) (v : BitVec 32),
    let d := s.before t
    let op := fld v.toNat 0 2
    let d1 := { d with cache := { d.cache with mOp := BitVec.ofNat 2 v.toNat } }
    let refused := { d1 with cache := { d1.cache with refused := true } }
    (d.portOn p = true → v.toNat.testBit 2 = true →
      (∀ i, (op = 1 ∧ i = .maintClean t p v) ∨ (op = 2 ∧ i = .maintInvalidate t p v) ∨
          (op = 3 ∧ i = .maintFlush t p v) →
        (d1.maintBusy = true → exec i s = .next (s.leave t refused)) ∧
        (d1.maintBusy = false → d1.maintOp op = none → exec i s = .next (s.leave t refused)) ∧
        (∀ m, d1.maintBusy = false → d1.maintOp op = some m →
          exec i s = .next (s.leave t
            (({ d1 with cache := { d1.cache with maint := some m } } : Dev).addWork .register))))) ∧
    (∀ m, d.life.running = true → d.bench.draining = false → d.cache.maint = some m → d.working .register = true →
      (m.op = 2 ∨ d.maintClean m = true) →
      let d2 := { d with cache := { d.cache with maint := none } }
      exec (.maintDone t) s = .next (s.leave t ((if m.op = 1 then d2 else d2.maintDrop m).nextWork)))) ∧
  (∀ (s : State) (t : Nat),
    let d := s.before t
    (∀ p (v : BitVec 32), d.portOn p = true →
      let target := fld v.toNat 0 2
      (d.maintBusy = true →
        exec (.scratchCfgWrite t p v) s =
          .next (s.leave t { d with cache := { d.cache with refused := true } })) ∧
      (d.maintBusy = false → target ≠ d.cache.steps.toNat →
        exec (.scratchCfgWrite t p v) s =
          .next (s.leave t (({ d with cache := { d.cache with
            cfgSteps := BitVec.ofNat 2 target, conv := some { target := target } } } : Dev).addWork .conversion)))) ∧
    (∀ c, d.life.running = true → d.bench.draining = false → d.cache.conv = some c → d.working .conversion = true →
      (d.cache.steps.toNat < c.target → d.convBusy d.cache.steps.toNat c.target = true →
        exec (.scratchConversionDone t) s =
          .next (s.leave t (d.convSelect d.cache.steps.toNat c.target))) ∧
      (¬ (d.cache.steps.toNat < c.target ∧ d.convBusy d.cache.steps.toNat c.target = true) →
        let keep := min d.cache.steps.toNat c.target * 2 ^ 22
        exec (.scratchConversionDone t) s =
          .next (s.leave t (({ d with cache := { d.cache with
            ways := d.cache.ways.filter (fun p => !convKey d.cache.steps.toNat c.target p.1)
            scratch := d.cache.scratch.filter (fun b => decide (b.1 < keep))
            scratchFlips := d.cache.scratchFlips.filter (fun f => decide (f.1 < keep))
            scratchPoison := d.cache.scratchPoison.filter (fun b => decide (64 * b < keep))
            steps := BitVec.ofNat 2 c.target
            conv := none } } : Dev).nextWork)))))

/-! ### Streams, channels, events -/

/-- Commands to a stream of the service writer (48 to 63) from a head that is reached: FLUSH in FLUSHABLE mode takes
effect at a packet boundary and waits for one elsewhere, and one that waits takes effect when READ has come to one; in
REWINDABLE mode it sets ERR; MARK, REWIND and RELEASE move MARK, READ and FREE; STREAM_CFG sets EN and MODE, but where it
would change the MODE of a stream in use it sets ERR alone. From the sideband, and to a stream (0 to 47) or a channel (0 to
15) of firmware, nothing changes but time. -/
def Obligations.StreamCommandsMoveItsPointers : Prop :=
  (∀ (s : State) (t : Nat) (h : Head) (i : Fin 64),
    let d := s.before t
    let x := d.stream i.val
    d.headOn h = true → 48 ≤ i.val →
    (x.mode = false → exec (.streamFlush t (.head h) i) s =
      .next (s.leave t (d.setStream i.val { x with err := true }))) ∧
    (x.mode = true → x.atEnd = true → exec (.streamFlush t (.head h) i) s =
      .next (s.leave t (d.flushNow i.val))) ∧
    (x.mode = true → x.atEnd = false → exec (.streamFlush t (.head h) i) s =
      .next (s.leave t (d.setStream i.val { x with pending := true }))) ∧
    (d.life.running = true → x.pending = true → x.atEnd = true → exec (.streamFlushEffect t i) s =
      .next (s.leave t (d.flushNow i.val))) ∧
    exec (.streamMark t (.head h) i) s = .next (s.leave t (d.onStream i.val (fun x => { x with mark := x.read }))) ∧
    exec (.streamRewind t (.head h) i) s = .next (s.leave t (d.onStream i.val (fun x => { x with read := x.mark }))) ∧
    exec (.streamRelease t (.head h) i) s = .next (s.leave t (d.putStream i.val (x.freeTo x.read) 0)) ∧
    (∀ v : BitVec 32, exec (.streamCfgWrite t (.head h) i v) s =
      .next (s.leave t (if x.mode ≠ v.toNat.testBit 1 ∧ x.inUse = true then d.setStream i.val { x with err := true }
        else d.setStream i.val { x with en := v.toNat.testBit 0, mode := v.toNat.testBit 1 })))) ∧
  (∀ (s : State) (t : Nat) (p : Port) (i : Fin 64) (c : Fin 32) (v : BitVec 32),
    (p = .sideband ∨ i.val < 48 →
      s.idle (.streamFlush t p i) t ∧ s.idle (.streamMark t p i) t ∧ s.idle (.streamRewind t p i) t ∧
      s.idle (.streamRelease t p i) t ∧ s.idle (.streamCfgWrite t p i v) t) ∧
    (p = .sideband ∨ c.val < 16 →
      s.idle (.dmaEn t p c v) t ∧ s.idle (.dmaResume t p c) t ∧ s.idle (.dmaSkip t p c) t ∧
      s.idle (.dmaStop t p c) t ∧ s.idle (.dmaTail t p c v) t ∧ s.idle (.dmaCfgWrite t p c v) t) ∧
    s.idle (.dmaReq t .sideband v) t)

/-- Commands to a channel of the service writer (16 to 31) from a head that is reached. EN 1 enables it; EN 0 stops it as
STOP does, and takes the ring head back to 0 unless a stop is still to come. STOP halts a running channel with cause 8, or
asks for that behind the burst in progress; one that does not run stays. RESUME and SKIP let a halted one go on, from its
descriptor or behind it, where its cause and its ring base allow. TAIL inside the ring is taken, one outside it halts the
channel with cause 6. CFG with EN 0 and a depth above 1 is taken, another is a reserved write. DMA_REQ raises the request
lines 48 to 63 that it names. An enabled or stopping channel that is neither halted nor at its tail, outside a drain and a
shut-down, with its ENGINE token, goes on with its descriptor, or fetches the next one first. -/
def Obligations.ChannelsRunTheirRings : Prop :=
  ∀ (s : State) (t : Nat) (h : Head) (c : Fin 32),
    let d := s.before t
    let x := d.chan c.val
    d.headOn h = true → 16 ≤ c.val →
    (∀ v : BitVec 32, v.toNat.testBit 0 = true → exec (.dmaEn t (.head h) c v) s =
      .next (s.leave t ((d.onChan c.val (fun x => { x with en := true })).refreshChan c.val))) ∧
    (∀ v : BitVec 32, v.toNat.testBit 0 = false → exec (.dmaEn t (.head h) c v) s =
      .next (s.leave t (((d.dmaStop c.val).onChan c.val (fun x =>
        { x with en := false, ringHead := if x.stopping then x.ringHead else 0 })).refreshChan c.val))) ∧
    (x.state ≠ 1 → s.idle (.dmaStop t (.head h) c) t) ∧
    (x.state = 1 →
      ((∀ r, x.cur = some r → r.left = 0) →
        exec (.dmaStop t (.head h) c) s = .next (s.leave t (d.dmaHalt c.val 8 noAnswers))) ∧
      (∀ r, x.cur = some r → 0 < r.left →
        exec (.dmaStop t (.head h) c) s =
          .next (s.leave t (d.setChan c.val { x with cur := some { r with stopping := true } })))) ∧
    exec (.dmaResume t (.head h) c) s = .next (s.leave t (d.onChan c.val (fun x =>
      if x.mayResume then { x with state := x.idleState, cause := 0 } else x))) ∧
    exec (.dmaSkip t (.head h) c) s = .next (s.leave t (d.onChan c.val (fun x =>
      if x.mayResume then
        let y := { x with ringHead := (x.ringHead + 1) % x.depth, done := x.done + 1, cause := 0 }
        { y with state := y.idleState }
      else x))) ∧
    (∀ v : BitVec 32, let n := fld v.toNat 0 12
      (n < x.depth → exec (.dmaTail t (.head h) c v) s =
        .next (s.leave t ((d.onChan c.val (fun x => { x with tail := n })).refreshChan c.val))) ∧
      (x.depth ≤ n → x.state ≠ 2 → exec (.dmaTail t (.head h) c v) s =
        .next (s.leave t (d.dmaHalt c.val 6 noAnswers)))) ∧
    (∀ v : BitVec 32, exec (.dmaReq t (.head h) v) s =
      .next (s.leave t (d.each ((upTo 16).filter v.toNat.testBit) (fun d i => d.raise (48 + i))))) ∧
    (∀ v : BitVec 32,
      (x.en = false → fld v.toNat 0 12 ≠ 0 → exec (.dmaCfgWrite t (.head h) c v) s =
        .next (s.leave t ((d.onChan c.val (fun x => { x with
          depth := fld v.toNat 0 12 + 1, head := v.toNat.testBit 12 })).refreshChan c.val))) ∧
      (x.en = true ∨ fld v.toNat 0 12 = 0 → exec (.dmaCfgWrite t (.head h) c v) s =
        .next (s.leave t (d.regReserved (.head h) (0x51008 + 64 * c.val))))) ∧
    (∀ host link media d0, d.life.running = true → (x.en || x.stopping) = true → x.state ≠ 2 →
      d.bench.draining = false → d.life.shutting = none → d.granted [12 + c.val] d0 →
      (∀ r, x.cur = some r → exec (.dmaDescriptor t c host link media) s =
        .next (s.leave t (d0.dmaGo c.val host link media).countMissed)) ∧
      (x.cur = none → x.ringHead ≠ x.tail → exec (.dmaDescriptor t c host link media) s =
        .next (s.leave t ((d0.dmaFetch c.val host link media).dmaGo c.val host link media).countMissed)))

/-- While the controller runs: a source whose window has ended takes what EventBlock.windowEnds says: COALESCING with
nothing counted falls quiet, with a count it offers a REPEAT record and goes on; a STORM with at most a quarter of its
threshold counted in the window offers its end and falls quiet, another goes on. LOST_RECORD with records lost, at most 128
waiting and the log free writes one LOST record with their count and highest level; otherwise it changes nothing. Time
itself writes that record as soon as it is due, ahead of the records that wait (the model's reading, a log entry). ATTN_ACK
of a sequence not later than HEAD_SEQ clears the hold bits whose last record is not later and notes the sequence; a later
one changes nothing. A traced request ends 10 ms after its start. -/
def Obligations.EventWindowsEnd : Prop :=
  (∀ (s : State) (t : Nat),
    let d := s.before t
    (∀ n : Fin 1024, d.life.running = true → (d.ev.src n.val).state ≠ .quiet → (d.ev.src n.val).windowEnd ≤ d.now →
      exec (.coalWindowEnd t n) s = .next (s.leave t { d with ev := d.ev.windowEnds d.now n.val })) ∧
    (d.life.running = true → d.ev.lostPending = true → d.ev.intake.length ≤ 128 → d.ev.nextLogAt ≤ d.now →
      exec (.lostRecord t) s = .next (s.leave t { d with ev := d.ev.lostRecord d.now })) ∧
    (d.ev.lostPending = false ∨ 128 < d.ev.intake.length ∨ d.now < d.ev.nextLogAt → s.idle (.lostRecord t) t) ∧
    (∀ p v, d.portOn p = true →
      exec (.attnAck t p v) s =
        .next (s.leave t (if seqLater v d.ev.headSeq then d else
          { d with ev := d.ev.setAttn p { hold := holdAfter d.ev (d.ev.attn p).hold v, ackSeq := v } }))) ∧
    (∀ (tag : Fin 64) ok x, d.life.running = true → d.ev.traces.find? (fun x => x.tag == tag.val) = some x →
      x.start + 10 * msNs ≤ d.now →
      exec (.traceTimeout t tag ok) s = .next (s.leave t (d.traceEnd x true ok)))) ∧
  (∀ (e : EventBlock) (now n : Nat), e.lostPending = true → e.intake.length ≤ 128 → e.nextLogAt ≤ now →
    let x : LogRec :=
      { seq := 0, src := evPlatform 17, level := e.lostLevel, kind := 6, asserted := false, stamp := now, last := now,
        count := e.lostSince, detail := 0 }
    e.lostRecord now =
      { e.write x with lostPending := false, lostSince := 0, lostLevel := 0, nextLogAt := now + 20 } ∧
    drainIntake now (n + 1) e = drainIntake now n (e.lostRecord e.nextLogAt)) ∧
  (∀ (e : EventBlock) (now n : Nat),
    let x := e.src n
    (x.state = .coalescing → x.count = 0 → e.windowEnds now n = e.setSrc n { x with state := .quiet }) ∧
    (x.state = .coalescing → x.count ≠ 0 → e.windowEnds now n =
      (e.offer now (mkRec n (e.levelOf n) 1 x.asserted x.first x.last x.count x.detail)).setSrc n
        { x with count := 0, windowEnd := x.windowEnd + e.coalMs.toNat * msNs }) ∧
    (x.state = .storm → x.wcount ≤ e.threshOf n / 4 → e.windowEnds now n =
      (e.offer now (mkRec n (e.levelOf n) 3 x.asserted x.first x.last x.count x.detail)).setSrc n
        { x with state := .quiet, count := 0, wcount := 0 }) ∧
    (x.state = .storm → e.threshOf n / 4 < x.wcount → e.windowEnds now n =
      e.setSrc n { x with wcount := 0, windowEnd := x.windowEnd + e.coalMs.toNat * msNs }))

/-- A dump comes when its period has ended, and at a write of DUMP_CFG with NOW and EN while EN is set, which
also takes the other fields where neither is reserved; Dev.dump is that dump. A bandwidth window that has ended loads its
bytes and its number and begins anew. BW_CFG starts a new window of its length at the next multiple of it; 0 and more than
1 s leave it as it is, with one event. CPAGE_CFG sets a page, with REGION_EN for a region of the head alone; for one that
does not exist the page stays, with one event. A write of a head at an offset that no register has, not kept yet and with
fewer than 256 kept, is kept, logged, and counted as a dead store. -/
def Obligations.DumpsWindowsAndPages : Prop :=
  ∀ (s : State) (t : Nat),
    let d := s.before t
    (∀ ok, d.life.running = true → d.ev.dumpEn = true → d.ev.nextDumpAt ≤ d.now →
      exec (.dumpPeriod t ok) s = .next (s.leave t ({ d with ev := { d.ev with
        nextDumpAt := d.ev.nextDumpAt + d.ev.periodMs.toNat * msNs } }.dump ok))) ∧
    (∀ p (v : BitVec 32) ok, d.portOn p = true → v.toNat.testBit 0 = true → v.toNat.testBit 1 = true →
      fld v.toNat 8 8 ≠ 0 → fld v.toNat 16 16 ≠ 0 → d.ev.dumpEn = true →
      exec (.dumpNow t p v ok) s = .next (s.leave t ({ d with ev := { d.ev with
        dumpEn := true, dumpHead := v.toNat.testBit 2, slotsM1 := BitVec.ofNat 8 (fld v.toNat 8 8),
        periodMs := BitVec.ofNat 16 (fld v.toNat 16 16),
        nextSlot := if (BitVec.ofNat 8 (fld v.toNat 8 8)).toNat < d.ev.nextSlot then 0 else d.ev.nextSlot } }.dump
        ok))) ∧
    (d.life.running = true → d.ev.windowAt + d.ev.windowUs.toNat * usNs ≤ d.now →
      exec (.bwWindowEnd t) s = .next (s.leave t { d with ev := { d.ev with
        bwLast := d.ev.bwNow, bwNo := BitVec.ofNat 32 (d.ev.windowAt / (d.ev.windowUs.toNat * usNs)),
        bwNow := List.replicate 18 (0, 0), windowAt := d.ev.windowAt + d.ev.windowUs.toNat * usNs } })) ∧
    (∀ p (v : BitVec 32), d.portOn p = true →
      let w := fld v.toNat 0 20
      (w ≠ 0 → w ≤ 1000000 → exec (.bwCfgWrite t p v) s = .next (s.leave t { d with ev := { d.ev with
        windowUs := BitVec.ofNat 20 w, bwNow := List.replicate 18 (0, 0),
        windowAt := (d.now / (w * usNs) + 1) * (w * usNs) } })) ∧
      (w = 0 ∨ 1000000 < w → exec (.bwCfgWrite t p v) s = .next (s.leave t (d.regReserved p 0x25130)))) ∧
    (∀ h (i : Fin 16) (v : BitVec 32), d.headOn h = true →
      (v.toNat.testBit 10 = false ∨ (∃ r, d.region (fld v.toNat 0 10) = some r ∧ ownsRegion h r = true) →
        exec (.cpageCfgWrite t h i v) s = .next (s.leave t { d with ev := { d.ev with
          cpages := tset 0 d.ev.cpages (16 * headNum h + i.val) (BitVec.ofNat 32 (fld v.toNat 0 13)) } })) ∧
      (v.toNat.testBit 10 = true → d.region (fld v.toNat 0 10) = none →
        exec (.cpageCfgWrite t h i v) s =
          .next (s.leave t (d.regReserved (.head h) (0x25400 + 4 * i.val))))) ∧
    (∀ h (bar : BitVec 8) (off : BitVec 32), d.portOn (.head h) = true →
      (d.head h).barSeen.contains (bar.toNat * 2 ^ 32 + off.toNat) = false → (d.head h).barSeen.length < 256 →
      exec (.barUnmapped t (.head h) bar off true) s =
        .next (s.leave t (((d.onHead h (fun x => { x with
          barSeen := (bar.toNat * 2 ^ 32 + off.toNat) :: x.barSeen })).event (evHead h 4)
          (detailOf [(32, off.toNat), (40, bar.toNat), (41, 1)])).lostStore h 1)))

/-! ### Power -/

/-- VAUX comes with the always-on domain fresh, the rail counters read from the Cabinet and the Cabinet
scanned; it goes by Dev.vauxLoss; a stopped AON_CLK clears the continuity flag. A power-up that is allowed
(Dev.mayPowerUp) enables step 1; a step whose rails have all stayed good for tPG_STABLE enables the next, and the ninth
starts the controller. In a power-up the rails that are late each count a timeout, and the attempt fails for the first of
them, with PWR_FLT# driven. A power-good input that changes is noted; within the step in hand its changes of the last
tPG_CHAT are kept, and with more than four the rail chatters. RESTART from the sideband lets a FAILED supervisor wait and
try again, and forgets the attempts at the heads' rails. A head's failed rail is enabled again after tOFF_MIN while
attempts remain. -/
def Obligations.PowerComesUpInSteps : Prop :=
  ∀ (s : State) (t : Nat),
    let d := s.before t
    exec (.vauxPowerOn t) s = .next (s.leave t (((d.vauxReset true).loadRails).cabScan)) ∧
    (d.pwr.vaux = true → exec (.vauxLoss t) s = .next (s.leave t d.vauxLoss)) ∧
    exec (.aonClkStop t) s = .next (s.leave t { d with pwr := { d.pwr with continuity := false } }) ∧
    (d.mayPowerUp = true →
      exec (.powerUpStart t) s = .next (s.leave t (({ d with pwr := { d.pwr with
        attempt := if d.pwr.state = PwrState.failed then 0 else d.pwr.attempt, state := .seqUp, vinGood := true,
        fltIn := false, vinFell := false } }).enableStep 1))) ∧
    (∀ x, d.pwr.state = .seqUp →
      (∀ r ∈ stepRails d.pwr.step, railStable d.aon (d.rail r) = true) →
      let d1 := d.onRails (stepRails d.pwr.step) (fun r => { r with enAt := 0, trans := [] })
      exec (.pgStable t x) s =
        .next (s.leave t (if d.pwr.step < 9 then d1.enableStep (d.pwr.step + 1) else d1.reachOn x))) ∧
    (∀ r l, d.pwr.state = .seqUp → (upTo 12).filter (fun r => railLate d.aon (d.rail r) && d.inStep r) = r :: l →
      exec (.pgTimeout t) s = .next (s.leave t ((d.each (r :: l) Dev.railTimeout).stepFails r 1 true))) ∧
    (∀ (r : Fin 12) good, d.pwr.vaux = true → (d.rail r.val).pg ≠ good → d.inStep r.val = false →
      exec (.railPgChange t r good) s = .next (s.leave t (d.onRail r.val (fun x => { x with
        pg := good, goodAt := if good then d.aon else 0, trans := [] })))) ∧
    (∀ (r : Fin 12) good, d.pwr.vaux = true → (d.rail r.val).pg ≠ good → d.inStep r.val = true →
      let l := (d.rail r.val).trans.filter (fun a => decide (d.aon < a + 2 * msNs)) ++ [d.aon]
      let d1 := d.onRail r.val (fun x => { x with pg := good, goodAt := if good then d.aon else 0, trans := l })
      (l.length ≤ 4 → exec (.railPgChange t r good) s = .next (s.leave t d1)) ∧
      (4 < l.length → exec (.railPgChange t r good) s = .next (s.leave t (d1.chatters r.val)))) ∧
    (d.pwr.vaux = true → d.pwr.state = .failed →
      exec (.restart t .sideband) s = .next (s.leave t { d with pwr := { d.pwr with
        phyTries := [0, 0], state := .offWait, attempt := 0 } })) ∧
    (∀ h, d.pwr.state = .on → (d.rail (phyRail h)).en = false → lget d.pwr.phyTries (headNum h) < d.pwr.retry.toNat →
      lget d.pwr.phyAt (headNum h) + d.pwr.offMin.toNat * 10 * msNs ≤ d.aon →
      exec (.vphyReenable t h) s = .next (s.leave t (d.onRail (phyRail h) (railOn d.aon))))

/-- While ON: the loss of VIN_GOOD and PWR_FLT# low start a drain, the latter with one event; the fall of an
enabled rail is counted, logged and latched: VMEDIA's starts a drain with PWR_FLT# driven, a VPHY rail's takes its head's
link and rail down alone, and any other's drives PWR_FLT# and cuts power at once. The pulse on PWR_FLT# ends. VIN_GOOD
falling stops a power-up, whose rails come down, and arms the exit from FAILED. V_FLOOR ends a drain: what is in flight is
torn and the rails come down. Rails that have fallen let the next step go down; one that has not fallen 20 ms after it was
disabled is counted, latched as NO_FALL, and the rails go on down where its step is the one in hand. -/
def Obligations.PowerFailuresDrainOrCut : Prop :=
  ∀ (s : State) (t : Nat),
    let d := s.before t
    (∀ media, d.pwr.state = .on →
      exec (.vinGoodLoss t media) s =
        .next (s.leave t ((({ d with pwr := { d.pwr with vinGood := false } }).startDrain media).goOn.countMissed)) ∧
      (d.pwr.vaux = true → exec (.pwrFltIn t media) s = .next (s.leave t
        ((((({ d with pwr := { d.pwr with fltIn := true } } : Dev).event (evBank 2)).startDrain media).goOn.countMissed))))) ∧
    (∀ (r : Fin 12) media, d.pwr.state = .on → (d.rail r.val).en = true → (d.rail r.val).enAt = 0 →
      let d1 := ((d.onRail r.val (fun x => { x with pg := false })).railPgFail r.val).latchFail r.val 4
      let drive (d : Dev) : Dev := { d with pwr := { d.pwr with fltDrive := true } }
      (r.val = 4 → exec (.railFail t r media) s = .next (s.leave t (((drive d1).startDrain media).goOn.countMissed))) ∧
      (r.val ≠ 2 → r.val ≠ 3 → r.val ≠ 4 →
        exec (.railFail t r media) s = .next (s.leave t (drive d1).powerCut.countMissed)) ∧
      (r.val = 2 ∨ r.val = 3 →
        let d2 := (d1.linkDown (if r.val = 2 then .a else .b)).onRail r.val railOff
        exec (.railFail t r media) s = .next (s.leave t ({ d2 with pwr := { d2.pwr with
          phyTries := d2.pwr.phyTries.set (r.val - 2) 0,
          phyAt := d2.pwr.phyAt.set (r.val - 2) d2.aon } } : Dev).countMissed))) ∧
    exec (.fltPulseEnd t) s = .next (s.leave t { d with pwr := { d.pwr with fltDrive := false } }) ∧
    (d.pwr.state = .seqUp →
      exec (.vinGoodFall t) s =
        .next (s.leave t ({ d with pwr := { d.pwr with vinGood := false, step := 0 } } : Dev).powerDown)) ∧
    (d.pwr.state = .failed →
      exec (.vinGoodFall t) s =
        .next (s.leave t { d with pwr := { d.pwr with vinGood := false, vinFell := true } })) ∧
    (d.pwr.state = .draining → exec (.bankFloor t) s = .next (s.leave t d.tearAll.powerDown)) ∧
    (d.pwr.state = .seqDown →
      exec (.railFallDone t) s = .next (s.leave t ((d.onRails (stepRails d.pwr.downStep) (fun r => { r with
        pg := false, enAt := 0 })).downFrom d.pwr.downStep))) ∧
    (∀ r : Fin 12, d.pwr.vaux = true → (d.rail r.val).en = false → (d.rail r.val).enAt ≠ 0 →
      (d.rail r.val).enAt - 1 + 20 * msNs ≤ d.aon →
      let d1 := ((d.onRail r.val (fun x => { x with enAt := 0 })).railPgFail r.val).latchFail r.val 5
      exec (.fallTimeout t r) s =
        .next (s.leave t (if d1.pwr.state = .seqDown ∧ (stepRails d1.pwr.downStep).contains r.val = true then
          d1.downFrom d1.pwr.downStep else d1)))

/-- A write of MARGIN_CTRL with GO from the sideband, of a rail of the twelve and a step from -5 to +5: while
ON with no drain it sets the rail's step, sends the rail's regulator, at address 0x40 + rail, the command for it, and
leaves LAST_STATUS SUCCESS; in any other state it leaves BUSY_IN_SERVICE. A head's write of it, and of RESTART, changes
nothing. -/
def Obligations.MarginsAreSetFromTheSideband : Prop :=
  ∀ (s : State) (t : Nat) (v : BitVec 32),
    let d := s.before t
    let rail := fld v.toNat 0 4
    let step := fld v.toNat 4 4
    let d1 := { d with pwr := { d.pwr with marginRail := BitVec.ofNat 4 rail, marginStep := BitVec.ofNat 4 step } }
    (d.pwr.vaux = true → v.toNat.testBit 8 = true → rail < 12 → -5 ≤ signed 4 step → signed 4 step ≤ 5 →
      (d.pwr.state = .on → d.bench.draining = false →
        exec (.marginGo t .sideband v) s =
          .next (s.leave t
            (let d2 := (d1.onRail rail (fun x => { x with step := signed 4 step })).send
              (.pmbus (0x40 + rail) (signed 4 step))
             { d2 with pwr := { d2.pwr with marginStatus := 0x000 } }))) ∧
      (d.pwr.state ≠ .on ∨ d.bench.draining = true →
        exec (.marginGo t .sideband v) s =
          .next (s.leave t { d1 with pwr := { d1.pwr with marginStatus := 0x601 } }))) ∧
    (∀ h, s.idle (.marginGo t (.head h) v) t ∧ s.idle (.restart t (.head h)) t)

/-- Readings of the bank and charger faults are taken (Dev.bankReads); ENERGY_LIMIT is computed anew, and its
wait ends, with the conditions of EXPOSED looked at. TEST_NOW, a test that is due and one postponed 10 minutes ago each let
a test wait for the charge; a second after the charge it holds under TEST_CAP; one held for 1 s with more lines occupied or
reserved than TEST_CAP is POSTPONED, with one event; a loaded one ends by Dev.testEnds. The result of a test: FAIL_MEAS for
a current off 1 A by more than 10 % or under 200 mV of droop, and never POSTPONED or ABORTED; it is what testResult gives,
the bank recharges, and only PASS changes C, ESR and the time of the last valid test. -/
def Obligations.BankIsTested : Prop :=
  (∀ (s : State) (t : Nat),
    let d := s.before t
    let wanted := { d with pwr := { d.pwr with test := .waitCharged } }
    (∀ mv, d.pwr.vaux = true → exec (.bankCharged t mv) s = .next (s.leave t (d.bankReads mv.toNat))) ∧
    (∀ mv, d.pwr.vaux = true → d.pwr.test ≠ .recharging →
      exec (.chargerFault t mv) s = .next (s.leave t (({ d with pwr := { d.pwr with
        bankMv := BitVec.ofNat 16 mv.toNat, chgFault := true, charged := nearTarget mv.toNat } } : Dev).checkExposed.tryReady))) ∧
    (∀ mv, d.life.running = true →
      exec (.energyLimitRecompute t mv) s =
        .next (s.leave t (((d.bankReads mv.toNat).recompute mv.toNat).checkExposed))) ∧
    (d.life.running = true → exec (.energyWaitTimeout t) s = .next (s.leave t d.checkExposed.tryReady)) ∧
    (∀ p, d.portOn p = true → (d.pwr.test = .idle ∨ d.pwr.test = .postponed) →
      exec (.testNow t p) s = .next (s.leave t wanted)) ∧
    (d.life.running = true → d.pwr.test = .idle → d.testDue = true →
      exec (.bankTestDue t) s = .next (s.leave t wanted)) ∧
    (d.life.running = true → d.pwr.test = .postponed → d.pwr.testAt + 10 * minNs ≤ d.aon →
      exec (.bankTestRetry t) s = .next (s.leave t wanted)) ∧
    (d.life.running = true → d.pwr.state = .on → d.life.shutting = none → d.pwr.test = .waitCharged →
      d.pwr.charged = true → d.pwr.chargedAt + secNs ≤ d.aon →
      exec (.bankTestChargeSettled t) s = .next (s.leave t (({ d with pwr := { d.pwr with
        test := .holding, testCap := d.pwr.energyAt vTest, testAt := d.aon } } : Dev).testGoesOn))) ∧
    (∀ c, d.life.running = true → d.pwr.test = .holding → d.pwr.testCap = some c →
      c < d.occupancy + d.reservedLines → d.pwr.testAt + secNs ≤ d.aon →
      exec (.bankTestHoldTimeout t) s = .next (s.leave t ({ d with pwr := { d.pwr with
        test := .postponed, testCap := none, result := 5, testAt := d.aon } }.event (evBank 0)))) ∧
    (∀ v0 v1 v2 v3 i t3, d.life.running = true → d.pwr.test = .loaded →
      exec (.bankTestLoadEnd t v0 v1 v2 v3 i t3) s = .next (s.leave t (d.testEnds v0 v1 v2 v3 i t3)))) ∧
  (∀ (d : Dev) (v0 v1 v2 v3 i t3 : Nat),
    let r := testResult v0 v1 v2 v3 i t3
    (i < 900000 ∨ 1100000 < i ∨ v2 < v3 + 200000 → r = 4) ∧ r ≠ 5 ∧ r ≠ 6 ∧
    (d.testEnds v0 v1 v2 v3 i t3).pwr.result = BitVec.ofNat 3 r ∧
    (d.testEnds v0 v1 v2 v3 i t3).pwr.test = .recharging ∧
    (r ≠ 1 → (d.testEnds v0 v1 v2 v3 i t3).pwr.capNf = d.pwr.capNf ∧
      (d.testEnds v0 v1 v2 v3 i t3).pwr.esrUohm = d.pwr.esrUohm ∧
      (d.testEnds v0 v1 v2 v3 i t3).pwr.testedAt = d.pwr.testedAt) ∧
    (r = 1 → (d.testEnds v0 v1 v2 v3 i t3).pwr.capNf = some (i * (t3 - msNs) / (v2 - v3)) ∧
      (d.testEnds v0 v1 v2 v3 i t3).pwr.testedAt = some d.aon))

/-! ### Temperatures, life cycle, cores, registers, records -/

/-- A thermal sample while the controller runs advances the integrals of the dies and of the positions in use,
samples every sensor, finds the maxima, sets the throttle's budgets and does what the drift asks for; a die sensor at
125 °C then asserts THERMTRIP#. With main power off the always-on sample advances the integrals alone. At READY, an hour
after the last, the drift checkpoint is written. With OFF_CASE 0b011 a minute after memory ready the worst off interval is
charged. The rebuilt AF table serves from then on. The comparator asserts THERMTRIP#: from ON it starts a drain, in a
power-up the rails come down; where it is asserted already nothing changes. It is released with main power off once the
always-on reading is below 105 °C. -/
def Obligations.SamplesAdvanceTheDrift : Prop :=
  (∀ (s : State) (t : Nat),
    let d := s.before t
    (∀ temps media, d.life.running = true →
      let l := d.readings temps
      let d1 := ((((d.sampleDrift l).sampleSensors l).maxima l).throttle).driftMoved d.therm.epos.toList
      exec (.thermalSample t temps media) s =
        .next (s.leave t ((if (l.drop 16).any (fun p => decide (degC 125 ≤ p.2.getD 0)) then d1.trip media
          else d1).countMissed.goOn))) ∧
    (∀ temps, d.pwr.vaux = true → d.life.running = false →
      let g := driftGain (d.aon - d.therm.aonAt) (arrhenius d.therm.eaTable.toNat (aonTemp temps))
      exec (.aonSample t temps) s = .next (s.leave t { d with therm := { d.therm with
        hdie := d.therm.hdie.mapIdx (fun _ h => h + g), epos := d.therm.epos.mapIdx (fun _ e => e + g),
        aonAt := d.aon } })) ∧
    (d.ready = true → d.therm.driftCkAt + hourNs ≤ d.now →
      exec (.driftCheckpoint t) s = .next (s.leave t { d.driftCheckpoint with therm := { d.driftCheckpoint.therm with
        driftCkAt := d.now } })) ∧
    (∀ a, d.therm.readyAt = some a → d.therm.offCase = 3 → a + 60 * secNs ≤ d.now →
      exec (.timeWaitExpire t) s = .next (s.leave t d.chargeWorst.zoneStep)) ∧
    exec (.afTableRebuilt t) s = .next (s.leave t { d with therm := { d.therm with eaTable := d.therm.ea } })) ∧
  (∀ (s : State) (t : Nat),
    let d := s.before t
    let d1 := { d with therm := { d.therm with tripped := true } }.milestone 5
    (∀ i media, d.pwr.vaux = true → d.therm.tripped = false → d.pwr.state = .on →
      exec (.thermtripComparator t i media) s = .next (s.leave t ((d1.startDrain media).goOn.countMissed))) ∧
    (∀ i media, d.pwr.vaux = true → d.therm.tripped = false → d.pwr.state = .seqUp →
      exec (.thermtripComparator t i media) s =
        .next (s.leave t ({ d1 with pwr := { d1.pwr with step := 0 } } : Dev).powerDown.countMissed)) ∧
    (∀ i media, d.therm.tripped = true →
      exec (.thermtripComparator t i media) s = .next (s.leave t d.countMissed)) ∧
    (∀ temps x, d.pwr.vaux = true → d.life.running = false → aonReading temps = some x → x < degC 105 →
      exec (.thermtripRelease t temps) s =
        .next (s.leave t { d with therm := { d.therm with tripped := false } })))

/-- The throttle sets the three budgets and the factor and nothing else; the two program budgets are equal and
no budget is below its floor. With fewer than eight controller sensors readable, or at 120 °C, the budgets stand at their
floors and the factor is 0; at 110 °C and below, with no rate above 6 °C/s and eight readable, they stand at 200 and 140,
or at a higher floor, and the factor is 256. -/
def Obligations.ThrottleFollowsTemperature : Prop :=
  ∀ d : Dev,
    let t := d.therm
    let n := ((t.sensors.toList.take 16).filter Sensor.valid).length
    let x := d.throttle.therm
    x.budget0 = x.budget1 ∧ t.progFloor.toNat ≤ x.budget0 ∧ t.engFloor.toNat ≤ x.budgetE ∧
    (n < 8 ∨ degC 120 ≤ t.tmax → x.budget0 = t.progFloor.toNat ∧ x.budgetE = t.engFloor.toNat ∧ x.factor = 0) ∧
    (8 ≤ n → t.tmax ≤ degC 110 → t.rateMax ≤ 6 * rateDeg →
      x.budget0 = max t.progFloor.toNat 200 ∧ x.budgetE = max t.engFloor.toNat 140 ∧ x.factor = 256) ∧
    d.throttle = { d with therm := { t with
      budget0 := x.budget0, budget1 := x.budget1, budgetE := x.budgetE, factor := x.factor } }

/-- While ON, with no shut-down under way and the unit not unlocked: LIFE_CTRL's SHUTDOWN or WARM from the
sideband, or from a head with an owner session, and SEC_CTRL.TEST_UNLOCK from a head with a vendor session start an
orderly shut-down: every line is selected and the Bench makes its round. From a head without that session the write is
discarded and logged. 100 ms on, each command still executing is interrupted: what it has not written is dropped and it
ends with COMMAND_INTERRUPTED. The TAP takes its instruction and TEST_EN its level. With TEST_EN low and the unit not
unlocked the TAP selects none of the instructions that drive or isolate the pins; else it selects the one loaded. -/
def Obligations.ShutDownsNeedTheSession : Prop :=
  (∀ (s : State) (t : Nat),
    let d := s.before t
    let shut (k : ShutKind) := { d with life := { d.life with stage := .shutdown, shutting := some k, shutAt := d.now } }
    let denied (i : Instr) : Prop := exec i s = .next (s.leave t (d.event (evSecurity 3)).countMissed)
    (∀ p, d.portOn p = true → d.pwr.state = .on → d.life.shutting = none → d.sec.testUnlocked = false →
      (∀ bist media, d.mayLife p = true → exec (.shutdown t p bist media) s =
        .next (s.leave t ((((shut (.off bist)).selectAll).benchRound media).goOn.countMissed))) ∧
      (∀ x, d.mayLife p = true → exec (.warm t p x) s =
        .next (s.leave t ((((shut (.warm x)).selectAll).benchRound noAnswers).goOn))) ∧
      (∀ h media, p = .head h → d.session p 0 = true → exec (.testUnlock t p media) s =
        .next (s.leave t ((((shut .unlock).selectAll).benchRound media).goOn.countMissed)))) ∧
    (∀ h, d.portOn (.head h) = true →
      (d.session (.head h) 1 = false →
        (∀ bist media, denied (.shutdown t (.head h) bist media)) ∧
          ∀ x, exec (.warm t (.head h) x) s = .next (s.leave t (d.event (evSecurity 3)))) ∧
      (d.session (.head h) 0 = false → ∀ media, denied (.testUnlock t (.head h) media))) ∧
    (∀ k, d.life.shutting = some k → d.life.shutAt + 100 * msNs ≤ d.now →
      exec (.shutdownCmdTimeout t) s =
        .next (s.leave t ((d.q.exec.foldl (fun d x =>
          (((d.dropJob x.order).dropLater x).dropTest x).complete x 0x702 0) d).countMissed.goOn))) ∧
    (∀ i, exec (.tapInstruction t i) s = .next (s.leave t { d with life := { d.life with tap := i } })) ∧
    (∀ b, exec (.testEnChange t b) s = .next (s.leave t { d with life := { d.life with testEn := b } }))) ∧
  (∀ d : Dev,
    (d.life.testEn = false → d.sec.testUnlocked = false →
      d.tapSelects ∉ [TapInstr.extest, .extestPulse, .extestTrain, .clamp, .highz]) ∧
    (d.life.testEn = true ∨ d.sec.testUnlocked = true → d.tapSelects = d.life.tap))

/-- On a control core whose cluster runs: a poisoned fetch is logged with its cluster, slot and address, and
the cluster fails (Dev.failCluster: its slot marked bad, held for a reload, or halted); a poisoned load leaves the core's
abort standing, logs it, and signals a precise data abort. -/
def Obligations.PoisonReachesTheCores : Prop :=
  ∀ (s : State) (t : Nat) (core : Fin 16),
    let d := s.before t
    let c := core.val / 4
    let slot := d.sec.runSlot.toNat.testBit c
    d.life.running = true → d.clusterDown c = false →
    (∀ addr : Word, exec (.coreFetchPoison t core addr) s =
      .next (s.leave t ((d.event (evCore core.val 0) (detailOf [(32, c), (33, bool01 slot), (40, addr.toNat)])).failCluster
        c slot))) ∧
    exec (.coreDataAbort t core) s =
      .next (s.leave t (({ d with sec := { d.sec with aborts := setBit d.sec.aborts core.val true } }.event
        (evCore core.val 1)).send (.dataAbort core.val)))

/-- A register write by offset, from 0x20000 up. One that reaches a 4 B register, or an aligned 8 B unit of a wider one, which the port may
write, writes that register its value; one of a register that the port may not write changes nothing. At an offset from
0x20000 up that no register has, a head's write is an access outside the registers (Dev.barUnmapped), and the sideband's is
logged as reserved. A write of a locked PWR_CFG is logged and leaves it. TOLL_CFG takes its three fields where each is
inside its range, and with all three outside leaves them, with one event. Below 0x20000 a head programs its HDM decoders,
by the model's choice where CXL 3.1 puts them (log entry 18): a write of a head that is reached goes to them alone, one of
the sideband changes nothing, and a COMMIT of a decoder that is off takes it on only with 1, 2, 4, 8 or 16 ways, a
granularity of 256 B to 16 KiB, and a size of whole units of 256 MiB for each way. -/
def Obligations.RegisterWritesReachTheirRegister : Prop :=
  (∀ (s : State) (t : Nat) (p : Port) (off : BitVec 20) (v : Word),
    let d := s.before t
    (∀ r k, 0x20000 ≤ off.toNat → unassigned p off.toNat false = false → regAt off.toNat = some (r, 4, k) →
      (d.canWrite p r = true → exec (.registerWrite t p off false v) s =
        .next (s.leave t (d.writeReg p off.toNat 0 (fld v.toNat 0 32) r))) ∧
      (d.canWrite p r = false → s.idle (.registerWrite t p off false v) t)) ∧
    (∀ r n k, 0x20000 ≤ off.toNat → unassigned p off.toNat true = false → regAt off.toNat = some (r, n, k) → n ≠ 4 →
      (d.canWrite p r = true → exec (.registerWrite t p off true v) s =
        .next (s.leave t (d.writeReg p (off.toNat - k) (k / 8) (fld v.toNat 0 64) r))) ∧
      (d.canWrite p r = false → s.idle (.registerWrite t p off true v) t)) ∧
    (∀ wide, unassigned p off.toNat wide = true → d.portOn p = true → 0x20000 ≤ off.toNat →
      exec (.registerWrite t p off wide v) s = .next (s.leave t (match p with
        | .head h => (d.barAccess h 0 off.toNat true).lostStore h 1
        | .sideband => d.regReserved .sideband off.toNat))) ∧
    (off.toNat < 0x20000 → ∀ wide,
      s.idle (.registerWrite t .sideband off wide v) t ∧
      (∀ h, d.portOn (.head h) = true → off.toNat % 4 = 0 →
        exec (.registerWrite t (.head h) off false v) s =
          .next (s.leave t (d.onHead h (fun x => x.hdmWrite off.toNat (fld v.toNat 0 32))))))) ∧
  (∀ (x : Hdm) (prev next : Option Hdm) (v : Nat), x.on = false → v.testBit 9 = true →
    (x.write prev next 0x10 v).on = true →
    let y := x.write prev next 0x10 v
    y.ways ∈ [1, 2, 4, 8, 16] ∧ y.gran ∈ [256, 512, 1024, 2048, 4096, 8192, 16384] ∧ 0 < y.size ∧
      y.size % (y.ways * 2 ^ 28) = 0) ∧
  (∀ (d : Dev) (p : Port) (off v : Nat),
    (d.pwr.pwrLock = true → d.writePwrCfg p off v = d.regReserved p off) ∧
    (fld v 0 8 ≤ 50 → 1 ≤ fld v 8 8 → fld v 8 8 ≤ 100 → 1 ≤ fld v 16 8 → fld v 16 8 ≤ 140 →
      d.writeTollCfg p off v = { d with therm := { d.therm with
        bgShare := BitVec.ofNat _ (fld v 0 8), progFloor := BitVec.ofNat _ (fld v 8 8),
        engFloor := BitVec.ofNat _ (fld v 16 8) } }) ∧
    (50 < fld v 0 8 → fld v 8 8 = 0 → 140 < fld v 16 8 → d.writeTollCfg p off v = d.regReserved p off))

/-- A line's image decodes to the data and the metadata that it was built from, with no cell corrected, under
both profiles. -/
def Obligations.LinesDecodeAsTheyWereEncoded : Prop :=
  ∀ (p : Profile) (data : LineData) (m : Meta),
    m.tag < 2 ^ 36 → m.wseq < 2 ^ 40 → m.keyId < 2 ^ 7 → m.mac < 2 ^ 56 → m.dstamp < 2 ^ 16 →
    decodeLine p (encodeLine p data m) = some (data, m, 0)

/-- A ZT entry reads back its fields and is below 2^63; an index entry and a record header read back as they
were written, with valid check bits, for fields within their widths. -/
def Obligations.RecordsReadBackAsWritten : Prop :=
  (∀ (pz start gap stamp st : Nat) (light pclr : Bool),
    pz < 2 ^ 21 → start < 2 ^ 12 → gap < 2 ^ 13 → stamp < 2 ^ 12 → st < 2 ^ 3 →
    let e := mkZte pz start gap stamp light st pclr
    zPz e = pz ∧ zStart e = start ∧ zGap e = gap ∧ zStamp e = stamp ∧ zLight e = light ∧ zState e = st ∧
      zPclr e = pclr ∧ e < 2 ^ 63) ∧
  (∀ e : IdxEntry, e.key < 2 ^ 128 → e.loc < 2 ^ 40 → e.len < 2 ^ 32 → e.heap < 2 ^ 10 → e.k < 2 ^ 5 → e.m < 2 ^ 4 →
    e.digest < 2 ^ 3 → entryOf e.bits = e ∧ entryValid e.bits = true ∧ entryGood e.bits = true) ∧
  (∀ h : RecHead, 1 ≤ h.rtype → h.rtype ≤ 3 → h.k < 2 ^ 8 → h.m < 2 ^ 8 → h.digest < 2 ^ 3 → h.len < 2 ^ 32 →
    h.key < 2 ^ 128 → h.index < 2 ^ 10 → h.dval < 2 ^ 256 → headOf h.bits = h ∧ headGood h.bits = true)

/-! ### Rejected entries, reset -/

/-- An entry that carries CID 0xFFFF, or the CID of a command of its queue still executing, on an ACTIVE pair
whose completion queue lies in host memory over a link that is up, with nothing traced and no command waiting to delete the
head's admin pair (DELETE_QPAIR takes none): no command starts and none ends, and the next completion
written carries CID 0xFFFF, INVALID_FIELD or CID_IN_USE, and the place of the entry that it answers. -/
def Obligations.RejectedEntryExecutesNothing : Prop :=
  ∀ (d : Dev) (qid : Nat) (f : Fetch) (e : Sector),
    let cid := fld e.toNat 16 16
    let p := d.pair qid
    let x := d.entryData qid f e
    let used := d.q.exec.any (fun y => y.qid == qid && y.cid == cid && !y.orphan)
    qid < 128 → d.untraced → f.tag = none → p.state = .active → mtype p.cqBase = 0 → (d.head (headOfQid qid)).linkUp = true →
    (d.pair (64 * headNum (headOfQid qid))).deleter = none → cid = 0xFFFF ∨ used = true →
    x.q.exec = d.q.exec ∧ x.q.order = d.q.order ∧
    ∃ l, x.out = d.out ++ [.hostWrite (headOfQid qid) (addrOf p.cqBase + 16 * p.cqTail)
      (d.cplBytes qid 0xFFFF (if cid = 0xFFFF then 0x102 else 0x104) 0 (some f.index))] ++ l

/-- Reset: the time-stamp counter stands at 0, the device does not run, VAUX is up and every rail is down
and unmargined; no link is up, no head has credits, no pair is there, the admin registers stand at their reset values, and
the registers and fields named here at the values of their tables. -/
def Obligations.ResetValuesAreTheSpecs : Prop :=
  let d := State.reset.dev
  State.reset.clock.now = 0 ∧ d.life.running = false ∧ d.pwr.vaux = true ∧ d.pwr.state = .off ∧
  (∀ r, (d.rail r).en = false ∧ (d.rail r).step = 0) ∧
  (∀ h : Head, (d.head h).linkUp = false ∧ (d.head h).credits = 0 ∧ (d.adm h).cfg = 0x4001F01F ∧
    (d.adm h).en = false ∧ (d.adm h).rdy = false) ∧
  (∀ q, q < 128 → (d.pair q).state = .absent) ∧
  d.pwr.retry = 3 ∧ d.pwr.offMin = 10 ∧ d.pwr.marginStep = 0 ∧
  d.wearDelta = 4096 ∧ d.moveMax = 8 ∧ d.moveMaxOd = 32 ∧ d.earlyS = 20 ∧ d.earlyL = 6 ∧ d.pclrTarget = 1024 ∧
  d.cache.highWm = 50 ∧ d.cache.pfDepth = 8 ∧ d.cache.gather = true ∧ d.cache.ageLimit = 10 ∧ d.cache.steps = 0 ∧
  d.lane.mergeGuard = 2 ∧ d.lane.autoRepair = true ∧ d.lane.restoreDepth = 8 ∧
  d.obj.collectLow = 16 ∧ d.obj.collectHigh = 32 ∧ d.obj.collectMax = 75 ∧ d.obj.sealTime = 50 ∧
  d.ev.coalMs = 10 ∧ d.ev.headSeq = 0xFFFFFFFF ∧ d.ev.windowUs = 1000 ∧ d.ev.dumpEn = false ∧
  d.ev.periodMs = 1000 ∧ d.ev.slotsM1 = 3 ∧ d.ev.trEn = false ∧ d.ev.trRate = 10 ∧ d.ev.trDepth = 0xFF ∧
  d.therm.tmaxSrc = 0xFF ∧ d.therm.ea = 90 ∧ d.therm.toff = 55 ∧ d.therm.bgShare = 10 ∧ d.therm.progFloor = 20 ∧
  d.therm.engFloor = 20 ∧ d.therm.kp = 10 ∧ d.therm.kr = 10 ∧ d.sec.flipLine = 0x00004000
end

