-- ==== Sys2Proof/Laws/Memory.lean ====
section
/-!
SUPPORT. Sparse tables and byte memories: every operation keeps the canonical form, a read after a write to the
same key gives what was written, and a write leaves every other key alone.
-/

namespace Sys2Proof.Machine

variable {α : Type} [DecidableEq α] {dflt : α}

theorem twfFrom_mono {m : Sparse α} {lo lo' : Nat} (h : lo' ≤ lo) (w : twfFrom dflt lo m = true) :
    twfFrom dflt lo' m = true := by
  cases m with
  | nil => rfl
  | cons p m =>
    simp only [twfFrom, Bool.and_eq_true, decide_eq_true_eq] at w ⊢
    exact ⟨⟨le_trans h w.1.1, w.1.2⟩, w.2⟩

theorem twfFrom_tput {m : Sparse α} {lo k : Nat} {v : α} (hk : lo ≤ k) (hv : v ≠ dflt)
    (w : twfFrom dflt lo m = true) : twfFrom dflt lo (tput m k v) = true := by
  induction m generalizing lo with
  | nil => simp [tput, twfFrom, hk, hv]
  | cons p m ih =>
    obtain ⟨j, u⟩ := p
    simp only [twfFrom, Bool.and_eq_true, decide_eq_true_eq] at w
    simp only [tput]
    split
    · next e => subst e; simp [twfFrom, w.1.1, hv, w.2]
    · split
      · next hlt => simp [twfFrom, w.1.1, w.1.2, ih (Nat.succ_le_of_lt hlt) w.2]
      · next hne hnl =>
        have hlt : k < j := by omega
        simp [twfFrom, hk, hv, Nat.succ_le_of_lt hlt, w.1.2, w.2]

theorem twfFrom_tdel {m : Sparse α} {lo k : Nat} (w : twfFrom dflt lo m = true) :
    twfFrom dflt lo (tdel m k) = true := by
  induction m generalizing lo with
  | nil => rfl
  | cons p m ih =>
    obtain ⟨j, u⟩ := p
    have w0 := w
    simp only [twfFrom, Bool.and_eq_true, decide_eq_true_eq] at w
    simp only [tdel]
    split
    · exact twfFrom_mono (by omega) w.2
    · split
      · simp [twfFrom, w.1.1, w.1.2, ih w.2]
      · exact w0

/-- Setting a key keeps a table's canonical form. -/
theorem tset_wf {m : Sparse α} (k : Nat) (v : α) (w : twf dflt m = true) : twf dflt (tset dflt m k v) = true := by
  unfold tset
  split
  · exact twfFrom_tdel w
  · next h => exact twfFrom_tput (Nat.zero_le k) h w

theorem tmod_wf {m : Sparse α} (k : Nat) (f : α → α) (w : twf dflt m = true) :
    twf dflt (tmod dflt m k f) = true := tset_wf k _ w

theorem tget_below {m : Sparse α} {lo k : Nat} (h : k < lo) (w : twfFrom dflt lo m = true) :
    tget dflt m k = dflt := by
  induction m generalizing lo with
  | nil => rfl
  | cons p m ih =>
    obtain ⟨j, u⟩ := p
    simp only [twfFrom, Bool.and_eq_true, decide_eq_true_eq] at w
    have hj : j ≠ k := by omega
    simp only [tget, hj, if_false]
    exact ih (lo := j + 1) (by omega) w.2

omit [DecidableEq α] in
theorem tget_tput {m : Sparse α} (k j : Nat) (v : α) :
    tget dflt (tput m k v) j = if j = k then v else tget dflt m j := by
  induction m with
  | nil =>
    by_cases h : j = k
    · simp [tput, tget, h]
    · simp [tput, tget, h, Ne.symm h]
  | cons p m ih =>
    obtain ⟨i, u⟩ := p
    simp only [tput]
    split
    · next e => subst e; by_cases h : j = i <;> simp [tget, h, eq_comm]
    · next hne =>
      split
      · by_cases h : i = j
        · subst h; simp [tget, hne]
        · simp [tget, h, ih]
      · by_cases h : k = j
        · subst h; simp [tget]
        · simp [tget, h, Ne.symm h]

theorem tget_tdel {m : Sparse α} {lo : Nat} (k j : Nat) (w : twfFrom dflt lo m = true) :
    tget dflt (tdel m k) j = if j = k then dflt else tget dflt m j := by
  induction m generalizing lo with
  | nil => simp [tdel, tget]
  | cons p m ih =>
    obtain ⟨i, u⟩ := p
    simp only [twfFrom, Bool.and_eq_true, decide_eq_true_eq] at w
    simp only [tdel]
    split
    · next e =>
      subst e
      by_cases h : j = i
      · subst h; simp [tget_below (Nat.lt_succ_self j) w.2]
      · simp [tget, h, Ne.symm h]
    · next hne =>
      split
      · by_cases h : i = j
        · subst h; simp [tget, hne]
        · simp [tget, h, ih w.2]
      · by_cases h : j = k
        · subst h
          have : j < i := by omega
          simp [tget, hne, tget_below (Nat.lt_succ_of_lt this) w.2]
        · simp [h]

/-- A read after a write of one key. -/
theorem tget_tset {m : Sparse α} (k j : Nat) (v : α) (w : twf dflt m = true) :
    tget dflt (tset dflt m k v) j = if j = k then v else tget dflt m j := by
  unfold tset
  split
  · next h => rw [tget_tdel k j w, h]
  · exact tget_tput k j v

/-! ### Byte memories -/

theorem writeByte_wf {m : Memory} (a : Nat) (b : Byte) (w : Memory.wf m = true) :
    Memory.wf (writeByte m a b) = true := tset_wf a b w

theorem writeBytes_wf {m : Memory} (a : Nat) (bs : List Byte) (w : Memory.wf m = true) :
    Memory.wf (writeBytes m a bs) = true := by
  induction bs generalizing m a with
  | nil => exact w
  | cons b bs ih => exact ih (a + 1) (writeByte_wf a b w)

theorem readByte_writeByte {m : Memory} (a j : Nat) (b : Byte) (w : Memory.wf m = true) :
    readByte (writeByte m a b) j = if j = a then b else readByte m j := tget_tset a j b w

/-- Bytes outside a written range read as before. -/
theorem readByte_writeBytes_outside {m : Memory} {a j : Nat} {bs : List Byte} (w : Memory.wf m = true)
    (h : j < a ∨ a + bs.length ≤ j) : readByte (writeBytes m a bs) j = readByte m j := by
  induction bs generalizing m a with
  | nil => rfl
  | cons b bs ih =>
    simp only [List.length_cons] at h
    have hj : j ≠ a := by omega
    rw [writeBytes, ih (writeByte_wf a b w) (by omega), readByte_writeByte a j b w, if_neg hj]

/-- Bytes inside it read as written. -/
theorem readByte_writeBytes_inside {m : Memory} {a i : Nat} {bs : List Byte} (w : Memory.wf m = true)
    (h : i < bs.length) : readByte (writeBytes m a bs) (a + i) = bs[i] := by
  induction bs generalizing m a i with
  | nil => simp at h
  | cons b bs ih =>
    cases i with
    | zero =>
      rw [writeBytes, readByte_writeBytes_outside (writeByte_wf a b w) (by omega),
        readByte_writeByte a (a + 0) b w, if_pos (Nat.add_zero a)]
      rfl
    | succ i =>
      have h' : i < bs.length := by simpa using h
      have := ih (m := writeByte m a b) (a := a + 1) (i := i) (writeByte_wf a b w) h'
      rw [writeBytes, show a + (i + 1) = a + 1 + i by omega, this]
      rfl

@[simp] theorem readBytes_length (m : Memory) (a n : Nat) : (readBytes m a n).length = n := by
  induction n generalizing a with
  | zero => rfl
  | succ n ih => simp [readBytes, ih]

end Sys2Proof.Machine
end

