-- ==== Sys2Proof/Laws/State.lean ====
section
/-!
SUPPORT. One lemma per field per update of the device: what each named update leaves as it is, and what it reads
back.
-/

namespace Sys2Proof.Machine

/-! ### Sending -/

section

variable (d : Dev) (x : Sent)

@[simp] theorem Dev.send_now : (d.send x).now = d.now := rfl
@[simp] theorem Dev.send_aon : (d.send x).aon = d.aon := rfl
@[simp] theorem Dev.send_draws : (d.send x).draws = d.draws := rfl
@[simp] theorem Dev.send_medium : (d.send x).medium = d.medium := rfl
@[simp] theorem Dev.send_sys : (d.send x).sys = d.sys := rfl
@[simp] theorem Dev.send_nv : (d.send x).nv = d.nv := rfl
@[simp] theorem Dev.send_zt : (d.send x).zt = d.zt := rfl
@[simp] theorem Dev.send_cache : (d.send x).cache = d.cache := rfl
@[simp] theorem Dev.send_bench : (d.send x).bench = d.bench := rfl
@[simp] theorem Dev.send_lane : (d.send x).lane = d.lane := rfl
@[simp] theorem Dev.send_headA : (d.send x).headA = d.headA := rfl
@[simp] theorem Dev.send_headB : (d.send x).headB = d.headB := rfl
@[simp] theorem Dev.send_q : (d.send x).q = d.q := rfl
@[simp] theorem Dev.send_dma : (d.send x).dma = d.dma := rfl
@[simp] theorem Dev.send_eng : (d.send x).eng = d.eng := rfl
@[simp] theorem Dev.send_obj : (d.send x).obj = d.obj := rfl
@[simp] theorem Dev.send_ev : (d.send x).ev = d.ev := rfl
@[simp] theorem Dev.send_sec : (d.send x).sec = d.sec := rfl
@[simp] theorem Dev.send_pwr : (d.send x).pwr = d.pwr := rfl
@[simp] theorem Dev.send_therm : (d.send x).therm = d.therm := rfl
@[simp] theorem Dev.send_cab : (d.send x).cab = d.cab := rfl
@[simp] theorem Dev.send_life : (d.send x).life = d.life := rfl
@[simp] theorem Dev.send_wearDelta : (d.send x).wearDelta = d.wearDelta := rfl
@[simp] theorem Dev.send_moveMax : (d.send x).moveMax = d.moveMax := rfl
@[simp] theorem Dev.send_moveMaxOd : (d.send x).moveMaxOd = d.moveMaxOd := rfl
@[simp] theorem Dev.send_earlyS : (d.send x).earlyS = d.earlyS := rfl
@[simp] theorem Dev.send_earlyL : (d.send x).earlyL = d.earlyL := rfl
@[simp] theorem Dev.send_pclrTarget : (d.send x).pclrTarget = d.pclrTarget := rfl
@[simp] theorem Dev.send_refresh : (d.send x).refresh = d.refresh := rfl
@[simp] theorem Dev.send_ztSel : (d.send x).ztSel = d.ztSel := rfl
@[simp] theorem Dev.send_samples : (d.send x).samples = d.samples := rfl

end

/-! ### Sending a list -/

section

variable (d : Dev) (l : List Sent)

@[simp] theorem Dev.sendAll_now : (d.sendAll l).now = d.now := rfl
@[simp] theorem Dev.sendAll_aon : (d.sendAll l).aon = d.aon := rfl
@[simp] theorem Dev.sendAll_draws : (d.sendAll l).draws = d.draws := rfl
@[simp] theorem Dev.sendAll_medium : (d.sendAll l).medium = d.medium := rfl
@[simp] theorem Dev.sendAll_sys : (d.sendAll l).sys = d.sys := rfl
@[simp] theorem Dev.sendAll_nv : (d.sendAll l).nv = d.nv := rfl
@[simp] theorem Dev.sendAll_zt : (d.sendAll l).zt = d.zt := rfl
@[simp] theorem Dev.sendAll_cache : (d.sendAll l).cache = d.cache := rfl
@[simp] theorem Dev.sendAll_bench : (d.sendAll l).bench = d.bench := rfl
@[simp] theorem Dev.sendAll_lane : (d.sendAll l).lane = d.lane := rfl
@[simp] theorem Dev.sendAll_headA : (d.sendAll l).headA = d.headA := rfl
@[simp] theorem Dev.sendAll_headB : (d.sendAll l).headB = d.headB := rfl
@[simp] theorem Dev.sendAll_q : (d.sendAll l).q = d.q := rfl
@[simp] theorem Dev.sendAll_dma : (d.sendAll l).dma = d.dma := rfl
@[simp] theorem Dev.sendAll_eng : (d.sendAll l).eng = d.eng := rfl
@[simp] theorem Dev.sendAll_obj : (d.sendAll l).obj = d.obj := rfl
@[simp] theorem Dev.sendAll_ev : (d.sendAll l).ev = d.ev := rfl
@[simp] theorem Dev.sendAll_sec : (d.sendAll l).sec = d.sec := rfl
@[simp] theorem Dev.sendAll_pwr : (d.sendAll l).pwr = d.pwr := rfl
@[simp] theorem Dev.sendAll_therm : (d.sendAll l).therm = d.therm := rfl
@[simp] theorem Dev.sendAll_cab : (d.sendAll l).cab = d.cab := rfl
@[simp] theorem Dev.sendAll_life : (d.sendAll l).life = d.life := rfl
@[simp] theorem Dev.sendAll_wearDelta : (d.sendAll l).wearDelta = d.wearDelta := rfl
@[simp] theorem Dev.sendAll_moveMax : (d.sendAll l).moveMax = d.moveMax := rfl
@[simp] theorem Dev.sendAll_moveMaxOd : (d.sendAll l).moveMaxOd = d.moveMaxOd := rfl
@[simp] theorem Dev.sendAll_earlyS : (d.sendAll l).earlyS = d.earlyS := rfl
@[simp] theorem Dev.sendAll_earlyL : (d.sendAll l).earlyL = d.earlyL := rfl
@[simp] theorem Dev.sendAll_pclrTarget : (d.sendAll l).pclrTarget = d.pclrTarget := rfl
@[simp] theorem Dev.sendAll_refresh : (d.sendAll l).refresh = d.refresh := rfl
@[simp] theorem Dev.sendAll_ztSel : (d.sendAll l).ztSel = d.ztSel := rfl
@[simp] theorem Dev.sendAll_samples : (d.sendAll l).samples = d.samples := rfl

end

/-! ### A lane -/

section

variable (d : Dev) (i : Nat) (x : Lane)

@[simp] theorem Dev.setLane_now : (d.setLane i x).now = d.now := rfl
@[simp] theorem Dev.setLane_aon : (d.setLane i x).aon = d.aon := rfl
@[simp] theorem Dev.setLane_draws : (d.setLane i x).draws = d.draws := rfl
@[simp] theorem Dev.setLane_medium : (d.setLane i x).medium = d.medium := rfl
@[simp] theorem Dev.setLane_sys : (d.setLane i x).sys = d.sys := rfl
@[simp] theorem Dev.setLane_nv : (d.setLane i x).nv = d.nv := rfl
@[simp] theorem Dev.setLane_zt : (d.setLane i x).zt = d.zt := rfl
@[simp] theorem Dev.setLane_cache : (d.setLane i x).cache = d.cache := rfl
@[simp] theorem Dev.setLane_bench : (d.setLane i x).bench = d.bench := rfl
@[simp] theorem Dev.setLane_headA : (d.setLane i x).headA = d.headA := rfl
@[simp] theorem Dev.setLane_headB : (d.setLane i x).headB = d.headB := rfl
@[simp] theorem Dev.setLane_q : (d.setLane i x).q = d.q := rfl
@[simp] theorem Dev.setLane_dma : (d.setLane i x).dma = d.dma := rfl
@[simp] theorem Dev.setLane_eng : (d.setLane i x).eng = d.eng := rfl
@[simp] theorem Dev.setLane_obj : (d.setLane i x).obj = d.obj := rfl
@[simp] theorem Dev.setLane_ev : (d.setLane i x).ev = d.ev := rfl
@[simp] theorem Dev.setLane_sec : (d.setLane i x).sec = d.sec := rfl
@[simp] theorem Dev.setLane_pwr : (d.setLane i x).pwr = d.pwr := rfl
@[simp] theorem Dev.setLane_therm : (d.setLane i x).therm = d.therm := rfl
@[simp] theorem Dev.setLane_cab : (d.setLane i x).cab = d.cab := rfl
@[simp] theorem Dev.setLane_life : (d.setLane i x).life = d.life := rfl
@[simp] theorem Dev.setLane_wearDelta : (d.setLane i x).wearDelta = d.wearDelta := rfl
@[simp] theorem Dev.setLane_moveMax : (d.setLane i x).moveMax = d.moveMax := rfl
@[simp] theorem Dev.setLane_moveMaxOd : (d.setLane i x).moveMaxOd = d.moveMaxOd := rfl
@[simp] theorem Dev.setLane_earlyS : (d.setLane i x).earlyS = d.earlyS := rfl
@[simp] theorem Dev.setLane_earlyL : (d.setLane i x).earlyL = d.earlyL := rfl
@[simp] theorem Dev.setLane_pclrTarget : (d.setLane i x).pclrTarget = d.pclrTarget := rfl
@[simp] theorem Dev.setLane_refresh : (d.setLane i x).refresh = d.refresh := rfl
@[simp] theorem Dev.setLane_ztSel : (d.setLane i x).ztSel = d.ztSel := rfl
@[simp] theorem Dev.setLane_samples : (d.setLane i x).samples = d.samples := rfl
@[simp] theorem Dev.setLane_out : (d.setLane i x).out = d.out := rfl

end

/-! ### A queue pair -/

section

variable (d : Dev) (i : Nat) (x : QPair)

@[simp] theorem Dev.setPair_now : (d.setPair i x).now = d.now := rfl
@[simp] theorem Dev.setPair_aon : (d.setPair i x).aon = d.aon := rfl
@[simp] theorem Dev.setPair_draws : (d.setPair i x).draws = d.draws := rfl
@[simp] theorem Dev.setPair_medium : (d.setPair i x).medium = d.medium := rfl
@[simp] theorem Dev.setPair_sys : (d.setPair i x).sys = d.sys := rfl
@[simp] theorem Dev.setPair_nv : (d.setPair i x).nv = d.nv := rfl
@[simp] theorem Dev.setPair_zt : (d.setPair i x).zt = d.zt := rfl
@[simp] theorem Dev.setPair_cache : (d.setPair i x).cache = d.cache := rfl
@[simp] theorem Dev.setPair_bench : (d.setPair i x).bench = d.bench := rfl
@[simp] theorem Dev.setPair_lane : (d.setPair i x).lane = d.lane := rfl
@[simp] theorem Dev.setPair_headA : (d.setPair i x).headA = d.headA := rfl
@[simp] theorem Dev.setPair_headB : (d.setPair i x).headB = d.headB := rfl
@[simp] theorem Dev.setPair_dma : (d.setPair i x).dma = d.dma := rfl
@[simp] theorem Dev.setPair_eng : (d.setPair i x).eng = d.eng := rfl
@[simp] theorem Dev.setPair_obj : (d.setPair i x).obj = d.obj := rfl
@[simp] theorem Dev.setPair_ev : (d.setPair i x).ev = d.ev := rfl
@[simp] theorem Dev.setPair_sec : (d.setPair i x).sec = d.sec := rfl
@[simp] theorem Dev.setPair_pwr : (d.setPair i x).pwr = d.pwr := rfl
@[simp] theorem Dev.setPair_therm : (d.setPair i x).therm = d.therm := rfl
@[simp] theorem Dev.setPair_cab : (d.setPair i x).cab = d.cab := rfl
@[simp] theorem Dev.setPair_life : (d.setPair i x).life = d.life := rfl
@[simp] theorem Dev.setPair_wearDelta : (d.setPair i x).wearDelta = d.wearDelta := rfl
@[simp] theorem Dev.setPair_moveMax : (d.setPair i x).moveMax = d.moveMax := rfl
@[simp] theorem Dev.setPair_moveMaxOd : (d.setPair i x).moveMaxOd = d.moveMaxOd := rfl
@[simp] theorem Dev.setPair_earlyS : (d.setPair i x).earlyS = d.earlyS := rfl
@[simp] theorem Dev.setPair_earlyL : (d.setPair i x).earlyL = d.earlyL := rfl
@[simp] theorem Dev.setPair_pclrTarget : (d.setPair i x).pclrTarget = d.pclrTarget := rfl
@[simp] theorem Dev.setPair_refresh : (d.setPair i x).refresh = d.refresh := rfl
@[simp] theorem Dev.setPair_ztSel : (d.setPair i x).ztSel = d.ztSel := rfl
@[simp] theorem Dev.setPair_samples : (d.setPair i x).samples = d.samples := rfl
@[simp] theorem Dev.setPair_out : (d.setPair i x).out = d.out := rfl

end

/-! ### A stream -/

section

variable (d : Dev) (i : Nat) (x : Stream)

@[simp] theorem Dev.setStream_now : (d.setStream i x).now = d.now := rfl
@[simp] theorem Dev.setStream_aon : (d.setStream i x).aon = d.aon := rfl
@[simp] theorem Dev.setStream_draws : (d.setStream i x).draws = d.draws := rfl
@[simp] theorem Dev.setStream_medium : (d.setStream i x).medium = d.medium := rfl
@[simp] theorem Dev.setStream_sys : (d.setStream i x).sys = d.sys := rfl
@[simp] theorem Dev.setStream_nv : (d.setStream i x).nv = d.nv := rfl
@[simp] theorem Dev.setStream_zt : (d.setStream i x).zt = d.zt := rfl
@[simp] theorem Dev.setStream_cache : (d.setStream i x).cache = d.cache := rfl
@[simp] theorem Dev.setStream_bench : (d.setStream i x).bench = d.bench := rfl
@[simp] theorem Dev.setStream_lane : (d.setStream i x).lane = d.lane := rfl
@[simp] theorem Dev.setStream_headA : (d.setStream i x).headA = d.headA := rfl
@[simp] theorem Dev.setStream_headB : (d.setStream i x).headB = d.headB := rfl
@[simp] theorem Dev.setStream_q : (d.setStream i x).q = d.q := rfl
@[simp] theorem Dev.setStream_obj : (d.setStream i x).obj = d.obj := rfl
@[simp] theorem Dev.setStream_ev : (d.setStream i x).ev = d.ev := rfl
@[simp] theorem Dev.setStream_sec : (d.setStream i x).sec = d.sec := rfl
@[simp] theorem Dev.setStream_pwr : (d.setStream i x).pwr = d.pwr := rfl
@[simp] theorem Dev.setStream_therm : (d.setStream i x).therm = d.therm := rfl
@[simp] theorem Dev.setStream_cab : (d.setStream i x).cab = d.cab := rfl
@[simp] theorem Dev.setStream_life : (d.setStream i x).life = d.life := rfl
@[simp] theorem Dev.setStream_wearDelta : (d.setStream i x).wearDelta = d.wearDelta := rfl
@[simp] theorem Dev.setStream_moveMax : (d.setStream i x).moveMax = d.moveMax := rfl
@[simp] theorem Dev.setStream_moveMaxOd : (d.setStream i x).moveMaxOd = d.moveMaxOd := rfl
@[simp] theorem Dev.setStream_earlyS : (d.setStream i x).earlyS = d.earlyS := rfl
@[simp] theorem Dev.setStream_earlyL : (d.setStream i x).earlyL = d.earlyL := rfl
@[simp] theorem Dev.setStream_pclrTarget : (d.setStream i x).pclrTarget = d.pclrTarget := rfl
@[simp] theorem Dev.setStream_refresh : (d.setStream i x).refresh = d.refresh := rfl
@[simp] theorem Dev.setStream_ztSel : (d.setStream i x).ztSel = d.ztSel := rfl
@[simp] theorem Dev.setStream_samples : (d.setStream i x).samples = d.samples := rfl
@[simp] theorem Dev.setStream_out : (d.setStream i x).out = d.out := rfl

end

/-! ### A channel -/

section

variable (d : Dev) (i : Nat) (x : Chan)

@[simp] theorem Dev.setChan_now : (d.setChan i x).now = d.now := rfl
@[simp] theorem Dev.setChan_aon : (d.setChan i x).aon = d.aon := rfl
@[simp] theorem Dev.setChan_draws : (d.setChan i x).draws = d.draws := rfl
@[simp] theorem Dev.setChan_medium : (d.setChan i x).medium = d.medium := rfl
@[simp] theorem Dev.setChan_sys : (d.setChan i x).sys = d.sys := rfl
@[simp] theorem Dev.setChan_nv : (d.setChan i x).nv = d.nv := rfl
@[simp] theorem Dev.setChan_zt : (d.setChan i x).zt = d.zt := rfl
@[simp] theorem Dev.setChan_cache : (d.setChan i x).cache = d.cache := rfl
@[simp] theorem Dev.setChan_bench : (d.setChan i x).bench = d.bench := rfl
@[simp] theorem Dev.setChan_lane : (d.setChan i x).lane = d.lane := rfl
@[simp] theorem Dev.setChan_headA : (d.setChan i x).headA = d.headA := rfl
@[simp] theorem Dev.setChan_headB : (d.setChan i x).headB = d.headB := rfl
@[simp] theorem Dev.setChan_q : (d.setChan i x).q = d.q := rfl
@[simp] theorem Dev.setChan_obj : (d.setChan i x).obj = d.obj := rfl
@[simp] theorem Dev.setChan_ev : (d.setChan i x).ev = d.ev := rfl
@[simp] theorem Dev.setChan_sec : (d.setChan i x).sec = d.sec := rfl
@[simp] theorem Dev.setChan_pwr : (d.setChan i x).pwr = d.pwr := rfl
@[simp] theorem Dev.setChan_therm : (d.setChan i x).therm = d.therm := rfl
@[simp] theorem Dev.setChan_cab : (d.setChan i x).cab = d.cab := rfl
@[simp] theorem Dev.setChan_life : (d.setChan i x).life = d.life := rfl
@[simp] theorem Dev.setChan_wearDelta : (d.setChan i x).wearDelta = d.wearDelta := rfl
@[simp] theorem Dev.setChan_moveMax : (d.setChan i x).moveMax = d.moveMax := rfl
@[simp] theorem Dev.setChan_moveMaxOd : (d.setChan i x).moveMaxOd = d.moveMaxOd := rfl
@[simp] theorem Dev.setChan_earlyS : (d.setChan i x).earlyS = d.earlyS := rfl
@[simp] theorem Dev.setChan_earlyL : (d.setChan i x).earlyL = d.earlyL := rfl
@[simp] theorem Dev.setChan_pclrTarget : (d.setChan i x).pclrTarget = d.pclrTarget := rfl
@[simp] theorem Dev.setChan_refresh : (d.setChan i x).refresh = d.refresh := rfl
@[simp] theorem Dev.setChan_ztSel : (d.setChan i x).ztSel = d.ztSel := rfl
@[simp] theorem Dev.setChan_samples : (d.setChan i x).samples = d.samples := rfl
@[simp] theorem Dev.setChan_out : (d.setChan i x).out = d.out := rfl

end

/-! ### An occurrence -/

section

variable (d : Dev) (n k : Nat) (on : Bool) (x : BitVec 256)

@[simp] theorem Dev.occur_now : (d.occur n k on x).now = d.now := rfl
@[simp] theorem Dev.occur_aon : (d.occur n k on x).aon = d.aon := rfl
@[simp] theorem Dev.occur_draws : (d.occur n k on x).draws = d.draws := rfl
@[simp] theorem Dev.occur_medium : (d.occur n k on x).medium = d.medium := rfl
@[simp] theorem Dev.occur_sys : (d.occur n k on x).sys = d.sys := rfl
@[simp] theorem Dev.occur_nv : (d.occur n k on x).nv = d.nv := rfl
@[simp] theorem Dev.occur_zt : (d.occur n k on x).zt = d.zt := rfl
@[simp] theorem Dev.occur_cache : (d.occur n k on x).cache = d.cache := rfl
@[simp] theorem Dev.occur_bench : (d.occur n k on x).bench = d.bench := rfl
@[simp] theorem Dev.occur_lane : (d.occur n k on x).lane = d.lane := rfl
@[simp] theorem Dev.occur_headA : (d.occur n k on x).headA = d.headA := rfl
@[simp] theorem Dev.occur_headB : (d.occur n k on x).headB = d.headB := rfl
@[simp] theorem Dev.occur_q : (d.occur n k on x).q = d.q := rfl
@[simp] theorem Dev.occur_dma : (d.occur n k on x).dma = d.dma := rfl
@[simp] theorem Dev.occur_eng : (d.occur n k on x).eng = d.eng := rfl
@[simp] theorem Dev.occur_obj : (d.occur n k on x).obj = d.obj := rfl
@[simp] theorem Dev.occur_sec : (d.occur n k on x).sec = d.sec := rfl
@[simp] theorem Dev.occur_pwr : (d.occur n k on x).pwr = d.pwr := rfl
@[simp] theorem Dev.occur_therm : (d.occur n k on x).therm = d.therm := rfl
@[simp] theorem Dev.occur_cab : (d.occur n k on x).cab = d.cab := rfl
@[simp] theorem Dev.occur_life : (d.occur n k on x).life = d.life := rfl
@[simp] theorem Dev.occur_wearDelta : (d.occur n k on x).wearDelta = d.wearDelta := rfl
@[simp] theorem Dev.occur_moveMax : (d.occur n k on x).moveMax = d.moveMax := rfl
@[simp] theorem Dev.occur_moveMaxOd : (d.occur n k on x).moveMaxOd = d.moveMaxOd := rfl
@[simp] theorem Dev.occur_earlyS : (d.occur n k on x).earlyS = d.earlyS := rfl
@[simp] theorem Dev.occur_earlyL : (d.occur n k on x).earlyL = d.earlyL := rfl
@[simp] theorem Dev.occur_pclrTarget : (d.occur n k on x).pclrTarget = d.pclrTarget := rfl
@[simp] theorem Dev.occur_refresh : (d.occur n k on x).refresh = d.refresh := rfl
@[simp] theorem Dev.occur_ztSel : (d.occur n k on x).ztSel = d.ztSel := rfl
@[simp] theorem Dev.occur_samples : (d.occur n k on x).samples = d.samples := rfl
@[simp] theorem Dev.occur_out : (d.occur n k on x).out = d.out := rfl

end

/-! ### An event -/

section

variable (d : Dev) (n : Nat) (x : BitVec 256)

@[simp] theorem Dev.event_now : (d.event n x).now = d.now := rfl
@[simp] theorem Dev.event_aon : (d.event n x).aon = d.aon := rfl
@[simp] theorem Dev.event_draws : (d.event n x).draws = d.draws := rfl
@[simp] theorem Dev.event_medium : (d.event n x).medium = d.medium := rfl
@[simp] theorem Dev.event_sys : (d.event n x).sys = d.sys := rfl
@[simp] theorem Dev.event_nv : (d.event n x).nv = d.nv := rfl
@[simp] theorem Dev.event_zt : (d.event n x).zt = d.zt := rfl
@[simp] theorem Dev.event_cache : (d.event n x).cache = d.cache := rfl
@[simp] theorem Dev.event_bench : (d.event n x).bench = d.bench := rfl
@[simp] theorem Dev.event_lane : (d.event n x).lane = d.lane := rfl
@[simp] theorem Dev.event_headA : (d.event n x).headA = d.headA := rfl
@[simp] theorem Dev.event_headB : (d.event n x).headB = d.headB := rfl
@[simp] theorem Dev.event_q : (d.event n x).q = d.q := rfl
@[simp] theorem Dev.event_dma : (d.event n x).dma = d.dma := rfl
@[simp] theorem Dev.event_eng : (d.event n x).eng = d.eng := rfl
@[simp] theorem Dev.event_obj : (d.event n x).obj = d.obj := rfl
@[simp] theorem Dev.event_sec : (d.event n x).sec = d.sec := rfl
@[simp] theorem Dev.event_pwr : (d.event n x).pwr = d.pwr := rfl
@[simp] theorem Dev.event_therm : (d.event n x).therm = d.therm := rfl
@[simp] theorem Dev.event_cab : (d.event n x).cab = d.cab := rfl
@[simp] theorem Dev.event_life : (d.event n x).life = d.life := rfl
@[simp] theorem Dev.event_wearDelta : (d.event n x).wearDelta = d.wearDelta := rfl
@[simp] theorem Dev.event_moveMax : (d.event n x).moveMax = d.moveMax := rfl
@[simp] theorem Dev.event_moveMaxOd : (d.event n x).moveMaxOd = d.moveMaxOd := rfl
@[simp] theorem Dev.event_earlyS : (d.event n x).earlyS = d.earlyS := rfl
@[simp] theorem Dev.event_earlyL : (d.event n x).earlyL = d.earlyL := rfl
@[simp] theorem Dev.event_pclrTarget : (d.event n x).pclrTarget = d.pclrTarget := rfl
@[simp] theorem Dev.event_refresh : (d.event n x).refresh = d.refresh := rfl
@[simp] theorem Dev.event_ztSel : (d.event n x).ztSel = d.ztSel := rfl
@[simp] theorem Dev.event_samples : (d.event n x).samples = d.samples := rfl
@[simp] theorem Dev.event_out : (d.event n x).out = d.out := rfl

end

/-! ### A counter -/

section

variable (d : Dev) (n k : Nat)

@[simp] theorem Dev.count_now : (d.count n k).now = d.now := rfl
@[simp] theorem Dev.count_aon : (d.count n k).aon = d.aon := rfl
@[simp] theorem Dev.count_draws : (d.count n k).draws = d.draws := rfl
@[simp] theorem Dev.count_medium : (d.count n k).medium = d.medium := rfl
@[simp] theorem Dev.count_sys : (d.count n k).sys = d.sys := rfl
@[simp] theorem Dev.count_nv : (d.count n k).nv = d.nv := rfl
@[simp] theorem Dev.count_zt : (d.count n k).zt = d.zt := rfl
@[simp] theorem Dev.count_cache : (d.count n k).cache = d.cache := rfl
@[simp] theorem Dev.count_bench : (d.count n k).bench = d.bench := rfl
@[simp] theorem Dev.count_lane : (d.count n k).lane = d.lane := rfl
@[simp] theorem Dev.count_headA : (d.count n k).headA = d.headA := rfl
@[simp] theorem Dev.count_headB : (d.count n k).headB = d.headB := rfl
@[simp] theorem Dev.count_q : (d.count n k).q = d.q := rfl
@[simp] theorem Dev.count_dma : (d.count n k).dma = d.dma := rfl
@[simp] theorem Dev.count_eng : (d.count n k).eng = d.eng := rfl
@[simp] theorem Dev.count_obj : (d.count n k).obj = d.obj := rfl
@[simp] theorem Dev.count_sec : (d.count n k).sec = d.sec := rfl
@[simp] theorem Dev.count_pwr : (d.count n k).pwr = d.pwr := rfl
@[simp] theorem Dev.count_therm : (d.count n k).therm = d.therm := rfl
@[simp] theorem Dev.count_cab : (d.count n k).cab = d.cab := rfl
@[simp] theorem Dev.count_life : (d.count n k).life = d.life := rfl
@[simp] theorem Dev.count_wearDelta : (d.count n k).wearDelta = d.wearDelta := rfl
@[simp] theorem Dev.count_moveMax : (d.count n k).moveMax = d.moveMax := rfl
@[simp] theorem Dev.count_moveMaxOd : (d.count n k).moveMaxOd = d.moveMaxOd := rfl
@[simp] theorem Dev.count_earlyS : (d.count n k).earlyS = d.earlyS := rfl
@[simp] theorem Dev.count_earlyL : (d.count n k).earlyL = d.earlyL := rfl
@[simp] theorem Dev.count_pclrTarget : (d.count n k).pclrTarget = d.pclrTarget := rfl
@[simp] theorem Dev.count_refresh : (d.count n k).refresh = d.refresh := rfl
@[simp] theorem Dev.count_ztSel : (d.count n k).ztSel = d.ztSel := rfl
@[simp] theorem Dev.count_samples : (d.count n k).samples = d.samples := rfl
@[simp] theorem Dev.count_out : (d.count n k).out = d.out := rfl

end

/-! ### A head -/

section

variable (d : Dev) (h : Head) (x : HeadSt)

@[simp] theorem Dev.setHead_now : (d.setHead h x).now = d.now := by cases h <;> rfl
@[simp] theorem Dev.setHead_aon : (d.setHead h x).aon = d.aon := by cases h <;> rfl
@[simp] theorem Dev.setHead_draws : (d.setHead h x).draws = d.draws := by cases h <;> rfl
@[simp] theorem Dev.setHead_medium : (d.setHead h x).medium = d.medium := by cases h <;> rfl
@[simp] theorem Dev.setHead_sys : (d.setHead h x).sys = d.sys := by cases h <;> rfl
@[simp] theorem Dev.setHead_nv : (d.setHead h x).nv = d.nv := by cases h <;> rfl
@[simp] theorem Dev.setHead_zt : (d.setHead h x).zt = d.zt := by cases h <;> rfl
@[simp] theorem Dev.setHead_cache : (d.setHead h x).cache = d.cache := by cases h <;> rfl
@[simp] theorem Dev.setHead_bench : (d.setHead h x).bench = d.bench := by cases h <;> rfl
@[simp] theorem Dev.setHead_lane : (d.setHead h x).lane = d.lane := by cases h <;> rfl
@[simp] theorem Dev.setHead_q : (d.setHead h x).q = d.q := by cases h <;> rfl
@[simp] theorem Dev.setHead_dma : (d.setHead h x).dma = d.dma := by cases h <;> rfl
@[simp] theorem Dev.setHead_obj : (d.setHead h x).obj = d.obj := by cases h <;> rfl
@[simp] theorem Dev.setHead_ev : (d.setHead h x).ev = d.ev := by cases h <;> rfl
@[simp] theorem Dev.setHead_sec : (d.setHead h x).sec = d.sec := by cases h <;> rfl
@[simp] theorem Dev.setHead_pwr : (d.setHead h x).pwr = d.pwr := by cases h <;> rfl
@[simp] theorem Dev.setHead_therm : (d.setHead h x).therm = d.therm := by cases h <;> rfl
@[simp] theorem Dev.setHead_cab : (d.setHead h x).cab = d.cab := by cases h <;> rfl
@[simp] theorem Dev.setHead_life : (d.setHead h x).life = d.life := by cases h <;> rfl
@[simp] theorem Dev.setHead_wearDelta : (d.setHead h x).wearDelta = d.wearDelta := by cases h <;> rfl
@[simp] theorem Dev.setHead_moveMax : (d.setHead h x).moveMax = d.moveMax := by cases h <;> rfl
@[simp] theorem Dev.setHead_moveMaxOd : (d.setHead h x).moveMaxOd = d.moveMaxOd := by cases h <;> rfl
@[simp] theorem Dev.setHead_earlyS : (d.setHead h x).earlyS = d.earlyS := by cases h <;> rfl
@[simp] theorem Dev.setHead_earlyL : (d.setHead h x).earlyL = d.earlyL := by cases h <;> rfl
@[simp] theorem Dev.setHead_pclrTarget : (d.setHead h x).pclrTarget = d.pclrTarget := by cases h <;> rfl
@[simp] theorem Dev.setHead_refresh : (d.setHead h x).refresh = d.refresh := by cases h <;> rfl
@[simp] theorem Dev.setHead_ztSel : (d.setHead h x).ztSel = d.ztSel := by cases h <;> rfl
@[simp] theorem Dev.setHead_samples : (d.setHead h x).samples = d.samples := by cases h <;> rfl
@[simp] theorem Dev.setHead_out : (d.setHead h x).out = d.out := by cases h <;> rfl

@[simp] theorem Dev.head_setHead : (d.setHead h x).head h = x := by cases h <;> rfl
@[simp] theorem Dev.otherHead_setHead : (d.setHead h x).head (otherHead h) = d.head (otherHead h) := by
  cases h <;> rfl
@[simp] theorem Dev.head_send (y : Sent) : (d.send y).head h = d.head h := by cases h <;> rfl
@[simp] theorem Dev.head_count (n k : Nat) : (d.count n k).head h = d.head h := by cases h <;> rfl
@[simp] theorem Dev.head_event (n : Nat) (y : BitVec 256) : (d.event n y).head h = d.head h := by
  cases h <;> rfl

end

/-! ### What an update reads back -/

@[simp] theorem Dev.send_out (d : Dev) (x : Sent) : (d.send x).out = d.out ++ [x] := rfl
@[simp] theorem Dev.sendAll_out (d : Dev) (l : List Sent) : (d.sendAll l).out = d.out ++ l := rfl

theorem vget_vset {α : Type} {n : Nat} (dflt x : α) (v : Vector α n) (i j : Nat) (h : i < n) :
    vget dflt (vset v i x) j = if i = j then x else vget dflt v j := by
  unfold vget vset
  by_cases e : i = j
  · subst e; simp [h]
  · simp [e]

theorem Dev.lane1_setLane (d : Dev) (x : Lane) (i j : Nat) (h : i < 16) :
    (d.setLane i x).lane1 j = if i = j then x else d.lane1 j := vget_vset _ x _ i j h

theorem Dev.pair_setPair (d : Dev) (x : QPair) (i j : Nat) (h : i < 128) :
    (d.setPair i x).pair j = if i = j then x else d.pair j := vget_vset _ x _ i j h

theorem Dev.stream_setStream (d : Dev) (x : Stream) (i j : Nat) (h : i < 64) :
    (d.setStream i x).stream j = if i = j then x else d.stream j := vget_vset _ x _ i j h

theorem Dev.chan_setChan (d : Dev) (x : Chan) (i j : Nat) (h : i < 32) :
    (d.setChan i x).chan j = if i = j then x else d.chan j := vget_vset _ x _ i j h

end Sys2Proof.Machine
end

