-- ==== Sys2Proof/Laws/Run.lean ====
section
/-!
SUPPORT. What surrounds a command, said once: time passing changes clocks, counters and the event log alone;
settling keeps every register and block that it does not own; a command's answer is the state it leaves.
-/

namespace Sys2Proof.Machine

/-! ### The answer of a command -/

theorem State.run_eq_leave {s : State} {t : Nat} {f : Dev → Dev} {d : Dev} (h : f (s.before t) = d) :
    s.run t f = s.leave t d := by
  subst h; rfl

/-- A meaning answers the state that its work leaves. -/
theorem State.after_eq {s : State} {t : Nat} {f : Dev → Dev} {d : Dev} (h : f (s.before t) = d) :
    s.after t f = .next (s.leave t d) := by
  unfold State.after
  rw [State.run_eq_leave h]

/-- The same for a meaning that lets what waits go on. -/
theorem State.afterOn_eq {s : State} {t : Nat} {f : Dev → Dev} {d : Dev} (h : (f (s.before t)).countMissed.goOn = d) :
    s.afterOn t f = .next (s.leave t d) := State.after_eq h

@[simp] theorem State.run_pending (s : State) (t : Nat) (f : Dev → Dev) : (s.run t f).pending = s.pending := rfl

@[simp] theorem State.leave_pending (s : State) (t : Nat) (d : Dev) : (s.leave t d).pending = s.pending := rfl

/-! ### Settling -/

theorem Dev.settle_stopped {d0 d : Dev} (h : d.life.running = false) : Dev.settle d0 d = d := by
  simp [Dev.settle, h]

section

variable (d0 d : Dev)

theorem Dev.settleOnly_now : (d0.settleOnly d).now = d0.now := rfl
theorem Dev.settleOnly_aon : (d0.settleOnly d).aon = d0.aon := rfl
theorem Dev.settleOnly_medium : (d0.settleOnly d).medium = d0.medium := rfl
theorem Dev.settleOnly_pwr : (d0.settleOnly d).pwr = d0.pwr := rfl
theorem Dev.settleOnly_therm : (d0.settleOnly d).therm = d0.therm := rfl
theorem Dev.settleOnly_dma : (d0.settleOnly d).dma = d0.dma := rfl
theorem Dev.settleOnly_obj : (d0.settleOnly d).obj = d0.obj := rfl
theorem Dev.settleOnly_refresh : (d0.settleOnly d).refresh = d0.refresh := rfl
theorem Dev.settleOnly_running : (d0.settleOnly d).life.running = d0.life.running := rfl
theorem Dev.settleOnly_stage : (d0.settleOnly d).life.stage = d0.life.stage := rfl
theorem Dev.settleOnly_resets : (d0.settleOnly d).life.resets = d0.life.resets := rfl
theorem Dev.settleOnly_shutting : (d0.settleOnly d).life.shutting = d0.life.shutting := rfl

@[simp] theorem Dev.settle_now : (Dev.settle d0 d).now = d.now := by
  unfold Dev.settle; split
  · exact Dev.settleOnly_now d _
  · rfl
@[simp] theorem Dev.settle_aon : (Dev.settle d0 d).aon = d.aon := by
  unfold Dev.settle; split
  · exact Dev.settleOnly_aon d _
  · rfl
@[simp] theorem Dev.settle_medium : (Dev.settle d0 d).medium = d.medium := by
  unfold Dev.settle; split
  · exact Dev.settleOnly_medium d _
  · rfl
@[simp] theorem Dev.settle_pwr : (Dev.settle d0 d).pwr = d.pwr := by
  unfold Dev.settle; split
  · exact Dev.settleOnly_pwr d _
  · rfl
@[simp] theorem Dev.settle_therm : (Dev.settle d0 d).therm = d.therm := by
  unfold Dev.settle; split
  · exact Dev.settleOnly_therm d _
  · rfl
@[simp] theorem Dev.settle_dma : (Dev.settle d0 d).dma = d.dma := by
  unfold Dev.settle; split
  · exact Dev.settleOnly_dma d _
  · rfl
@[simp] theorem Dev.settle_obj : (Dev.settle d0 d).obj = d.obj := by
  unfold Dev.settle; split
  · exact Dev.settleOnly_obj d _
  · rfl
@[simp] theorem Dev.settle_refresh : (Dev.settle d0 d).refresh = d.refresh := by
  unfold Dev.settle; split
  · exact Dev.settleOnly_refresh d _
  · rfl
@[simp] theorem Dev.settle_running : (Dev.settle d0 d).life.running = d.life.running := by
  unfold Dev.settle; split
  · exact Dev.settleOnly_running d _
  · rfl
@[simp] theorem Dev.settle_stage : (Dev.settle d0 d).life.stage = d.life.stage := by
  unfold Dev.settle; split
  · exact Dev.settleOnly_stage d _
  · rfl
@[simp] theorem Dev.settle_resets : (Dev.settle d0 d).life.resets = d.life.resets := by
  unfold Dev.settle; split
  · exact Dev.settleOnly_resets d _
  · rfl
@[simp] theorem Dev.settle_shutting : (Dev.settle d0 d).life.shutting = d.life.shutting := by
  unfold Dev.settle; split
  · exact Dev.settleOnly_shutting d _
  · rfl

end

/-! ### The state a command leaves -/

section

variable (s : State) (t : Nat) (d : Dev)

@[simp] theorem State.leave_medium : (s.leave t d).dev.medium = d.medium := Dev.settle_medium _ d
@[simp] theorem State.leave_pwr : (s.leave t d).dev.pwr = d.pwr := Dev.settle_pwr _ d
@[simp] theorem State.leave_therm : (s.leave t d).dev.therm = d.therm := Dev.settle_therm _ d
@[simp] theorem State.leave_dma : (s.leave t d).dev.dma = d.dma := Dev.settle_dma _ d
@[simp] theorem State.leave_obj : (s.leave t d).dev.obj = d.obj := Dev.settle_obj _ d
@[simp] theorem State.leave_running : (s.leave t d).dev.life.running = d.life.running := Dev.settle_running _ d
@[simp] theorem State.leave_stage : (s.leave t d).dev.life.stage = d.life.stage := Dev.settle_stage _ d
@[simp] theorem State.leave_aon : (s.leave t d).clock.aon = d.aon := Dev.settle_aon _ d

end

/-! ### Time -/

section

variable (s : State) (t : Nat)

/-- A record posted to a head's log changes what the logs hold, and no more of the head. -/
theorem HeadSt.post_eq (x : HeadSt) (r : CxlRec) :
    ∃ l n o, x.post r = { x with logs := l, logNext := n, overflow := o } := by
  unfold HeadSt.post
  split
  · exact ⟨_, _, _, rfl⟩
  · exact ⟨_, _, _, rfl⟩

/-- A rise of ATTN is reported in the logs of one head. -/
theorem Dev.settleAttn_eq (d : Dev) (h : Head) (old : Nat) :
    ∃ l n o, d.settleAttn h old = d.onHead h (fun x => { x with logs := l, logNext := n, overflow := o }) := by
  have keep : d = d.onHead h (fun x => { x with logs := x.logs, logNext := x.logNext, overflow := x.overflow }) := by
    cases h <;> rfl
  have posted (log : CxlLog) : ∃ l n o, d.moduleEvent h log =
      d.onHead h (fun x => { x with logs := l, logNext := n, overflow := o }) := by
    obtain ⟨l, n, o, e⟩ := HeadSt.post_eq (d.head h) { moduleRec log with stamp := d.now }
    refine ⟨l, n, o, ?_⟩
    cases h
    · exact congrArg (fun y => { d with headA := y }) e
    · exact congrArg (fun y => { d with headB := y }) e
  have same : ∃ l n o, d = d.onHead h (fun x => { x with logs := l, logNext := n, overflow := o }) := by
    cases h
    · exact ⟨d.headA.logs, d.headA.logNext, d.headA.overflow, keep⟩
    · exact ⟨d.headB.logs, d.headB.logNext, d.headB.overflow, keep⟩
  unfold Dev.settleAttn
  dsimp only
  split
  · split
    · exact posted .fatal
    · split
      · exact posted .warning
      · exact same
  · exact same

/-- The logs of a head, as some state leaves them. -/
def HeadSt.withLogs (x y : HeadSt) : HeadSt := { x with logs := y.logs, logNext := y.logNext, overflow := y.overflow }

/-- Time passing changes clocks, counters, the event log and the heads' logs. -/
theorem State.before_eq : ∃ a b : HeadSt, s.before t =
    { s.dev.elapse (s.instant t) (s.clock.aon + (s.instant t - s.clock.now)) with
      headA := s.dev.headA.withLogs a, headB := s.dev.headB.withLogs b } := by
  unfold State.before
  dsimp only
  split
  · obtain ⟨l, n, o, e⟩ := Dev.settleAttn_eq (s.dev.elapse (s.instant t) (s.clock.aon + (s.instant t - s.clock.now))) .a
      (s.dev.ev.attnLevel (.head .a))
    rw [e]
    obtain ⟨l', n', o', e'⟩ := Dev.settleAttn_eq ((s.dev.elapse (s.instant t) (s.clock.aon + (s.instant t - s.clock.now))).onHead
      .a (fun x => { x with logs := l, logNext := n, overflow := o })) .b (s.dev.ev.attnLevel (.head .b))
    rw [e']
    exact ⟨{ s.dev.headA with logs := l, logNext := n, overflow := o },
      { s.dev.headB with logs := l', logNext := n', overflow := o' }, rfl⟩
  · exact ⟨s.dev.headA, s.dev.headB, rfl⟩

@[simp] theorem State.before_now : (s.before t).now = s.instant t := by
  obtain ⟨a, b, e⟩ := s.before_eq t
  rw [e]; rfl
@[simp] theorem State.before_aon : (s.before t).aon = s.clock.aon + (s.instant t - s.clock.now) := by
  obtain ⟨a, b, e⟩ := s.before_eq t
  rw [e]; rfl
@[simp] theorem State.before_life : (s.before t).life = s.dev.life := by
  obtain ⟨a, b, e⟩ := s.before_eq t
  rw [e]; rfl
@[simp] theorem State.before_q : (s.before t).q = s.dev.q := by
  obtain ⟨a, b, e⟩ := s.before_eq t
  rw [e]; rfl
@[simp] theorem State.before_sys : (s.before t).sys = s.dev.sys := by
  obtain ⟨a, b, e⟩ := s.before_eq t
  rw [e]; rfl
@[simp] theorem State.before_nv : (s.before t).nv = s.dev.nv := by
  obtain ⟨a, b, e⟩ := s.before_eq t
  rw [e]; rfl
@[simp] theorem State.before_zt : (s.before t).zt = s.dev.zt := by
  obtain ⟨a, b, e⟩ := s.before_eq t
  rw [e]; rfl
@[simp] theorem State.before_cache : (s.before t).cache = s.dev.cache := by
  obtain ⟨a, b, e⟩ := s.before_eq t
  rw [e]; rfl
@[simp] theorem State.before_bench : (s.before t).bench = s.dev.bench := by
  obtain ⟨a, b, e⟩ := s.before_eq t
  rw [e]; rfl
@[simp] theorem State.before_lane : (s.before t).lane = s.dev.lane := by
  obtain ⟨a, b, e⟩ := s.before_eq t
  rw [e]; rfl
@[simp] theorem State.before_dma : (s.before t).dma = s.dev.dma := by
  obtain ⟨a, b, e⟩ := s.before_eq t
  rw [e]; rfl
@[simp] theorem State.before_eng : (s.before t).eng = s.dev.eng := by
  obtain ⟨a, b, e⟩ := s.before_eq t
  rw [e]; rfl
@[simp] theorem State.before_obj : (s.before t).obj = s.dev.obj := by
  obtain ⟨a, b, e⟩ := s.before_eq t
  rw [e]; rfl
@[simp] theorem State.before_sec : (s.before t).sec = s.dev.sec := by
  obtain ⟨a, b, e⟩ := s.before_eq t
  rw [e]; rfl
@[simp] theorem State.before_pwr : (s.before t).pwr = s.dev.pwr := by
  obtain ⟨a, b, e⟩ := s.before_eq t
  rw [e]; rfl
@[simp] theorem State.before_therm : (s.before t).therm = s.dev.therm := by
  obtain ⟨a, b, e⟩ := s.before_eq t
  rw [e]; rfl
@[simp] theorem State.before_medium : (s.before t).medium = s.dev.medium := by
  obtain ⟨a, b, e⟩ := s.before_eq t
  rw [e]; rfl
@[simp] theorem State.before_out : (s.before t).out = s.dev.out := by
  obtain ⟨a, b, e⟩ := s.before_eq t
  rw [e]; rfl
theorem State.before_headA : ∃ y, (s.before t).headA = s.dev.headA.withLogs y := by
  obtain ⟨a, b, e⟩ := s.before_eq t
  rw [e]; exact ⟨_, rfl⟩
theorem State.before_headB : ∃ y, (s.before t).headB = s.dev.headB.withLogs y := by
  obtain ⟨a, b, e⟩ := s.before_eq t
  rw [e]; exact ⟨_, rfl⟩

theorem State.instant_ticks (h : s.clock.now % 5 = 0) : s.instant t % 5 = 0 := by
  unfold State.instant
  omega

/-- The counter never goes back, but for a device reset. -/
theorem State.leave_now (d : Dev) (h : d.life.resets = s.dev.life.resets) :
    (s.leave t d).clock.now = s.instant t := by
  have e : d.life.resets = (s.before t).life.resets := by rw [h, State.before_life]
  simp [State.leave, State.run, e]


theorem State.instant_le : s.clock.now ≤ s.instant t := Nat.le_max_left _ _

end

end Sys2Proof.Machine
end

