-- ==== Sys2Proof/Machine/Pins.lean ====
section
/-!
DEFINITION. The output pins (20 R709, R718, R721, R722): what the device drives, and the level each ball has
with the module's resistors. Like `readReg`, this says what the outside sees; no command calls it.
-/

namespace Sys2Proof.Machine

/-- Outputs whose level the manual ties to the device's state (R722). -/
inductive Pin where
  | railEn (rail : Fin 12)
  | chgEn
  | testLoad
  | pwrFlt
  | thermtrip
  | sbAlert
  | mediaReset (lane : Fin 16)
  | chipSelect (lane : Fin 16) (position : Fin 8)
  deriving DecidableEq, Repr

/-- A test draws current from the bank: the charger is off (16 R618, R623). -/
def PowerBlock.discharging (p : PowerBlock) : Bool := decide (p.test = .loaded)

/-- VMIO, the supply of the media outputs, is up (16 R597, 20 R709). -/
def PowerBlock.mediaSupply (p : PowerBlock) : Bool := p.rails[5].en && p.rails[5].pg

/-- An open-drain output: low where it is asserted, else undriven. -/
def openDrain (asserted : Bool) : Option Bool := if asserted then some false else none

/-- What the device drives onto a pin; none where it is high-impedance (R721). A trained lane has its dies out
of reset, and no die is selected between transfers (log entry 121). -/
def Dev.drives (d : Dev) (p : Pin) : Option Bool :=
  if d.pwr.vaux then
    match p with
    | .railEn r => some d.pwr.rails[r].en
    | .chgEn => some (d.pwr.vinGood && !d.pwr.discharging)
    | .testLoad => some d.pwr.discharging
    | .pwrFlt => openDrain d.pwr.fltDrive
    | .thermtrip => openDrain d.therm.tripped
    | .sbAlert => openDrain (d.life.smbus && decide (3 ≤ d.life.ibiLevel))
    | .mediaReset l => if d.life.running && d.pwr.mediaSupply then some d.lane.lanes[l].trained else none
    | .chipSelect _ _ => if d.life.running && d.pwr.mediaSupply then some true else none
  else none

/-- The level that a ball settles to where nothing drives it (R722). -/
def Pin.settled : Pin → Bool
  | .railEn _ => false
  | .chgEn => false
  | .testLoad => false
  | .pwrFlt => true
  | .thermtrip => true
  | .sbAlert => true
  | .mediaReset _ => false
  | .chipSelect _ _ => true

/-- The level of a ball; PWR_FLT# may also be pulled low from outside. -/
def Dev.ballLevel (d : Dev) (p : Pin) : Bool :=
  (d.drives p).getD p.settled && !(decide (p = .pwrFlt) && d.pwr.fltIn)

end Sys2Proof.Machine
end

