-- ==== Sys2Proof/Tests/Slice0.lean ====
section
/-!
SUPPORT. Tests, each a named theorem about one small state: ill-formed operands are refused, single steps give what
the manual's tables say, and the hypotheses of every obligation, clause by clause, are met by some state and operands
(test_meets_…: a clause that speaks of a value, as in "lookup = (d1, some o)", is met when the value is there).
-/

namespace Sys2Proof.Tests

set_option Elab.async false

open Sys2Proof Sys2Proof.Machine

def W (d : Dev) : State := { State.reset with dev := d }

/-- A head whose link is up, with HPA 0 to 2^45 - 1 at the same DPAs. -/
def headUp : HeadSt :=
  { Reset.head with
    linkUp := true, width := 3, cfgReady := true, memActive := true, credits := 4, hdmEn := true
    hdm := [{ Reset.hdm with size := 2 ^ 45, on := true }] }

def ring : QPair :=
  { Reset.qpair with state := .active, sqBase := 0x1000, cqBase := 0x2000, sqDepth := 32, cqDepth := 32, ien := true,
                     icount := 1 }

/-- A DIRECT region of head A in the clear: two zones, windowed at 0. -/
def reg : Region :=
  { typ := .direct, prot := .parity, profile := .strong, mac := false, keyId := 0, lockOnMac := false, owner := .a,
    rclass := 0, xovr := false, locked := false, extents := [(0, 2)], dpaBase := 0, dpaSize := 2 ^ 28, rekey := none }

/-- A device in service, with its first region and its admin pairs. -/
def live : Dev :=
  { Reset.dev with
    headA := headUp, headB := headUp
    sys := { Reset.sysData with regions := [(1, some reg)] }
    q := { Reset.queues with pairs := vset (vset Reset.queues.pairs 0 ring) 64 ring }
    bench := { Reset.bench with cap := 256, capGiven := true }
    lane := { Reset.lanes with
      posMask := 1, lanes := Vector.replicate 16 { Reset.lane1 with trained := true, present := 1 } }
    sec := { Reset.sec with plaintext := true }
    pwr := { Reset.power with
      continuity := true, state := .on, vinGood := true,
      rails := Vector.replicate 12 { Reset.rail with en := true, pg := true } }
    life := { Reset.life with
      stage := .ready, running := true, formatted := true, physZones := 262144, spareZones := 20000,
      userZones := 200000, sysZones := 8192 } }

/-- A native command of queue 0. -/
def cmd (op : Nat) (ps : List Word) : Exec :=
  { qid := 0, cid := 7, opcode := op, ordered := false, params := ps, started := true, order := 0, fetchAt := 0,
    orphan := false, tag := none, seqAt := 0xFFFFFFFF, toggleAt := false, parked := false, checked := false, cluster := 2 }

def X (x : Exec) (d : Dev) : State := W { d with q := { d.q with exec := [x] } }

/-- A way of the cache that holds line 0 of region 1 whole. -/
def way : Way :=
  { region := 1, line := 0, valid := 0xF, dirty := 0, poison := 0, cause := [0, 0, 0, 0], data := 5, dirtyAt := 0,
    selected := none, flips := [], tagFlips := [], shadowBad := false }

/-! ### Hypotheses met -/

theorem test_meets_StepServesTheQueue :
    ({ W live with pending := [.barrier 0 0 7] } : State).pending = .barrier 0 0 7 :: [] ∧ (W live).pending = [] :=
  ⟨rfl, rfl⟩

theorem test_meets_EveryStepKeepsTheClocks : (W live).clocked ∧ step (W live) = .next (W live) := ⟨⟨rfl, rfl⟩, rfl⟩

theorem test_meets_TimeMovesOnlyWhatRunsByItself : live.life.resets = ((W live).before 7).life.resets := by decide +kernel

def withWay (w : Way) : Dev := { live with cache := { live.cache with ways := [(setOf reg 0 * 16, some w)] } }

def benchEntry : Entry := { mkEntry 1 0 .victim 5 0xF 0 (sameCause 0) with id := 3 }

def withEntry (e : Entry) : Dev := { live with bench := { live.bench with entries := [e], nextId := 4 } }

/-- The device as a read of line 0 finds it. -/
def readOf (d : Dev) : Dev :=
  (((((((W d).before 0).count (cntHead .a 0) 1).depthCount .a reg 1 0).regionCount 1 0 1).readStage 1 0 0).readStage 1 0
    1).checkLine reg 1 0

theorem test_meets_HostReadAnswers :
    let d := (W live).before 0
    let d1 := (d.count (cntHead .a 0) 1).depthCount .a reg 1 0
    d.linked .a = true ∧ d.memoryReady = true ∧ d1.untraced ∧
    (d.count (cntHead .a 0) 1).resolve .a (d.dpaOf .a 64) = some (1, reg, 64) ∧
    d1.readLocked reg 0 = false ∧ (d.count (cntHead .a 0) 1).resolve .a (d.dpaOf .a (2 ^ 28)) = none ∧
    (let d := (W { live with life := { live.life with stage := .checks } }).before 0
     d.linked .a = true ∧ d.memoryReady = false) := by
  unfold Dev.untraced; decide +kernel

theorem test_meets_HostReadAnswers_copies :
    ((readOf (withEntry benchEntry)).sectorCopy reg 1 0 1).isSome ∧
    (readOf (withEntry benchEntry)).findWay reg 1 0 = none ∧
    ((readOf (withWay way)).sectorCopy reg 1 0 1).isSome ∧ ((readOf (withWay way)).findWay reg 1 0).isSome ∧
    (readOf live).sectorCopy reg 1 0 1 = none ∧ (readOf live).cache.sideConfirmed 1 0 = none := by decide +kernel

theorem test_meets_HostWriteCompletes :
    let d := (W live).before 0
    let d1 := ((((d.onHead .a (fun x => { x with credits := x.credits - 1 })).count (cntHead .a 1) 1).count
      (cntHead .a 3) 64).bwHead .a 0 64)
    d.linked .a = true ∧ d.memoryReady = true ∧ 0 < (d.head .a).credits ∧
    d1.resolve .a (d1.dpaOf .a 0) = some (1, reg, 0) ∧ d1.writeLocked reg 0 = false ∧
    d1.writeRefused reg 1 0 = false ∧ d.ev.trEn = false ∧ d1.resolve .a (d1.dpaOf .a (2 ^ 44)) = none ∧
    live.bench.exposed = false := by decide +kernel

theorem test_meets_CreditsLinksAndGpf :
    let d := (W live).before 0
    d.serving .a = true ∧ d.bench.capGiven = true ∧ d.bench.draining = false ∧ d.life.shutting = none ∧
    (d.head .a).gpf1 = false ∧ (d.head .a).credits < 256 ∧ d.occupancy + d.reservedLines + 1 ≤ d.bench.cap ∧
    d.stagingUsed + d.reservedLines + 1 ≤ 8192 ∧
    d.life.running = true ∧ (d.head .b).retired = false ∧ (d.head .b).inReset = false ∧ d.phyUp .b = true ∧
    d.linked .a = true := by
  decide +kernel

/-- One alternative each, at its boundary: 256 credits out, one line of BENCH_CAP taken by reservations, and a head not
served before reset ends. -/
theorem test_meets_CreditsLinksAndGpf_withheld :
    (((W { live with headA := { headUp with credits := 256 } }).before 0).head .a).credits = 256 ∧
    (let d := (W { live with bench := { live.bench with reserved := 256 } }).before 0
     d.bench.cap < d.occupancy + d.reservedLines + 1) ∧
    ((W Reset.dev).before 0).serving .a = false ∧ ((W Reset.dev).before 0).bench.capGiven = false ∧
    ((W { live with bench := { live.bench with draining := true } }).before 0).bench.draining = true ∧
    (((W { live with headA := { headUp with gpf1 := true } }).before 0).head .a).gpf1 = true ∧
    (let d := (W { live with bench := { live.bench with cap := 9000, reserved := 8192 } }).before 0
     8192 < d.stagingUsed + d.reservedLines + 1) := by
  decide +kernel

theorem test_meets_HeadResetScopes : ((W live).before 0).life.running = true := by decide +kernel

/-- No channel runs, a read is out on head A, and its admin pair is there. -/
theorem test_meets_HeadResetsComplete :
    let d := (W { live with headA := { headUp with readsOut := 1 } }).before 0
    d.life.running = true ∧ (d.head .a).readsOut = 1 ∧ (d.pair 0).state = .active ∧
    ∀ c ∈ upTo 32, (d.chan c).en = false ∧ (d.chan c).stopping = false := by decide +kernel

theorem test_meets_Mailbox : ((W live).before 0).boxOn .b = true ∧ (5 : Word) ≠ 0 := by decide +kernel

theorem test_meets_FirmwareCommits :
    ((W live).before 0).boxOn .a = true ∧
    (X (cmd 0x0A [0x010, 0, 0, 0, 0, 0, 0]) live |>.before 0).performs 0x0A 0 7 (cmd 0x0A [0x010, 0, 0, 0, 0, 0, 0]) ∧
    (X (cmd 0x0A [0x010, 0, 0, 0, 0, 0, 0]) live |>.before 0).sec.commit = none := by
  unfold Dev.performs; decide +kernel

/-- Cluster 2 is held for a reload. -/
def heldCluster : Dev :=
  { live with sec := { live.sec with
      held := 0x4, fw0 := some { version := 1, svn := 0, clusters := 0xF, good := true, bytes := [] } } }

theorem test_meets_FirmwareCommits_reload :
    let d := (W heldCluster).before 0
    d.life.running = true ∧ d.sec.held.toNat.testBit 2 = true ∧ d.loadable (d.sec.active.toNat.testBit 2) 2 = true := by
  decide +kernel

theorem test_meets_DoorbellsMoveTheRing :
    ((W live).before 0).headOn .b = true ∧ (((W live).before 0).pair 64).state = .active := by decide +kernel

/-- An entry waits in queue 0. -/
def ringing : Dev := { live with q := { live.q with pairs := vset live.q.pairs 0 { ring with sqTail := 1 } } }

/-- A level source of level 7 stands for head A. -/
def attn7 : Dev := { ringing with ev := { ringing.ev with attnA := { ringing.ev.attnA with hold := 0x80 } } }

def aFetch : Fetch := { index := 0, start := 0, seq := 0xFFFFFFFF, toggle := false, tag := none }

def fetching : Dev :=
  { live with q := { live.q with pairs := vset live.q.pairs 0 { ring with sqHead := 1, slots := 1, fetching := [aFetch] } } }

theorem test_meets_FetchesReserveAndEnd :
    (let d := (W ringing).before 0
     d.headOn .a = true ∧ d.queuesServed = true ∧ d.untraced ∧ d.inFlight .a < 1024 ∧
     d.ev.attnLevel (.head .a) ≠ 7 ∧ d.nextQueue .a = some 0) ∧
    ((W attn7).before 0).ev.attnLevel (.head .a) = 7 ∧
    ((W { live with q := { live.q with exec := List.replicate 1024 (cmd 6 []) } }).before 0).inFlight .a = 1024 ∧
    (let d := (W fetching).before 0
     d.life.running = true ∧ d.queuesServed = true ∧ (d.pair 0).fetching = aFetch :: [] ∧ mtype (d.pair 0).sqBase = 0) := by
  unfold Dev.untraced; decide +kernel

/-- A BARRIER with CID 9. -/
def barrierEntry : Sector := BitVec.ofNat 512 (0x06 + 9 * 65536)

theorem test_meets_CommandsStartInOrder :
    (live.untraced ∧ fld barrierEntry.toNat 16 16 ≠ 0xFFFF ∧
     live.rejects 0 (fld barrierEntry.toNat 0 8) (fld barrierEntry.toNat 8 8) (fld barrierEntry.toNat 32 32)
       ((upTo 7).map (fun i => BitVec.ofNat 64 (fld barrierEntry.toNat (64 + 64 * i) 64))) = none ∧
     live.q.exec = []) ∧
    (let x := { cmd 6 [] with ordered := true, started := false, order := 3 }
     let d := (X x live).before 0
     d.q.exec.find? (fun y => y.qid == 0 && y.cid == 7 && !y.started) = some x ∧
     (∀ y ∈ d.q.exec, y.qid = x.qid → x.order ≤ y.order) ∧ d.postPending x.qid = false) ∧
    (let x := { cmd 6 [] with ordered := true, started := false, order := 3 }
     let y := { cmd 5 [] with cid := 2 }
     let d := (W { live with q := { live.q with exec := [y, x] } }).before 0
     d.q.exec.find? (fun y => y.qid == 0 && y.cid == 7 && !y.started) = some x ∧ x.ordered = true ∧
     (y ∈ d.q.exec ∧ y.qid = x.qid ∧ y.orphan = x.orphan ∧ y.order < x.order)) := by
  unfold Dev.untraced; decide +kernel

/-- Queue 0 owes a message since the start. -/
def owing : Dev :=
  { live with q := { live.q with
      pairs := vset Reset.queues.pairs 0 { ring with posted := 1, itime := 1 }, admA := { Reset.admq with en := true } } }

theorem test_meets_CoalescedInterruptAndAdminPair :
    (let d := (W owing).before 1000
     (d.pair 0).ien = true ∧ 0 < (d.pair 0).posted ∧ (d.pair 0).itime ≠ 0 ∧
     (d.pair 0).oldestAt + (d.pair 0).itime * 1000 ≤ d.now) ∧
    (let d := (W owing).before 0
     d.headOn .a = true ∧ (d.adm .b).en = false ∧ cfgOk (d.adm .b).cfg.toNat = true ∧ (d.adm .a).en = true ∧
     (d.adm .a).rdy = false ∧ cfgOk (d.adm .a).cfg.toNat = true) ∧
    (let d := (W { owing with q := { owing.q with pairs := Reset.queues.pairs } }).before 0
     (d.adm .a).rdy = false ∧ (d.pair 0).state = .absent) ∧
    (let d := (W { live with q := { live.q with admB := { Reset.admq with cfg := 0x01F000 } } }).before 0
     d.headOn .b = true ∧ (d.adm .b).en = false ∧ cfgOk (d.adm .b).cfg.toNat = false) := by decide +kernel

theorem test_meets_CompletionIsPosted :
    (live.pair 64).state = .active ∧ mtype (live.pair 64).cqBase = 0 ∧ (live.head (headOfQid 64)).linkUp = true ∧
    (({ live with headB := Reset.head } : Dev).head (headOfQid 64)).linkUp = false := by decide +kernel

theorem test_meets_RejectedEntryExecutesNothing :
    (live.pair 0).state = .active ∧ mtype (live.pair 0).cqBase = 0 ∧ live.untraced ∧
    (live.head (headOfQid 0)).linkUp = true ∧ (live.pair (64 * headNum (headOfQid 0))).deleter = none ∧
    fld (BitVec.ofNat 512 0xFFFF0006).toNat 16 16 = 0xFFFF ∧
    (X (cmd 6 []) live).dev.q.exec.any (fun y => y.qid == 0 && y.cid == fld (BitVec.ofNat 512 0x70006).toNat 16 16 &&
      !y.orphan) = true := by
  unfold Dev.untraced; decide +kernel

/-- A word for host memory, device memory or scratch. -/
def hostAt (a : Nat) : Word := BitVec.ofNat 64 a
def dpaAt (a : Nat) : Word := BitVec.ofNat 64 (2 ^ 62 + a)
def scratchAt (a : Nat) : Word := BitVec.ofNat 64 (2 ^ 63 + a)

/-- EXPOSED, with a region under no protection. -/
def exposedNone : Dev :=
  { live with
    sys := { live.sys with regions := [(1, some { reg with prot := .none })] }
    bench := { live.bench with exposed := true } }

theorem test_meets_ResultsAreDelivered :
    mtype (hostAt 64) = 0 ∧ mtype (scratchAt 64) = 2 ∧ mtype (dpaAt 64) = 1 ∧
    exposedNone.saveRefused .a (dpaAt 64) 64 = true ∧ live.saveRefused .a (dpaAt 64) 64 = false ∧
    live.liveRange .a (addrOf (dpaAt 64)) 64 = some (1, reg, 64) ∧
    live.liveRange .a (addrOf (dpaAt (2 ^ 28))) 64 = none ∧
    (let x := cmd 1 []
     ({ live with bench := { live.bench with later := [.store (.cmd x.order) .a 1 0 [0]] } } : Dev).waits x = true) := by
  decide +kernel

theorem test_meets_QueriesDeliverTheirData :
    (let x := cmd 0x01 [hostAt 64, 0, 0, 0, 0, 0, 0]
     let d := (X x live).before 0
     d.performs 0x01 0 7 x ∧ d.bufferOk (issuer x) (x.p 0) 4096 = true) ∧
    (let x := cmd 0x13 [1, dpaAt 0, 0, 0, 0, 0, 0]
     let d := (X x live).before 0
     d.performs 0x13 0 7 x ∧ x.pn 0 0 10 < 1008 ∧ d.region (x.pn 0 0 10) = some reg ∧
     d.bufferOk (issuer x) (x.p 1) 64 = true) ∧
    (let x := cmd 0x13 [1008, hostAt 0x1000, 0, 0, 0, 0, 0]
     let d := (X x live).before 0
     d.performs 0x13 0 7 x ∧ 1008 ≤ x.pn 0 0 10 ∧ d.life.formatted = true ∧ d.bufferOk (issuer x) (x.p 1) 64 = true) ∧
    (let x := cmd 0x07 [0x1000000000, hostAt 64, 0, 0, 0, 0, 0]
     let d := (X x live).before 0
     d.performs 0x07 0 7 x ∧ 1 ≤ x.pn 0 32 16 ∧ x.pn 0 32 16 ≤ 4096 ∧
     seqLater (BitVec.ofNat 32 (x.pn 0 0 32)) (d.ev.headSeq + 1) = false ∧
     d.bufferOk (issuer x) (x.p 1) (64 * x.pn 0 32 16) = true) := by
  unfold Dev.performs; decide +kernel

/-- I/O pair 1 is there. -/
def pair1 : Dev := { live with q := { live.q with pairs := vset live.q.pairs 1 ring } }

theorem test_meets_QueuePairsAreMadeAndDeleted :
    (let x := cmd 0x02 [0x1F01F00 + 1, 0x4000, 0x5000, 0, 0, 0, 0]
     let d := (X x live).before 0
     let q := x.pn 0 0 7
     q / 64 = x.qid / 64 ∧ q % 64 ≠ 0 ∧ d.performs 0x02 0 7 x ∧ (d.pair q).state = .absent ∧ x.pn 0 8 12 ≠ 0 ∧
     x.pn 0 20 12 ≠ 0 ∧ ringField (x.p 1) = true ∧ ringField (x.p 2) = true ∧
     d.bufferOk (issuer x) (x.p 1) (64 * (x.pn 0 8 12 + 1)) = true ∧
     d.bufferOk (issuer x) (x.p 2) (16 * (x.pn 0 20 12 + 1)) = true) ∧
    (let x := cmd 0x03 [1, 0, 0, 0, 0, 0, 0]
     let d := (X x pair1).before 0
     let q := x.pn 0 0 7
     q / 64 = x.qid / 64 ∧ q % 64 ≠ 0 ∧ d.performs 0x03 0 7 x ∧ (d.pair q).state = .active ∧
     (d.pair q).deleter ≠ some (x.qid, x.cid)) := by
  unfold Dev.performs; decide +kernel

theorem test_meets_WatchesAndBarriers :
    (let x := cmd 0x05 [0, 0, 0, 0, 0, 0, 0]
     let d := (X x live).before 0
     d.performs 0x05 0 7 x ∧ x.parked = false ∧ d.watchChanged x = false ∧ d.watches (issuer x) < 8) ∧
    (let x := cmd 0x05 [8, 0, 0, 0, 0, 0, 0]
     let d := (X x live).before 0
     d.performs 0x05 0 7 x ∧ d.watchChanged x = true) ∧
    (let x := cmd 0x05 [0, 0, 0, 0, 0, 0, 0]
     let d := (W { live with q := { live.q with
       exec := x :: (upTo 8).map (fun i => { x with cid := 20 + i, parked := true }) } }).before 0
     d.performs 0x05 0 7 x ∧ d.watchChanged x = false ∧ 8 ≤ d.watches (issuer x)) ∧
    (let x := { cmd 0x05 [0x10000, 0, 0, 0, 0, 0, 0] with parked := true }
     let d := (X x live).before 10000000
     d.performs 0x05 0 7 x ∧ x.pn 0 16 16 ≠ 0 ∧ x.fetchAt + x.pn 0 16 16 * 10 * 1000000 ≤ d.now) ∧
    ((X (cmd 6 []) live).before 0).performs 0x06 0 7 (cmd 6 []) := by
  unfold Dev.performs; decide +kernel

/-- Lane 1 is out of service, and so is die 0 of lane 2. -/
def laneOut : Dev :=
  { live with lane := { live.lane with
      lanes := vset (vset live.lane.lanes 1 { live.lane1 1 with lstate := .detour, testResult := 1 }) 2
        { live.lane1 2 with dies := vset Reset.lane1.dies 0 .detour, testResult := 1 } } }

def liveUpdate : FwCommit :=
  { slot := true, mask := 0xC, activate := true,
    image := { version := 1, svn := 0, clusters := 0xF, good := true, bytes := [] }, asker := .box .a, durable := true,
    todo := [2, 3], since := 0, startAt := 0, former := 0, failed := false }

theorem test_meets_TimeTestsAndDownloads :
    (let x := cmd 0x04 [1000, 0, 0, 0, 0, 0, 0]
     let d := (X x live).before 0
     d.performs 0x04 0 7 x ∧ x.p 0 ≠ 0 ∧ d.memoryReady = true) ∧
    (let x := cmd 0x04 [1000, 0, 0, 0, 0, 0, 0]
     let d := (X x { live with life := { live.life with stage := .zt } }).before 0
     d.performs 0x04 0 7 x ∧ d.memoryReady = false) ∧
    (let x := cmd 0x08 [0x11, 0, 0, 0, 0, 0, 0]
     let d := (X x laneOut).before 0
     d.performs 0x08 0 7 x ∧ d.testers = [] ∧ x.pn 0 0 4 = 1 ∧
     d.scopeState (x.pn 0 4 4) none = .detour) ∧
    (let x := cmd 0x08 [0x22, 0, 0, 0, 0, 0, 0]
     let d := (X x laneOut).before 0
     d.performs 0x08 0 7 x ∧ d.testers = [] ∧ x.pn 0 0 4 = 2 ∧ d.posUsed (x.pn 0 8 3) = true ∧
     d.scopeState (x.pn 0 4 4) (some (x.pn 0 8 3)) = .detour) ∧
    (let x := cmd 0x08 [3, 0, 0, 0, 0, 0, 0]
     ((X x live).before 0).performs 0x08 0 7 x ∧ ((X x live).before 0).testers = [] ∧ x.pn 0 0 4 = 3) ∧
    (let x := cmd 0x09 [0, hostAt 0x8000, 4096, 0, 0, 0, 0]
     ((X x live).before 0).performs 0x09 0 7 x ∧ 0 < x.pn 2 0 32 ∧ x.pn 2 0 32 % 4096 = 0 ∧
     x.pn 0 0 32 + x.pn 2 0 32 ≤ 2 ^ 25 ∧ mtype (x.p 1) = 0 ∧ hostBad [] (addrOf (x.p 1)) (x.pn 2 0 32) = [] ∧
     hostBad [⟨0x8FFF, [1], true⟩] (addrOf (x.p 1)) (x.pn 2 0 32) ≠ []) ∧
    (let d := (W { live with sec := { live.sec with commit := some liveUpdate } }).before 100000000
     d.life.running = true ∧ d.sec.commit = some liveUpdate ∧ liveUpdate.durable = true ∧ liveUpdate.todo = 2 :: [3] ∧
     liveUpdate.startAt + 100 * 1000000 ≤ d.now ∧ d.life.clusterTest = none) := by
  unfold Dev.performs; decide +kernel

/-- Zones 9000 (bound to logical zone 0), 9001 to 9080 FREE_CLEAR and 9100 FREE_DIRTY. -/
def mapped : Dev :=
  { live with
    zt := { live.zt with entries := [(0, BitVec.ofNat 64 (mkZte 9000 0 4096 0 false 1 false))] }
    sys := { live.sys with
      wear := (9000, mkWear 0 psBound 0) :: ((upTo 80).map (fun i => (9001 + i, mkWear 0 psClear 0)) ++
        [(9100, mkWear 5 psDirty 0)]) } }

theorem test_meets_RegionIsCreated :
    let x := cmd 0x10 [0x80000000 + 0x1000000, 4096, 2 ^ 28, 0, 0, 0, 0]
    let d := (X x mapped).before 0
    let r : Region := { reg with extents := [], dpaBase := 0, dpaSize := 0 }
    let zones := ceilDiv (x.p 1).toNat (zoneBytes r.prot)
    let dpa := if r.typ = .direct then ceilDiv (x.p 2).toNat (2 ^ 28) * 2 ^ 28 else 0
    d.performs 0x10 0 7 x ∧ regionOf (x.p 0).toNat = some r ∧ (x.p 1).toNat ≠ 0 ∧ r.typ = .direct ∧ r.keyId = 0 ∧
    zones * zoneBytes r.prot ≤ dpa ∧
    d.pickId (x.p 0).toNat = some 0 ∧ d.sec.plaintext = true ∧ d.keyLoaded r.keyId = true ∧
    d.spareRefuses zones = false ∧ pickZones zones d.freeExtents = some [(2, 1)] ∧
    d.windowFor r dpa = some (2 ^ 28) ∧ [(2, 1)].length ≤ 16 := by
  unfold Dev.performs; decide +kernel

/-- The same for an INDEX region, which has no window. -/
theorem test_meets_RegionIsCreated_index :
    let x := cmd 0x10 [0x80000000 + 0x1000400, 4096, 0, 0, 0, 0, 0]
    let d := (X x mapped).before 0
    let r : Region := { reg with typ := .index, extents := [], dpaBase := 0, dpaSize := 0 }
    let zones := ceilDiv (x.p 1).toNat (zoneBytes r.prot)
    let dpa := if r.typ = .direct then ceilDiv (x.p 2).toNat (2 ^ 28) * 2 ^ 28 else 0
    d.performs 0x10 0 7 x ∧ regionOf (x.p 0).toNat = some r ∧ (x.p 1).toNat ≠ 0 ∧ r.typ ≠ .direct ∧
    (x.p 2).toNat = 0 ∧ d.pickId (x.p 0).toNat = some 0 ∧ d.sec.plaintext = true ∧ d.keyLoaded r.keyId = true ∧
    d.spareRefuses zones = false ∧ pickZones zones d.freeExtents = some [(2, 1)] ∧
    (d.windowFor r dpa).isSome := by
  unfold Dev.performs; decide +kernel

/-- A region in the table at ID 1, over the same medium. -/
def withReg (r : Region) : Dev := { mapped with sys := { mapped.sys with regions := [(1, some r)] } }

def keyed : Region := { reg with keyId := 5, mac := true, lockOnMac := true }

theorem test_meets_RegionsChange_checks :
    (let x := cmd 0x17 [2, 0, 0, 0, 0, 0, 0]
     (X x mapped).dev.region (x.pn 0 0 10) = none) ∧
    (let x := cmd 0x17 [1, 0, 0, 0, 0, 0, 0]
     mapped.region (x.pn 0 0 10) = some reg ∧ ownsRegion (issuer x) reg = true ∧ mapped.regionKeyed reg = true ∧
     reg.locked = false ∧ ownsRegion (issuer { x with qid := 64 }) reg = false ∧
     (withReg { reg with locked := true }).region (x.pn 0 0 10) = some { reg with locked := true } ∧
     (withReg keyed).region (x.pn 0 0 10) = some keyed ∧ (withReg keyed).regionKeyed keyed = false) := by decide +kernel

theorem test_meets_RegionsChange :
    (let x := cmd 0x11 [1, BitVec.ofNat 64 (3 * zoneBytes .parity), 0, 0, 0, 0, 0]
     let r := { reg with dpaSize := 2 ^ 30 }
     let d := (X x (withReg r)).before 0
     let zones := ceilDiv (x.p 1).toNat (zoneBytes r.prot)
     d.region (x.pn 0 0 10) = some r ∧ ownsRegion (issuer x) r = true ∧ d.performs 0x11 0 7 x ∧ r.locked = false ∧
     d.regionKeyed r = true ∧ r.typ ≠ .index ∧ r.rekey = none ∧ r.zones < zones ∧
     zones * zoneBytes r.prot ≤ r.dpaSize ∧ d.spareRefuses (zones - r.zones) = false ∧
     d.growZones r.extents (zones - r.zones) = some [(2, 1)] ∧ (joinExts r.extents [(2, 1)]).length ≤ 16) ∧
    (let x := cmd 0x14 [0x40001, 0x8000000, 0, 0, 0, 0, 0]
     let d := (X x mapped).before 0
     d.region (x.pn 0 0 10) = some reg ∧ d.performs 0x14 0 7 x ∧ x.pn 0 16 4 ≠ 0 ∧
     attrsOk (setAttrs (x.pn 0 16 4) (x.p 1).toNat reg) = true) ∧
    (let x := cmd 0x12 [1, 0, 0, 0, 0, 0, 0]
     let d := (X x mapped).before 0
     d.region (x.pn 0 0 10) = some reg ∧ d.performs 0x12 0 7 x ∧ d.holdsObjects 1 reg = false ∧
     d.journalFits reg.zones = true ∧ ownsRegion (issuer x) reg = true ∧ reg.locked = false ∧
     (∀ lz ∈ reg.zoneList, d.zoneStill lz = true)) ∧
    (let x := cmd 0x16 [1, 0, 0, 0, 0, 0, 0]
     let r := { reg with locked := true }
     let d := (X x (withReg r)).before 0
     d.region (x.pn 0 0 10) = some r ∧ ownsRegion (issuer x) r = true ∧ d.performs 0x16 0 7 x ∧ r.locked = true ∧
     d.regionKeyed r = true) := by
  unfold Dev.performs; decide +kernel

/-- Region 1 belongs to head B, whose link has been down since the start. -/
def ownerDead : Dev :=
  { withReg { reg with owner := .b } with headB := { headUp with linkUp := false } }

theorem test_meets_TakeoverGivesTheRegion :
    (let x := cmd 0x15 [0x2000001, 0, 0, 0, 0, 0, 0]
     let d := (X x mapped).before 0
     d.performs 0x15 0 7 x ∧ d.region (x.pn 0 0 10) = some reg ∧ reg.locked = false ∧ d.regionKeyed reg = true ∧
     x.pn 0 16 2 = 0 ∧ ownerOf (x.pn 0 24 2) = some .b ∧ ownsRegion (issuer x) reg = true ∧
     ownsRegion (issuer { x with qid := 64 }) reg = false ∧ ownersDead d reg = false) ∧
    (let x := cmd 0x15 [0x10001, 0, 0, 0, 0, 0, 0]
     let d := (X x ownerDead).before 100000000
     d.performs 0x15 0 7 x ∧ d.region (x.pn 0 0 10) = some { reg with owner := .b } ∧ x.pn 0 16 2 = 1 ∧
     ownsRegion (issuer x) { reg with owner := .b } = false ∧ ownersDead d { reg with owner := .b } = true) ∧
    (let x := cmd 0x15 [0x10001, 0, 0, 0, 0, 0, 0]
     let d := (X x ownerDead).before 0
     d.performs 0x15 0 7 x ∧ d.region (x.pn 0 0 10) = some { reg with owner := .b } ∧ x.pn 0 16 2 = 1 ∧
     ownersDead d { reg with owner := .b } = false) ∧
    (let x := cmd 0x15 [0x20001, 0, 0, 0, 0, 0, 0]
     let d := (X x ownerDead).before 0
     d.performs 0x15 0 7 x ∧ x.pn 0 16 2 = 2 ∧ ownsRegion (issuer x) { reg with owner := .b } = false ∧
     ownsRegion (issuer x) reg = true) := by
  unfold Dev.performs; decide +kernel

theorem test_meets_DiscardZeroesTheRange :
    let x := cmd 0x17 [1, 0, 512, 0, 0, 0, 0]
    let y := cmd 0x18 [1, 0, 512, 0, 0, 0, 0]
    let d := (X x mapped).before 0
    d.region (x.pn 0 0 10) = some reg ∧ ownsRegion (issuer x) reg = true ∧ reg.locked = false ∧
    d.regionKeyed reg = true ∧ reg.typ = .direct ∧ discardRange x reg = some (0, 2) ∧
    (∀ l ∈ partLines reg 0 2, d.writeRefused reg 1 l = false) ∧ d.discardOk reg 0 2 = true ∧ d.performs 0x17 0 7 x ∧
    ((X y mapped).before 0).performs 0x18 0 7 y ∧ y.parked = false ∧ d.roomForLine = true ∧
    ({ mapped with bench := { mapped.bench with reserved := 256 } } : Dev).roomForLine = false := by
  unfold Dev.performs; decide +kernel

/-- Both kept, with one line of two made. -/
theorem test_meets_DiscardZeroesTheRange_kept :
    ∀ op ∈ [0x17, 0x18], let x := { cmd op [1, 0, 512, 0, 0, 0, 0, 1] with parked := true }
    let d := (X x mapped).before 0
    d.region (x.pn 0 0 10) = some reg ∧ discardRange x reg = some (0, 2) ∧ x.parked = true ∧ d.performs op 0 7 x ∧
    (∀ l ∈ partLines reg 0 2, d.writeRefused reg 1 l = false) := by
  unfold Dev.performs; decide +kernel

def loadedKey : KeySlot := loadedSlot (leBytes 96 (2 ^ 700 + 12345))

/-- Key 5 is loaded, and a KWK is set. -/
def secured : Dev :=
  { withReg keyed with sec := { live.sec with slots := [(5, loadedKey)], kwk := some 7, sessA := 2, plaintext := true } }

theorem test_meets_KeysAreLoadedAndClosed :
    (let x := cmd 0x20 [0x85, hostAt 0x1000, 104, 0, 0, 0, 0]
     let d := (X x secured).before 0
     d.performs 0x20 0 7 x ∧ d.cabWaits x = false ∧ x.pn 2 0 16 = 104 ∧ x.pn 0 0 7 ≠ 0 ∧
     d.bufferOk (issuer x) (x.p 1) 104 = true ∧ (d.load [] noAnswers (issuer x) (x.p 1) 104).2.macFail = false ∧
     (d.load [] noAnswers (issuer x) (x.p 1) 104).2.bad = []) ∧
    (secured.slot 6).state = .free ∧ secured.slotsAsked.contains 6 = false ∧ (secured.slot 5).state = .loaded ∧
    (({ secured with sec := { secured.sec with slots := [(5, { loadedKey with state := .closing })] } } : Dev).slot
      5).state = .closing ∧
    (let x := cmd 0x21 [5, 0, 0, 0, 0, 0, 0]
     let d := (X x secured).before 0
     d.performs 0x21 0 7 x ∧ x.parked = false ∧ x.pn 0 0 7 ≠ 0 ∧ (d.slot (x.pn 0 0 7)).state = .loaded ∧
     d.rekeying (x.pn 0 0 7) = false) ∧
    (let x := cmd 0x21 [6, 0, 0, 0, 0, 0, 0]
     let d := (X x secured).before 0
     d.performs 0x21 0 7 x ∧ (d.slot (x.pn 0 0 7)).state ≠ .loaded) ∧
    (let d := (W secured).before 0
     d.portOn (.head .a) = true ∧ d.session (.head .a) 1 = true ∧ d.portOn (.head .b) = true ∧
     d.session (.head .b) 1 = false ∧ d.portOn .sideband = true) := by
  unfold Dev.performs; decide +kernel

def rekey1 : Rekey := { oldKey := 0, newKey := 5, persist := 0, limit := 61440, boundary := 0, resumed := false }

def rekeyDev (q : Rekey) : Dev :=
  { withReg { reg with rekey := some q } with sec := { live.sec with slots := [(5, loadedKey)], plaintext := true } }

theorem test_meets_KeysAreLoadedAndClosed_rekeying :
    let x := cmd 0x21 [5, 0, 0, 0, 0, 0, 0]
    let d := (X x (rekeyDev rekey1)).before 0
    d.performs 0x21 0 7 x ∧ (d.slot (x.pn 0 0 7)).state = .loaded ∧ d.rekeying (x.pn 0 0 7) = true := by
  unfold Dev.performs; decide +kernel

theorem test_meets_RekeyMovesByStripes :
    (let x := cmd 0x22 [0x50001, 0, 0, 0, 0, 0, 0]
     let d := (X x { secured with sys := mapped.sys }).before 0
     d.region 1 = some reg ∧ reg.locked = false ∧ d.performs 0x22 0 7 x ∧ x.pn 0 0 10 = 1 ∧
     ownsRegion (issuer x) reg = true ∧ x.pn 0 16 7 ≠ reg.keyId ∧ x.pn 0 16 7 ≠ 0 ∧ d.keyLoaded reg.keyId = true ∧
     d.keyLoaded (x.pn 0 16 7) = true ∧ reg.rekey = none) ∧
    (let q := rekey1
     let d := (W (rekeyDev q)).before 0
     d.region 1 = some { reg with rekey := some q } ∧ d.background = true ∧ d.clearFirst = false ∧ d.keyLoaded q.oldKey = true ∧
     d.keyLoaded q.newKey = true ∧ q.boundary < reg.lines ∧ q.boundary < q.limit ∧
     (d.lineStripe 1 { reg with rekey := some q } q.boundary).isSome ∧
     (d.lineStripe 1 { reg with rekey := some q } q.boundary).all (fun p =>
       zMapped p.1.e && d.rekeyOk noAnswers p.1 && (d.macStops noAnswers p.1).isNone) = true) ∧
    (let q := { rekey1 with boundary := 61440 }
     let d := (W (rekeyDev q)).before 0
     d.background = true ∧ q.boundary < reg.lines ∧ q.limit ≤ q.boundary) ∧
    (let q := { rekey1 with boundary := reg.lines }
     ((W (rekeyDev q)).before 0).background = true ∧ reg.lines ≤ q.boundary) ∧
    (let r := { reg with rekey := some rekey1 }
     let d := (W { rekeyDev rekey1 with zt := live.zt }).before 0
     d.region 1 = some r ∧ d.background = true ∧ d.clearFirst = false ∧
     (d.lineStripe 1 r 0).any (fun p => !zMapped p.1.e) = true) ∧
    (let r := { reg with rekey := some rekey1 }
     let d := (W { rekeyDev rekey1 with zt := { mapped.zt with lost := [0] } }).before 0
     d.region 1 = some r ∧ d.background = true ∧ d.clearFirst = false ∧
     (d.lineStripe 1 r 0).any (fun p => zMapped p.1.e && !d.rekeyOk noAnswers p.1) = true) := by
  unfold Dev.performs; decide +kernel

/-- A LIGHT line of zeros under key 5, with a line MAC of 0 or of 1: at least one of them is wrong. Check bits by hand
from the generator polynomial of 02 R55. -/
def macMeta (b : Nat) : Meta :=
  { tag := 0, wseq := 1, keyId := 5, light := true, mac := b, dstamp := 0, full := false }
def macImage (b : Bool) : Image :=
  BitVec.ofNat 2592 ((if b then
    0x1850000000001000000000888888888888888888888888888888888888888888888888888888888888888888888888453abe2e840a2f81024491b6
  else
    0x850000000001000000000888888888888888888888888888888888888888888888888888888888888888888888888d1ef6ade1676268dbabdf655) * 2 ^ 2048)

set_option maxRecDepth 100000 in
theorem macImage_decodes0 : decodeSensed .light (macImage false) = some (0, macMeta 0, 0) := by decide +kernel

set_option maxRecDepth 100000 in
theorem macImage_decodes1 : decodeSensed .light (macImage true) = some (0, macMeta 1, 0) := by decide +kernel

theorem confirm_macFails (d : Dev) (c : LineCtx) (img : Image) (m : Meta) (h : decodeSensed c.prof img = some (0, m, 0))
    (hl : m.light = decide (c.prof = .light)) (ht : m.tag = mkTag c.lz c.s c.role) (hk : keyMatches c.key m.keyId = true)
    (hm : c.mac = true) (hu : d.keyUsable m.keyId = true) (h0 : m.keyId ≠ 0)
    (hw : d.lineMac m.keyId c.region c.idx 0 ≠ m.mac) : d.confirm c true img = .macFail := by
  simp [Dev.confirm, LineCtx.reads, h, hl, ht, hk, hm, hu, h0]
  exact hw

theorem readEnd_macFails (d : Dev) (u : StripeCtx) (c : LineCtx) (img : Image) (hz : zMapped u.e = true)
    (hp : d.pinnedEntry c = none) (ho : d.isOut (plaLane c.pla) (plaZone c.pla) = false)
    (hs : d.sensed noAnswers c.pla 1 = some img) (hc : d.confirm c true img = .macFail) : d.readEnd noAnswers u c true = .poison 3 1 := by
  simp [Dev.readEnd, hz, hp, ho, Dev.tryPasses, hs, hc, ofVerdict]

theorem foldl_le {α : Type} (f : α → Nat) : ∀ (l : List α) (n : Nat), (∀ c ∈ l, f c ≤ 1) →
    l.foldl (fun n c => n + f c) n ≤ n + l.length
  | [], n, _ => by simp
  | c :: l, n, h => by
    have h1 := foldl_le f l (n + f c) (fun x hx => h x (by simp [hx]))
    have h2 := h c (by simp)
    simp only [List.foldl_cons, List.length_cons]
    omega

/-- Without pinned lines a copy enters at most one record a line, so that an empty list has room for it. -/
theorem copyRoom_empty (d : Dev) (ans : Answers) (u : StripeCtx) (h : d.sys.poison = [])
    (hp : u.data.all (fun c => decide (d.pinnedEntry c = none)) = true) (hl : u.data.length ≤ poisonMax) :
    d.copyRoom ans u = true := by
  have h1 : ∀ c ∈ u.data, d.recordsOfCopy ans u c ≤ 1 := by
    intro c hc
    have : d.pinnedEntry c = none := of_decide_eq_true (List.all_eq_true.mp hp c hc)
    simp only [Dev.recordsOfCopy, this]
    split
    · split <;> omega
    · omega
  have h2 := foldl_le _ u.data 0 h1
  simp only [Dev.copyRoom, Dev.recordRoom, h, Bool.or_eq_true, decide_eq_true_eq]
  exact .inr (le_trans (by simpa using h2) hl)

/-- What a rekey asks of a stripe beside room in the poisoned-line list, with nothing pinned. -/
def rekeyQuiet (d : Dev) (t : StripeCtx) : Bool :=
  !d.stripeBusy t.lz t.s && !d.zt.lost.contains t.lz && !d.wseqStuck t.lz && !d.moveHolds t.lz &&
  !d.restoreHolds (zPz t.e) && d.tilesFree (zPz t.e) && !t.all.any (fun c => d.lineRead c.pla) &&
  !d.gapWaits t.lz && d.stripeIntentOk t && t.data.all (fun c => decide (d.pinnedEntry c = none)) &&
  decide (t.data.length ≤ poisonMax) && d.sys.poison.isEmpty

theorem rekeyOk_of_quiet {d : Dev} {t : StripeCtx} (ans : Answers) (h : rekeyQuiet d t = true) :
    d.rekeyOk ans t = true := by
  simp only [rekeyQuiet, Bool.and_eq_true, List.isEmpty_iff, decide_eq_true_eq] at h
  obtain ⟨⟨⟨h1, h2⟩, h3⟩, h4⟩ := h
  simp only [Dev.rekeyOk, Bool.and_eq_true]
  exact ⟨h1, copyRoom_empty d ans t h4 h2 h3⟩

/-- A LIGHT region with lock-on-MAC under a rekey from key 5 to key 6, whose first line is such a line. -/
def rekey56 : Rekey := { rekey1 with oldKey := 5, newKey := 6 }
def regMac : Region := { keyed with profile := .light, rekey := some rekey56 }

def macDev (b : Bool) : Dev :=
  let d := { withReg regMac with
    zt := { live.zt with entries := [(0, BitVec.ofNat 64 (mkZte 9000 0 4096 0 true 1 false))] }
    sec := { live.sec with slots := [(5, loadedKey), (6, loadedKey)], plaintext := true } }
  match d.lineStripe 1 regMac 0 with
  | some (_, c) => d.store c.pla (macImage b)
  | none => d

/-- What the facts below say of a stripe and its failing line. -/
def macReady (d : Dev) (b : Bool) (p : StripeCtx × LineCtx) : Bool :=
  zMapped p.1.e && rekeyQuiet d p.1 && p.1.r.lockOnMac && p.1.data.contains p.2 && d.sec.macLines.isEmpty &&
  !d.clearFirst &&
  decide (p.2.prof = .light ∧ mkTag p.2.lz p.2.s p.2.role = 0 ∧ keyMatches p.2.key 5 = true ∧ p.2.mac = true ∧
    d.keyUsable 5 = true ∧ d.pinnedEntry p.2 = none ∧ d.isOut (plaLane p.2.pla) (plaZone p.2.pla) = false ∧
    d.sensed noAnswers p.2.pla 1 = some (macImage b))

theorem macDev_facts : ∀ b, let d := (W (macDev b)).before 0
    d.region 1 = some regMac ∧ d.background = true ∧ d.keyLoaded 5 = true ∧ d.keyLoaded 6 = true ∧
    (d.lineStripe 1 regMac 0).any (macReady d b) = true := by decide +kernel

/-- A lock-on-MAC stripe whose line decodes with a MAC other than its own stops a rekey. -/
theorem macStops_of (d : Dev) (b : Bool) (n : Nat) (p : StripeCtx × LineCtx) (h : macReady d b p = true)
    (hd : decodeSensed .light (macImage b) = some (0, macMeta n, 0)) (hn : d.lineMac 5 p.2.region p.2.idx 0 ≠ n) :
    zMapped p.1.e = true ∧ d.rekeyOk noAnswers p.1 = true ∧ d.clearFirst = false ∧
      ∃ y pass, d.macStops noAnswers p.1 = some (y, pass) := by
  simp only [macReady, Bool.and_eq_true, decide_eq_true_eq, Bool.not_eq_true', List.isEmpty_iff] at h
  obtain ⟨⟨⟨⟨⟨⟨h1, h2⟩, h3⟩, h4⟩, h5⟩, h6⟩, g1, g2, g3, g4, g5, gp, g6, g7⟩ := h
  have hc : d.confirm p.2 true (macImage b) = .macFail :=
    confirm_macFails d p.2 _ (macMeta n) (by rw [g1]; exact hd) (by rw [g1]; rfl) (by rw [g2]; rfl) g3 g4 g5
      (by simp [macMeta]) hn
  have hr := readEnd_macFails d p.1 p.2 _ h1 gp g6 g7 hc
  have hx : (d.macStops noAnswers p.1).isSome = true := by
    simp only [Dev.macStops, h3, if_true, List.findSome?_isSome_iff]
    exact ⟨p.2, by simpa [show d.sec.macLines = [] from h5] using h4, by simp only [hr, Option.isSome_some]⟩
  obtain ⟨q, hq⟩ := Option.isSome_iff_exists.mp hx
  exact ⟨h1, rekeyOk_of_quiet _ h2, h6, q.1, q.2, hq⟩

theorem test_meets_RekeyMovesByStripes_mac : ∃ b, let d := (W (macDev b)).before 0
    d.region 1 = some regMac ∧ d.background = true ∧ d.keyLoaded 5 = true ∧ d.keyLoaded 6 = true ∧
    ∃ u c, d.lineStripe 1 regMac 0 = some (u, c) ∧ zMapped u.e = true ∧ d.rekeyOk noAnswers u = true ∧
      d.clearFirst = false ∧ ∃ y pass, d.macStops noAnswers u = some (y, pass) := by
  obtain ⟨a1, a2, a3, a4, a5⟩ := macDev_facts false
  obtain ⟨b1, b2, b3, b4, b5⟩ := macDev_facts true
  obtain ⟨p, hp, h⟩ := Option.any_eq_true _ _ |>.mp a5
  by_cases e : ((W (macDev false)).before 0).lineMac 5 p.2.region p.2.idx 0 = 0
  · obtain ⟨q, hq, h'⟩ := Option.any_eq_true _ _ |>.mp b5
    have e1 : ((W (macDev true)).before 0).lineStripe 1 regMac 0 = ((W (macDev false)).before 0).lineStripe 1 regMac 0 := by
      decide +kernel
    have e2 : ((W (macDev true)).before 0).keyPart 5 2 = ((W (macDev false)).before 0).keyPart 5 2 := by decide +kernel
    refine ⟨true, b1, b2, b3, b4, q.1, q.2, hq, macStops_of _ true 1 q h' macImage_decodes1 ?_⟩
    rw [e1, hp] at hq
    rw [← Option.some.inj hq]
    simp only [Dev.lineMac] at e ⊢
    rw [e2, e]
    decide
  · exact ⟨false, a1, a2, a3, a4, p.1, p.2, hp, macStops_of _ false 0 p h macImage_decodes0 e⟩

/-- CABINET_AUTH of partition 1 with an operation; the host's block is zeros or not. -/
def auth (op : Nat) : Exec := cmd 0x23 [BitVec.ofNat 64 (1 + 4 * op), hostAt 0x1000, 0, 0, 0, 0, 0]
def block (b : Nat) : List HostBytes := [{ addr := 0x1000, bytes := leBytes 32 b, poisoned := false }]

theorem test_meets_PartitionsAreOpenedBySecrets :
    (let x := auth 0
     let d := (X x secured).before 0
     let l := d.load (block 3) noAnswers (issuer x) (x.p 1) 32
     d.performs 0x23 0 7 x ∧ d.cabWaits x = false ∧ x.pn 0 0 2 ≠ 3 ∧ d.bufferOk (issuer x) (x.p 1) 32 = true ∧
     l.2.macFail = false ∧ l.2.bad = [] ∧ x.pn 0 2 2 = 0 ∧ l.1.partitionLocked 1 = false) ∧
    (let x := auth 0
     let d := (X x { secured with sec := { secured.sec with locks := 2 } }).before 0
     (d.load (block 3) noAnswers (issuer x) (x.p 1) 32).1.partitionLocked 1 = true) ∧
    (let x := auth 1
     let d := (X x secured).before 0
     d.performs 0x23 0 7 x ∧ x.pn 0 2 2 = 1 ∧
     leNat (d.load (block 0) noAnswers (issuer x) (x.p 1) 32).2.bytes = 0) ∧
    (let x := auth 2
     let d := (X x secured).before 0
     let l := d.load (block 3) noAnswers (issuer x) (x.p 1) 32
     d.performs 0x23 0 7 x ∧ x.pn 0 2 2 = 2 ∧ l.1.session (.head .a) 1 = true ∧ leNat l.2.bytes ≠ 0) ∧
    (let x := auth 3
     let d := (X x secured).before 0
     d.performs 0x23 0 7 x ∧ x.pn 0 2 2 = 3 ∧ x.pn 0 0 2 = 1 ∧
     (d.load (block 3) noAnswers (issuer x) (x.p 1) 32).1.session (.head .a) 1 = true) := by
  unfold Dev.performs; decide +kernel

theorem test_meets_PartitionsAreOpenedBySecrets_writes :
    (∀ b, let r : CabReq :=
       { prio := 0, pair := 3, typ := 1, len := 8, id := 5, payload := 0, wipe := false,
         after := if b then .keyLoad 0 7 6 3 else .nothing }
     let n := if b then 0 else 1
     let x := cmd 0x20 []
     let d := (X x { live with cab := { live.cab with busy := some (r, n) } }).before 0
     d.pwr.vaux = true ∧ d.cab.busy = some (r, n) ∧ (b = true → r.after = .keyLoad 0 7 6 3 ∧
       d.q.exec.find? (fun y => y.qid == 0 && y.cid == 7 && y.opcode == 0x20) = some x ∧ n = 0) ∧
     (b = false → n ≠ 0 ∧ r.after = .nothing)) ∧
    (let d := (W secured).before 0
     d.portOn (.head .a) = true ∧ d.session (.head .a) 1 = true ∧ d.session (.head .b) 1 = false ∧
     d.sec.secLock = false ∧ (1 : BitVec 32).toNat.testBit 0 = true) ∧
    (let d := (W { secured with sys := mapped.sys }).before 0
     d.session (.head .a) 1 = true ∧ (0 : BitVec 32).toNat.testBit 0 = false ∧ d.plainRegion = true) ∧
    (let d := (W { secured with sec := { secured.sec with secLock := true } }).before 0
     d.session (.head .a) 1 = true ∧ d.sec.secLock = true) := by decide +kernel

/-- Region 2 an INDEX, region 3 a HEAP, of head A, in the clear; BENCH room for their writes. -/
def regIndex : Region := { reg with typ := .index, extents := [(4, 1)], dpaSize := 0 }
def regHeap : Region := { reg with typ := .heap, extents := [(10, 8)], dpaSize := 0 }

def store : Dev :=
  { mapped with
    sys := { mapped.sys with regions := [(1, some reg), (2, some regIndex), (3, some regHeap)] }
    bench := { mapped.bench with cap := 1024 } }

/-- An object of 5 bytes under key 77, at unit 0 of the heap. -/
def entry77 : IdxEntry := { key := 77, loc := 0, len := 5, heap := 3, k := 0, m := 0, digest := 0 }

/-- Its entry stands in the first slot of its first bucket. -/
def stored77 : Dev :=
  { store with
    bench := { store.bench with
      entries := [{ mkEntry 2 (bucket1 regIndex.buckets 77) .victim (BitVec.ofNat 2048 entry77.bits) 0xF 0 (sameCause 0) with id := 1 }]
      nextId := 2 }
    obj := { store.obj with counts := [(2, 1)] } }

/-- OBJ_PUT of 5 bytes under key 77, with and without REPLACE. -/
def put (replace : Bool) : Exec :=
  cmd 0x30 [BitVec.ofNat 64 (2 + 3 * 65536 + bool01 replace * 2 ^ 32), 77, 0, hostAt 0x1000, 5, 0, 0]

/-- Every consumer of l holds an ENGINE token once they are granted. -/
def tokened (d : Dev) (l : List Nat) : Bool := l.all (fun c => decide (0 < tget 0 (d.grant l).eng.tokens c))

theorem tokened_granted (d : Dev) (l : List Nat) (h : tokened d l = true) : d.granted l (d.grant l) :=
  ⟨rfl, fun c hc => by simpa using List.all_eq_true.mp h c hc⟩

/-- The reservation of the record that OBJ_PUT writes, and its bytes. -/
def putLoads (d : Dev) (x : Exec) : Buf :=
  ((d.reserveRecord 3 regHeap 0 0 (putUnits x) (objKey x) true).load [] noAnswers (issuer x) (x.p 3) (putLen x)).2

theorem test_meets_ObjectPutWritesRecordThenEntry :
    (∀ b, let x := put b
     let d := (X x (if b then stored77 else store)).before 0
     let d0 := d.grant [10, 11]
     d.performs 0x30 0 7 x ∧ tokened d [10, 11] = true ∧ d0.named x .index (indexId x) = .inr regIndex ∧
     d0.named x .heap (heapId x) = .inr regHeap ∧ x.parked = false ∧ putBad x regHeap = false ∧
     d0.bufferOk (issuer x) (x.p 3) (putLen x) = true ∧ d0.keyRefused (indexId x) regIndex (objKey x) = false ∧
     d0.recordRefused x regHeap = false ∧ d0.keyFree (indexId x) regIndex (objKey x) = true ∧
     d0.roomFor (stripeLines regHeap.prot + 12) = true) ∧
    (let x := put false
     let d0 := ((X x store).before 0).grant [10, 11]
     let l := d0.lookup noAnswers 2 regIndex (objKey x)
     let m := l.1.makeSlot noAnswers 2 regIndex (objKey x)
     l.2 = .inr none ∧ l.1.placeRecord (heapId x) regHeap (putUnits x) = some (0, 0, true) ∧
     m.2 = .slot (bucket1 regIndex.buckets 77, 0) ∧ (putLoads m.1 x).macFail = false ∧
     (putLoads m.1 x).firstBad = none) ∧
    (let x := put true
     let d0 := ((X x stored77).before 0).grant [10, 11]
     let l := d0.lookup noAnswers 2 regIndex (objKey x)
     l.2 = .inr (some ⟨bucket1 regIndex.buckets 77, 0, entry77.bits⟩) ∧ entry77.bits ≠ 0 ∧ putReplace x = true ∧
     putReplace (put false) = false ∧ l.1.placeRecord (heapId x) regHeap (putUnits x) = some (0, 0, true) ∧
     (putLoads l.1 x).macFail = false ∧ (putLoads l.1 x).firstBad = none) := by
  unfold Dev.performs; decide +kernel

/-- A heap of two zones, of which the last EMPTY ones are kept for collection. -/
def smallHeap : Region := { regHeap with extents := [(10, 2)] }

theorem test_meets_ObjectPutWritesRecordThenEntry_full :
    (let x := put false
     let d0 := ((X x { store with obj := { store.obj with counts := [(2, 2 ^ 32)] } }).before 0).grant [10, 11]
     let l := d0.lookup noAnswers 2 regIndex (objKey x)
     l.2 = .inr none ∧ (l.1.makeSlot noAnswers 2 regIndex (objKey x)).2 = .full) ∧
    (let x := put false
     let d := (X x { store with
       sys := { store.sys with regions := [(2, some regIndex), (3, some smallHeap)] } }).before 0
     let d0 := d.grant [10, 11]
     let l := d0.lookup noAnswers 2 regIndex (objKey x)
     d.performs 0x30 0 7 x ∧ tokened d [10, 11] = true ∧ d0.named x .index (indexId x) = .inr regIndex ∧
     d0.named x .heap (heapId x) = .inr smallHeap ∧ putBad x smallHeap = false ∧ l.2 = .inr none ∧
     d0.roomFor (stripeLines smallHeap.prot + 12) = true ∧ d0.recordRefused x smallHeap = false ∧
     (l.1.makeSlot noAnswers 2 regIndex (objKey x)).2 = .slot (bucket1 regIndex.buckets 77, 0) ∧
     l.1.placeRecord (heapId x) smallHeap (putUnits x) = none) ∧
    (let x := { put false with parked := true }
     let d := (X x store).before 0
     d.performs 0x30 0 7 x ∧ x.parked = true ∧ tokened d [10, 11] = true ∧
     (d.grant [10, 11]).named x .heap (heapId x) = .inr regHeap) := by
  unfold Dev.performs; decide +kernel

theorem test_meets_ObjectsAreFoundByKey :
    (∀ op ∈ [0x31, 0x32, 0x34], let x := cmd op [2, 77, 0, hostAt 0x1000, 64, 0, 0]
     let d := (X x stored77).before 0
     let l := if op = 0x31 then [10, 11] else [10]
     let d0 := d.grant l
     let y := d0.lookup noAnswers 2 regIndex (objKey x)
     d.performs op 0 7 x ∧ tokened d l = true ∧ d0.named x .index (indexId x) = .inr regIndex ∧
     d0.keyFree (indexId x) regIndex (objKey x) = true ∧ d0.keyRefused (indexId x) regIndex (objKey x) = false ∧
     d0.roomFor 2 = true ∧ d0.bufferOk (issuer x) (x.p 3) (x.pn 4 0 32) = true ∧
     d0.bufferOk (issuer x) (x.p 3) 32 = true ∧ d0.pairWaits noAnswers 2 regIndex (objKey x) = false ∧
     (match y.2 with
      | .inr (some o) => decide (entryOf o.entry = entry77)
      | _ => false) = true ∧
     y.1.heapOf entry77 = .inr regHeap ∧ x.pn 4 32 32 ≤ entry77.len ∧
     (y.1.objBytes noAnswers regHeap entry77 0 5).2.2 = none ∧
     ((y.1.objBytes noAnswers regHeap entry77 0 5).1.digestStop noAnswers regHeap entry77 0 5 []).2 = none) ∧
    (∀ op ∈ [0x31, 0x32, 0x34], let x := cmd op [2, 78, 0, hostAt 0x1000, 64, 0, 0]
     let d := (X x stored77).before 0
     let d0 := d.grant (if op = 0x31 then [10, 11] else [10])
     d.performs op 0 7 x ∧ d0.keyFree (indexId x) regIndex (objKey x) = true ∧
     d0.pairWaits noAnswers 2 regIndex (objKey x) = false ∧
     (d0.lookup noAnswers 2 regIndex (objKey x)).2 = .inr none) := by
  unfold Dev.performs; decide +kernel

/-- Heap zone 0 FULL with n units in use, by the record of 5 bytes; collection is wanted. -/
def fullZone (n : Nat) : Dev :=
  { store with sys := { store.sys with heap := [(heapKey 3 0, { heapDefault with hstate := .full, validUnits := n })] } }

theorem test_meets_HeapZonesAreCollectedAndSealed :
    (∀ n ∈ [0, 2], let d := (W (fullZone n)).before 0
     let d0 := d.grant [11]
     let d1 := d0.noteRunning 3 regHeap
     d.background = true ∧ tokened d [11] = true ∧ d0.obj.recount = false ∧ d0.region 3 = some regHeap ∧
     regHeap.typ = .heap ∧ d0.journalOk = true ∧ d0.noLocks = true ∧ d1.targetFree 3 regHeap = true ∧ d1.sourceZone 3 regHeap = some 0 ∧
     regHeap.zoneAt 0 = some 10 ∧ d1.zoneStill 10 = true ∧ d1.roomFor 64 = true ∧
     (d1.heapZone 3 0).validUnits = n ∧ d1.entriesDurable = true) ∧
    (let d1 := (((W (fullZone 2)).before 0).grant [11]).noteRunning 3 regHeap
     (d1.collectZone noAnswers 3 regHeap 0).2 = .emptied ∧
     (d1.collectZone noAnswers 3 regHeap 0).1.entriesDurable = true) ∧
    (let x := cmd 0x33 [2, 77, 0, 0, 0, 0, 0]
     let d := ((X x stored77).before 0).grant [10, 11]
     ((X x stored77).before 0).performs 0x33 0 7 x ∧ tokened ((X x stored77).before 0) [10, 11] = true ∧ d.named x .index (indexId x) = .inr regIndex ∧ x.parked = false ∧
     d.keyRefused (indexId x) regIndex (objKey x) = false ∧ d.roomFor 2 = true ∧
     d.keyFree (indexId x) regIndex (objKey x) = true ∧
     (match (d.lookup noAnswers 2 regIndex (objKey x)).2 with
      | .inr (some _) => true
      | _ => false) = true) ∧
    (let x := { cmd 0x33 [2, 77, 0, 0, 0, 0, 0, 1] with parked := true }
     ((X x stored77).before 0).performs 0x33 0 7 x ∧ tokened ((X x stored77).before 0) [10, 11] = true ∧
     (((X x stored77).before 0).grant [10, 11]).named x .index (indexId x) = .inr regIndex) ∧
    (let r : PartStripe := { region := 3, zone := 0, stripe := 0, since := 0 }
     let d := (W { fullZone 0 with
       sys := { store.sys with heap := [(heapKey 3 0, { heapDefault with hstate := .open, append := 2 })] }
       obj := { store.obj with parts := [r] } }).before 50000
     d.life.running = true ∧ d.region 3 = some regHeap ∧ d.bench.exposed = false ∧ d.bench.draining = false ∧
     d.sealDue 3 regHeap false = some 0 ∧ d.roomFor (stripeLines regHeap.prot) = true) ∧
    (store.notedZones noAnswers 77).2.1 = [] ∧ (store.notedZones noAnswers 77).1.journalOk = true ∧
    (store.notedZones noAnswers 77).1.noLocks = true ∧ (store.notedZones noAnswers 77).1.entriesDurable = true ∧
    (store.notedZones noAnswers 77).1.roomFor 64 = true := by
  unfold Dev.performs; decide +kernel

/-- Two data shards and one of parity, of 64 B each, in host memory; the shard list lies at 0x1000. -/
def ec (op mask : Nat) : Exec := cmd op [0x22, hostAt 0x1000, 64, BitVec.ofNat 64 mask, 0, 0, 0]

def shardList : List HostBytes :=
  [{ addr := 0x1000, bytes := leBytes 8 0x2000 ++ leBytes 8 0x2040 ++ leBytes 8 0x2080, poisoned := false }]

/-- A command whose 64 B have all been released, in the engine of a digest. -/
def ended (dig : Nat) : EngJob :=
  { order := 0, engine := min dig 1, dig := dig, len := 64, inputs := [], rest := [], outs := [], pos := 64, sure := 64,
    sum := sumStart dig, kept := sumStart dig, held := [], cut := none, macFail := false, dead := false, stalled := false }

/-- The same in the block. -/
def inEngine (dig : Nat) : Dev := { live with eng := { live.eng with jobs := [ended dig] } }

theorem test_meets_EnginesComputeOverBuffers :
    (let x := ec 0x38 0
     let d := (X x live).before 0
     let sh := d.shards shardList noAnswers x
     let l := [hostAt 0x2000, hostAt 0x2040, hostAt 0x2080]
     d.job x.order = none ∧ d.performs 0x38 0 7 x ∧ ecK x ≤ sh.1.freeStreams.length ∧ sh.2 = .inr l ∧
     sh.1.storesRefused x (l.drop (ecK x)) (ecLen x) = false) ∧
    (let x := ec 0x39 1
     let d := (X x live).before 0
     let sh := d.shards shardList noAnswers x
     let l := [hostAt 0x2000, hostAt 0x2040, hostAt 0x2080]
     let gone := erased x (ecK x + ecM x)
     d.performs 0x39 0 7 x ∧ ecBad x = false ∧ ecMask x < 2 ^ (ecK x + ecM x) ∧ ecK x ≤ sh.1.freeStreams.length ∧
     sh.2 = .inr l ∧ gone = [0] ∧ gone.length ≤ ecM x ∧
     sh.1.storesRefused x (gone.map (fun i => (l[i]?).getD 0)) (ecLen x) = false) ∧
    (∀ dig ∈ [0, 1, 2, 3], let x := cmd 0x3A [BitVec.ofNat 64 dig, hostAt 0x1000, hostAt 0x2000, 64, 0, 0, 0]
     let d := (X x live).before 0
     let m := if x.pn 0 0 3 = 0 then x.pn 3 0 32 else digestLen (x.pn 0 0 3)
     let ins := if x.pn 0 0 3 = 0 then [x.p 1, x.p 2] else [x.p 1]
     d.performs 0x3A 0 7 x ∧ x.pn 3 0 32 ≠ 0 ∧ x.pn 0 0 3 ≤ 3 ∧ d.bufferOk (issuer x) (x.p 1) (x.pn 3 0 32) = true ∧
     d.bufferOk (issuer x) (x.p 2) m = true ∧ (d.engineFor (x.pn 0 0 3)).isSome ∧ ins.length ≤ d.freeStreams.length) ∧
    (∀ dig ∈ [1, 2, 3], let x := cmd 0x3B [BitVec.ofNat 64 dig, hostAt 0x1000, 64, hostAt 0x3000, 0, 0, 0]
     let d := (X x live).before 0
     let dl := digestLen (x.pn 0 0 3)
     d.performs 0x3B 0 7 x ∧ x.pn 2 0 32 ≠ 0 ∧ x.pn 0 0 3 ≠ 0 ∧ x.pn 0 0 3 ≤ 3 ∧
     overlaps (x.p 3) dl (x.p 1) (x.pn 2 0 32) = false ∧ d.bufferOk (issuer x) (x.p 1) (x.pn 2 0 32) = true ∧
     d.bufferOk (issuer x) (x.p 3) dl = true ∧ d.saveRefused (issuer x) (x.p 3) dl = false ∧
     (d.engineFor (x.pn 0 0 3)).isSome ∧ 1 ≤ d.freeStreams.length) := by
  unfold Dev.performs; decide +kernel

theorem test_meets_EnginesComputeOverBuffers_turns :
    (∀ op ∈ [0x38, 0x39, 0x3A, 0x3B], let x := cmd op [2, 0, 0, hostAt 0x3000, 0, 0, 0]
     let d := (X x (inEngine 0)).before 0
     d.performs op 0 7 x ∧ d.job x.order = some (ended 0) ∧ (ended 0).sure = (ended 0).stop x ∧
     (ended 0).macFail = false ∧ (ended 0).poisoned x = none ∧ (ended 0).cut = none) ∧
    (let x := cmd 0x3B [2, 0, 0, hostAt 0x3000, 0, 0, 0]
     (inEngine 2).job x.order = some (ended 2) ∧ (ended 2).sure = (ended 2).stop x ∧ (ended 2).macFail = false ∧
     (ended 2).poisoned x = none ∧ (ended 2).cut = none ∧
     ((inEngine 2).dropJob 0).saveRefused (issuer x) (x.p 3) (digestLen 2) = false) := by
  unfold Dev.performs; decide +kernel

/-- A sense of line 0 of region 1, in lane 1. -/
def pla0 : Pla := 0x0404650000

def sense (kind : SenseKind) (state : SenseState) : Sense :=
  { id := 1, read := 9, kind := kind, recovery := false, pla := pla0, state := state, repeated := false, verge := false,
    waited := false, refs := [], dstamp := 0 }

def read0 (line : Nat) : ReadTx :=
  { id := 9, region := 1, line := line, lzone := 0, lstripe := 0, pla := pla0, waiters := [.host .a 3 0 0],
    detour := false, lastPass := 0, burst := false, recon := false, siblings := [], blanks := [], reconBad := false,
    blank := false, passesBad := false }

/-- The read of a line, with senses in lane 1; n RECOVERY senses have just started there. -/
def reading (line : Nat) (q : List Sense) (n : Nat) : Dev :=
  { mapped with lane := { live.lane with
      lanes := vset live.lane.lanes 1 { live.lane1 1 with queue := q, recStarts := List.replicate n (0, 0) }
      reads := [read0 line], nextRead := 10, nextSense := 2 } }

theorem test_meets_LaneStartsTheSenseInTurn :
    let y := { sense (.pass 2) .queued with recovery := true }
    let first (d : Dev) : Option Sense := firstSense (((d.lane1 1).queue.filter isQueued).filter (fun y => y.recovery))
    (let d := (W (reading 0 [sense (.pass 1) .queued] 0)).before 0
     d.life.running = true ∧ first d = none) ∧
    (let d := (W (reading 0 [y] 11)).before 0
     first d = some y ∧ (recentStarts d.now (d.lane1 1)).length < 12) ∧
    (let d := (W (reading 0 [y] 12)).before 0
     first d = some y ∧ 12 ≤ (recentStarts d.now (d.lane1 1)).length) := by decide +kernel

theorem test_meets_SensesAndDecodesEnd :
    (∀ k ∈ [SenseKind.pass 1, .waymark], ∀ b, let y := { sense k (.started 0) with repeated := b }
     let d := (W (reading 0 [y] 0)).before 260
     d.life.running = true ∧ d.senseOf 1 1 = some y ∧ y.state = .started 0 ∧ 0 + 260 ≤ d.now) ∧
    (let y := sense (.pass 2) (.sensed 0 0)
     let d := (W (reading 0 [y, { sense (.pass 1) (.sensed 0 0) with id := 2 }] 0)).before 0
     d.senseOf 1 1 = some y ∧ d.earlierPass y = true) ∧
    (let y := sense (.pass 2) (.sensed 0 0)
     let d := (W (reading 0 [y] 0)).before 0
     d.senseOf 1 1 = some y ∧ d.earlierPass y = false ∧ d.decoding 1 y = true ∧ d.readTx y.read = some (read0 0)) ∧
    (let y := { sense (.pass 2) (.sensed 0 2) with id := 3 }
     let l := [{ sense (.pass 2) (.sensed 0 0) with read := 7 }, { sense (.pass 2) (.sensed 0 1) with id := 2, read := 8 }, y]
     let d := (W (reading 0 l 0)).before 0
     d.senseOf 1 3 = some y ∧ d.earlierPass y = false ∧ d.decoding 1 y = false) := by decide +kernel

theorem clMod_zero (c g : Nat) : ∀ n, clMod c g n 0 = 0
  | 0 => rfl
  | n + 1 => by simp [clMod, clMod_zero c g n]

theorem bchCorrect_zero (t n : Nat) : bchCorrect t n 0 = some (0, 0) := by
  unfold bchCorrect
  rw [if_pos (clMod_zero _ _ _)]

theorem decodeLine_zero (p : Profile) (img : Image) (h : codeword p img = 0) :
    decodeLine p img = some (0, metaOf 0, 0) := by
  unfold decodeLine
  have f : ∀ lo n, fld 0 lo n = 0 := by intro lo n; simp [fld]
  rw [h]
  simp only [bchCorrect_zero, f]
  rfl

/-- The word of zeros is a codeword. -/
theorem zeros_decode : decodeSensed .strong 0#2592 = some (0, metaOf 0, 0) := by
  rw [decodeSensed, if_neg (by decide +kernel)]
  exact decodeLine_zero _ _ (by decide +kernel)

/-- Where the line's number, stripe and role are all 0, it is good; elsewhere its TAG is wrong. -/
theorem test_meets_SensesAndDecodesEnd_good :
    let d := (W (reading 0 [sense (.pass 2) (.sensed 0 0)] 0)).before 0
    ∃ u c, d.readCtx (read0 0) = some (u, c) ∧ d.confirm c true 0 = .good 0 (metaOf 0) 0 := by
  intro d
  have h : (d.readCtx (read0 0)).any (fun p => decide (p.2.prof = .strong) && decide (mkTag p.2.lz p.2.s p.2.role = 0) &&
      keyMatches p.2.key 0 && !p.2.mac) = true := by decide +kernel
  obtain ⟨p, hp, h1⟩ := Option.any_eq_true _ _ |>.mp h
  simp only [Bool.and_eq_true, decide_eq_true_eq, Bool.not_eq_true'] at h1
  obtain ⟨⟨⟨h1, h2⟩, h3⟩, h4⟩ := h1
  have m : metaOf 0 = { tag := 0, wseq := 0, keyId := 0, light := false, mac := 0, dstamp := 0, full := false } := by decide
  refine ⟨p.1, p.2, hp, ?_⟩
  simp [Dev.confirm, LineCtx.reads, h1, zeros_decode, h2, m, h3, h4]

theorem test_meets_SensesAndDecodesEnd_bad :
    let d := (W (reading 15 [sense (.pass 2) (.sensed 0 0)] 0)).before 0
    ∃ u c, d.readCtx (read0 15) = some (u, c) ∧ d.confirm c true 0 = .bad := by
  intro d
  have h : (d.readCtx (read0 15)).any (fun p => decide (p.2.prof = .strong) && decide (mkTag p.2.lz p.2.s p.2.role ≠ 0))
      = true := by decide +kernel
  obtain ⟨p, hp, h1⟩ := Option.any_eq_true _ _ |>.mp h
  simp only [Bool.and_eq_true, decide_eq_true_eq] at h1
  have m : (metaOf 0).tag = 0 := by decide
  refine ⟨p.1, p.2, hp, ?_⟩
  simp [Dev.confirm, LineCtx.reads, h1.1, zeros_decode, m, Ne.symm h1.2]

/-- As in test_meets_RekeyMovesByStripes_mac, for a read of that line. -/
def macReading (b : Bool) : Dev :=
  { macDev b with lane := (reading 0 [sense (.pass 2) (.sensed (macImage b) 0)] 0).lane }

theorem macReading_facts : ∀ b, let d := (W (macReading b)).before 0
    d.readTx 9 = some (read0 0) ∧ d.senseOf 1 1 = some (sense (.pass 2) (.sensed (macImage b) 0)) ∧
    (d.readCtx (read0 0)).any (fun p =>
      decide (p.2.prof = .light ∧ mkTag p.2.lz p.2.s p.2.role = 0 ∧ keyMatches p.2.key 5 = true ∧ p.2.mac = true ∧
        d.keyUsable 5 = true)) = true := by decide +kernel

theorem test_meets_SensesAndDecodesEnd_mac : ∃ b, let d := (W (macReading b)).before 0
    d.readTx 9 = some (read0 0) ∧ d.senseOf 1 1 = some (sense (.pass 2) (.sensed (macImage b) 0)) ∧
    ∃ u c, d.readCtx (read0 0) = some (u, c) ∧ d.confirm c true (macImage b) = .macFail := by
  have key : ∀ b (n : Nat), decodeSensed .light (macImage b) = some (0, macMeta n, 0) →
      (∀ p, ((W (macReading b)).before 0).readCtx (read0 0) = some p →
        ((W (macReading b)).before 0).lineMac 5 p.2.region p.2.idx 0 ≠ n) →
      let d := (W (macReading b)).before 0
      d.readTx 9 = some (read0 0) ∧ d.senseOf 1 1 = some (sense (.pass 2) (.sensed (macImage b) 0)) ∧
      ∃ u c, d.readCtx (read0 0) = some (u, c) ∧ d.confirm c true (macImage b) = .macFail := by
    intro b n hd hn d
    obtain ⟨f1, f2, f5⟩ := macReading_facts b
    obtain ⟨p, hp, h⟩ := Option.any_eq_true _ _ |>.mp f5
    simp only [decide_eq_true_eq] at h
    obtain ⟨g1, g2, g3, g4, g5⟩ := h
    exact ⟨f1, f2, p.1, p.2, hp, confirm_macFails d p.2 _ (macMeta n) (by rw [g1]; exact hd) (by rw [g1]; rfl)
      (by rw [g2]; rfl) g3 g4 g5 (by simp [macMeta]) (hn p hp)⟩
  by_cases h : ∀ p, ((W (macReading false)).before 0).readCtx (read0 0) = some p →
      ((W (macReading false)).before 0).lineMac 5 p.2.region p.2.idx 0 ≠ 0
  · exact ⟨false, key false 0 macImage_decodes0 h⟩
  · refine ⟨true, key true 1 macImage_decodes1 ?_⟩
    simp only [not_forall, not_not] at h
    obtain ⟨p, hp, he⟩ := h
    intro q hq
    have e1 : ((W (macReading true)).before 0).readCtx (read0 0) = ((W (macReading false)).before 0).readCtx (read0 0) := by
      decide +kernel
    have e2 : p = q := by rw [e1, hp] at hq; exact Option.some.inj hq
    subst e2
    have e3 : ∀ r i, ((W (macReading true)).before 0).lineMac 5 r i 0 =
        ((W (macReading false)).before 0).lineMac 5 r i 0 := by
      intro r i
      have : ((W (macReading true)).before 0).keyPart 5 2 = ((W (macReading false)).before 0).keyPart 5 2 := by
        decide +kernel
      simp only [Dev.lineMac, this]
    rw [e3, he]; decide

def detector : Detector := { region := 1, last := 3, hits := 2, next := 4 }

theorem test_meets_ReadPathTimersRun :
    (let d := (W live).before 2500
     d.life.running = true ∧ d.now % 2500 = 0) ∧
    (let d := (W (reading 0 [] 0)).before 2415
     d.lane.reads.find? (fun x => x.waiters.any (isHost .a 3 d.now)) = some (read0 0)) ∧
    (let y := sense (.pass 1) (.sensed 0 0)
     let d := (W (reading 0 [y] 0)).before 65
     d.senseOf 1 1 = some y ∧ y.state = .sensed 0 0 ∧ 0 + 64 ≤ d.now ∧ d.readTx y.read = some (read0 0)) ∧
    (let d := (W { mapped with cache := { live.cache with detectA := vset live.cache.detectA 2 (some detector) } }).before 0
     d.serving .a = true ∧ vget none (d.detectors .a) 2 = some detector ∧ d.region detector.region = some reg ∧
     2 ≤ detector.hits ∧ detector.next ≤ detector.last + d.cache.pfDepth.toNat ∧ detector.next < reg.lines ∧
     d.laneOpen reg detector.region detector.next = true) ∧
    (let d := (W live).before 10000000
     (d.lane1 0).trained = true ∧ (d.lane1 0).queue = [] ∧ (d.lane1 0).strobeAt + 10 * msNs ≤ d.now) ∧
    (let d := (W { live with zt := { live.zt with lost := [5] } }).before 0
     d.ready = true ∧ d.mediaUp = true ∧ d.zt.lost.contains 5 = true) := by decide +kernel

def dirtyWay : Way := { way with dirty := 1, selected := some 0 }

/-- Line 0 of region 1 waits in the Bench, over a mapped zone or one not yet bound. -/
def waiting (d : Dev) (e : Entry) : Dev := { d with bench := { live.bench with entries := [e], nextId := 9 } }

def sysEntry : Entry := { benchEntry with kind := .system [.intent 9000 1], key := .sys .intent 0 }

theorem test_meets_WriteBackMovesLinesOut :
    (let d := (W (withWay dirtyWay)).before 100000000
     d.life.running = true ∧ d.region 1 = some reg ∧ d.findWay reg 1 0 = some (setOf reg 0 * 16, dirtyWay) ∧
     dirtyWay.dirty ≠ 0 ∧ d.cache.ageLimit ≠ 0 ∧ dirtyWay.dirtyAt + d.cache.ageLimit.toNat * 10 * msNs ≤ d.now ∧
     d.stagingFree = true ∧ d.cache.nextSelected = some (setOf reg 0 * 16)) ∧
    (let d := (W (waiting mapped sysEntry)).before 0
     d.bench.entry 3 = some sysEntry ∧ sysEntry.state = .staged ∧ sysEntry.kind = .system [.intent 9000 1] ∧
     d.lineFills sysEntry.key = false ∧ d.stagingUsed < 8192 ∧ d.journalFree sysEntry.key = true) ∧
    (let e := { sysEntry with key := .sys .journal (mapped.jPlace / 8) }
     let d := (W (waiting mapped e)).before 0
     d.bench.entry 3 = some e ∧ d.lineFills e.key = true ∧ d.journalFree e.key = true) ∧
    (∀ b : Bool, let d := (W (waiting (if b then mapped else live) benchEntry)).before 0
     d.bench.entry 3 = some benchEntry ∧ benchEntry.state = .staged ∧ benchEntry.kind = .victim ∧
     benchEntry.key = .user 1 0 ∧ d.region 1 = some reg ∧
     (d.lineStripe 1 reg 0).any (fun p => decide (tget [] d.zt.flips p.1.lz = []) && !d.zt.lost.contains p.1.lz &&
       (if b then zMapped p.1.e && d.issueOk p.1 p.2 && !d.heapHeld p.1 benchEntry else !zMapped p.1.e)) = true) := by
  decide +kernel

/-- A program of line 0; of the parity line of its stripe, for a merge. -/
def prog0 (role : ProgRole) (pla : Pla) : Prog :=
  { id := 4, update := 2, spec := { pla := pla, role := role, image := 0, noise := 0 }, attempt := 1, remapped := false,
    startAt := 0, susp := 0, suspAt := none, longDone := false }

def update0 : Update :=
  { id := 2, lzone := 0, lstripe := 0, full := false, entries := [3], wait := [], next := [], late := [], zeros := [] }

def programming (p : Prog) : Dev :=
  { mapped with bench := { live.bench with entries := [{ benchEntry with state := .issued }], updates := [update0],
                                           progs := [p], nextId := 9 } }

def parityPla : Pla := (((mapped.stripe 0 0).bind (fun u => u.check.head?)).map LineCtx.pla).getD 0

theorem test_meets_ProgramsEndVerified :
    (let p := prog0 .data pla0
     let d := (W (programming p)).before 260
     d.life.running = true ∧ d.bench.progs.find? (fun p => p.id == 4) = some p ∧ p.suspAt = none ∧
     p.startAt + 260 ≤ d.now) ∧
    (let p := prog0 .merge parityPla
     let d := (W (programming p)).before 0
     p.spec.role = .merge ∧ d.bench.update p.update = some update0 ∧
     (d.stripe update0.lzone update0.lstripe).any (fun st => (st.check.find? (fun c => c.pla == p.spec.pla)).isSome)
       = true) ∧
    (let p := { prog0 .data pla0 with susp := 60000 }
     let d := (W (programming p)).before 0
     p.longDone = false ∧ 50 * usNs < suspNow d.now p) := by decide +kernel

/-- Logical zone 0 has had 64 updates, and its 16 lanes are all out (so that no cell is read). -/
def gapDev : Dev :=
  { mapped with
    zt := { mapped.zt with updates := [(0, 64)] }
    lane := { live.lane with lanes := Vector.replicate 16 { live.lane1 0 with lstate := .detour } } }

def move0 : MoveReq := { lzone := 0, reason := .refresh, reseq := false }

/-- A move of logical zone 0 that has copied n stripes. -/
def run0 (n : Nat) (switched : Bool) : MoveRun :=
  { lzone := 0, reason := .refresh, reseq := false, source := 9000, target := 9001, stamp := 0, profile := .strong,
    next := n, marks := [], copies := n, last := false, switched := switched }

def moving (m : MoveRun) : Dev := { gapDev with zt := { gapDev.zt with runs := [m] } }

theorem test_meets_BackgroundWorkRuns_gap :
    let d1 := ((W gapDev).before 0).checkZte 0
    let e := d1.zte 0
    d1.gapDue 0 = true ∧ d1.clearFirst = false ∧ d1.stripeBusy 0 (stripeAt e (gapSource e)) = false ∧ d1.tilesFree (zPz e) = true ∧
    (d1.stripe 0 (stripeAt e (gapSource e))).any (fun u => d1.copyRoom noAnswers u) = true := by
  decide +kernel

theorem test_meets_BackgroundWorkRuns_move :
    (let d := (W (moving (run0 4096 true))).before 0
     d.background = true ∧ d.clearFirst = false ∧
     d.zt.runs.find? (fun m => m.lzone == 0 && m.switched) = some (run0 4096 true)) ∧
    (let d := (W (moving (run0 0 false))).before 0
     let d1 := d.checkZte 0
     d.clearFirst = false ∧ d.zt.runs.find? (fun m => m.lzone == 0 && m.switched) = none ∧
     d1.zt.lost.contains 0 = false ∧ d1.runOf 0 = some (run0 0 false)) ∧
    (let d := (W { mapped with zt := { mapped.zt with moves := [move0] } }).before 0
     let d1 := d.checkZte 0
     d.background = true ∧ d.clearFirst = false ∧ d1.zt.lost.contains 0 = false ∧
     d.zt.runs.find? (fun m => m.lzone == 0 && m.switched) = none ∧ d1.runOf 0 = none ∧
     d1.movePick 0 = some move0 ∧ d1.journalOk = true ∧
     (d1.stripe 0 0).any (fun u => zMapped u.e && decide (zState u.e = 1)) = true ∧
     (d1.moveTarget move0).isSome = true) ∧
    (let d := moving (run0 0 false)
     d.runOf 0 = some (run0 0 false) ∧ (run0 0 false).todo = some 0 ∧ d.stripeBusy 0 0 = false ∧
     d.tilesFree 9001 = true ∧
     (d.stripe 0 0).any (fun u => d.copyRoom noAnswers u && (d.moveCopy (run0 0 false) u noAnswers).2) = true) ∧
    (let d := moving (run0 4096 false)
     d.runOf 0 = some (run0 4096 false) ∧ (run0 4096 false).todo = none ∧ d.journalOk = true ∧
     (d.stripe 0 0).isSome = true) := by decide +kernel

theorem test_meets_BackgroundWorkRuns :
    (let d := (W mapped).before 0
     d.zt.resetDue.contains 9100 = false ∧ d.zt.runs = [] ∧ d.pstate 9100 = psDirty ∧ d.zoneUsable 9100 = true ∧
     d.journalTakes .pclrDone = true ∧
     d.life.running = true ∧ d.ready = true ∧ d.mediaUp = true ∧ d.background = true ∧ d.ckptDue = true ∧
     d.ckptTiles = true) ∧
    (let d := (W { mapped with zt := { mapped.zt with binds := [1], reserve := [9001] } }).before 0
     d.life.running = true ∧ d.zt.binds.contains 1 = true ∧ tget [] d.zt.flips 1 = [] ∧ d.zt.lost.contains 1 = false ∧
     (d.zoneOwner 1).isSome = true ∧ d.reserveZone = some 9001 ∧ zMapped (d.zte 1) = false ∧ d.journalOk = true ∧
     d.tokensHeld 0 < d.benchLimit 0 ∧ d.tokensHeld 1 < d.benchLimit 1) ∧
    (let d := (W { mapped with
       sys := { mapped.sys with intent := [(9001, 1)] }, zt := { mapped.zt with lastUpdate := [] } }).before 1000000000
     d.ready = true ∧ d.bench.draining = false ∧ d.intent 9001 ≠ 0 ∧ d.boundTo 9001 = none ∧
     tget 0 d.zt.lastUpdate 9001 + secNs ≤ d.now) := by decide +kernel

/-- LANE_CTRL with GO: an operation on a lane. -/
def ctrl (op lane : Nat) : BitVec 32 := BitVec.ofNat 32 (lane + 0x80 + 256 * op + 1024)

def withCtrl (d : Dev) (v : BitVec 32) : Dev :=
  { d with lane := { d.lane with
      ctrlLane := BitVec.ofNat 4 v.toNat, ctrlDie := BitVec.ofNat 3 (v.toNat / 16), ctrlScope := v.toNat.testBit 7,
      ctrlOp := BitVec.ofNat 2 (v.toNat / 256) } }

theorem test_meets_LaneControlTakesOutTestsAndReturns :
    (∀ op ∈ [1, 2, 3], ∀ lane ∈ [0, 1], ∀ b : Bool, let d := (W (if b then live else laneOut)).before 0
     let v := ctrl op lane
     d.portOn .sideband = true ∧ v.toNat.testBit 10 = true ∧ (withCtrl d v).scopeOk none = true ∧ fld v.toNat 8 2 = op ∧
     fld v.toNat 0 4 = lane) ∧
    (let d1 := withCtrl ((W live).before 0) (ctrl 1 0)
     d1.scopeState 0 none = .inService ∧ (d1.scopePositions none).any (d1.otherOut 0) = false) ∧
    (let d1 := withCtrl ((W laneOut).before 0) (ctrl 1 0)
     d1.scopeState 0 none = .inService ∧ (d1.scopePositions none).any (d1.otherOut 0) = true) ∧
    (let d1 := withCtrl ((W laneOut).before 0) (ctrl 2 1)
     d1.scopeState 1 none = .detour ∧ (d1.lane1 1).testResult = 1) ∧
    (let d1 := withCtrl ((W { laneOut with lane := { laneOut.lane with
       lanes := vset laneOut.lane.lanes 1 { laneOut.lane1 1 with testResult := 3 } } }).before 0) (ctrl 3 1)
     d1.scopeState 1 none = .detour ∧ (d1.lane1 1).testResult = 3) ∧
    (let d1 := withCtrl ((W { laneOut with lane := { laneOut.lane with
       lanes := vset laneOut.lane.lanes 1 { laneOut.lane1 1 with lstate := .dead } } }).before 0) (ctrl 2 1)
     d1.scopeState 1 none = .dead ∧ d1.life.tests = []) := by decide +kernel

def aTest : TestRun := { lane := 1, die := none, cmd := none, wasDead := false }

/-- Lane 1 is being restored, from a cursor on. -/
def restoring (c : Nat) : Dev :=
  { mapped with lane := { live.lane with
      lanes := vset live.lane.lanes 1 { live.lane1 1 with lstate := .restoring, cursor := c } } }

theorem test_meets_LaneControlTakesOutTestsAndReturns_ends :
    (let d := (W { laneOut with life := { live.life with tests := [aTest] } }).before 0
     d.life.running = true ∧ d.life.tests.find? (fun r => r.lane == 1) = some aTest) ∧
    (let d := (W (restoring 9000)).before 0
     d.background = true ∧ d.restoreOn 1 = true ∧ d.restoreNext 1 = some 9000 ∧ d.journalOk = true ∧
     d.zoneQuiet 9000 = true ∧ d.tilesFree 9000 = true) ∧
    (let d := (W (restoring (2 ^ 21))).before 0
     d.background = true ∧ d.restoreOn 1 = true ∧ d.restoreNext 1 = none) := by decide +kernel

def maintDev (region : BitVec 10) (m : Option MaintOp) : Dev :=
  { live with cache := { live.cache with mRegion := region, maint := m, work := if m.isSome then [.register] else [] } }

def aMaint : MaintOp := { op := 3, region := 1, first := 0, count := 16 }

theorem test_meets_CacheMaintenanceAndScratch :
    (∀ op ∈ [1, 2, 3], let v : BitVec 32 := BitVec.ofNat 32 (op + 4)
     let d1 (d : Dev) : Dev := { d with cache := { d.cache with mOp := BitVec.ofNat 2 v.toNat } }
     let da := (W (maintDev 1 none)).before 0
     let db := (W (maintDev 9 none)).before 0
     let dc := (W (maintDev 1 (some aMaint))).before 0
     da.portOn (.head .a) = true ∧ v.toNat.testBit 2 = true ∧ fld v.toNat 0 2 = op ∧
     (d1 da).maintBusy = false ∧ ((d1 da).maintOp op).isSome ∧ (d1 db).maintBusy = false ∧ (d1 db).maintOp op = none ∧
     (d1 dc).maintBusy = true) ∧
    (let d := (W (maintDev 1 (some aMaint))).before 0
     d.life.running = true ∧ d.bench.draining = false ∧ d.cache.maint = some aMaint ∧ d.maintClean aMaint = true ∧
     d.working .register = true) ∧
    (let d := (W live).before 0
     d.portOn .sideband = true ∧ d.maintBusy = false ∧ fld (2 : BitVec 32).toNat 0 2 ≠ d.cache.steps.toNat) ∧
    ((W (maintDev 1 (some aMaint))).before 0).maintBusy = true ∧
    (let d := (W { live with cache := { live.cache with conv := some { target := 2 }, work := [.conversion] } }).before 0
     d.working .conversion = true ∧ d.life.running = true ∧ d.bench.draining = false ∧ d.cache.conv = some { target := 2 } ∧
     ¬ (d.cache.steps.toNat < 2 ∧ d.convBusy d.cache.steps.toNat 2 = true)) := by decide +kernel

def onStream (x : Stream) : Dev := { live with dma := { live.dma with streams := vset live.dma.streams 50 x } }
def onChan (x : Chan) : Dev := { live with dma := { live.dma with chans := vset live.dma.chans 20 x } }

theorem test_meets_StreamCommandsMoveItsPointers :
    (let d := (W live).before 0
     d.headOn .a = true ∧ 48 ≤ (50 : Fin 64).val ∧ (d.stream 50).mode = false) ∧
    (let d := (W (onStream { Reset.stream with en := true, mode := true, pending := true })).before 0
     (d.stream 50).mode = true ∧ (d.stream 50).atEnd = true ∧ d.life.running = true ∧ (d.stream 50).pending = true) ∧
    (let d := (W (onStream { Reset.stream with en := true, mode := true, write := 8, read := 4 })).before 0
     (d.stream 50).mode = true ∧ (d.stream 50).atEnd = false) ∧
    (47 : Fin 64).val < 48 ∧ (15 : Fin 32).val < 16 := by decide +kernel

def desc0 : DescRun := { stopping := false, bytes := List.replicate 64 0, moved := 0, left := 0, diff := none, srcLive := true }

theorem test_meets_ChannelsRunTheirRings :
    (let d := (W live).before 0
     let x := d.chan 20
     d.headOn .a = true ∧ 16 ≤ (20 : Fin 32).val ∧ (1 : BitVec 32).toNat.testBit 0 = true ∧
     (0 : BitVec 32).toNat.testBit 0 = false ∧ x.state ≠ 1 ∧ fld (5 : BitVec 32).toNat 0 12 < x.depth ∧
     x.depth ≤ fld (64 : BitVec 32).toNat 0 12 ∧ x.state ≠ 2 ∧ x.en = false ∧ fld (0x1F : BitVec 32).toNat 0 12 ≠ 0 ∧
     (∀ r, x.cur = some r → r.left = 0)) ∧
    ((W (onChan { Reset.chan with en := true, state := 1 })).before 0 |>.chan 20).state = 1 ∧
    ((W (onChan { Reset.chan with en := true, state := 1 })).before 0 |>.chan 20).en = true ∧
    (let d := (W (onChan { Reset.chan with en := true, state := 1, tail := 1, cur := some desc0 })).before 0
     let x := d.chan 20
     d.life.running = true ∧ (x.en || x.stopping) = true ∧ x.state ≠ 2 ∧ d.bench.draining = false ∧ d.life.shutting = none ∧
     tokened d [12 + 20] = true ∧ x.cur = some desc0) ∧
    (let r := { desc0 with left := 64 }
     let d := (W (onChan { Reset.chan with en := true, state := 1, tail := 1, cur := some r })).before 0
     (d.chan 20).state = 1 ∧ (d.chan 20).cur = some r ∧ 0 < r.left) ∧
    (let d := (W (onChan { Reset.chan with en := true, state := 1, tail := 1 })).before 0
     let x := d.chan 20
     x.en = true ∧ x.cur = none ∧ x.ringHead ≠ x.tail ∧ tokened d [12 + 20] = true) := by decide +kernel

/-- Source 5 in a state of its coalescing. -/
def srcIn (st : CoalState) (count wcount : Nat) : SrcSt := { srcQuiet with state := st, count := count, wcount := wcount }
def evSrc (x : SrcSt) : EventBlock := { live.ev with sources := [(5, x)] }

def aTrace : Trace :=
  { tag := 7, kind := 0, head := .a, start := 0, who := 0, stages := [0, 0, 0, 0], poison := false, path := 0 }

/-- Records lost, and 385 that wait: time writes 257 of them. -/
def losing : EventBlock :=
  { live.ev with lostPending := true, intake := List.replicate 385 (mkRec 5 2 0 false 0 0 1 0), nextLogAt := 0 }

theorem test_meets_EventWindowsEnd_lost :
    (let d := (W { live with ev := losing }).before 5140
     d.life.running = true ∧ d.ev.lostPending = true ∧ d.ev.intake.length ≤ 128 ∧ d.ev.nextLogAt ≤ d.now) ∧
    ((W live).before 0).ev.lostPending = false ∧
    128 < ((W { live with ev := losing }).before 0).ev.intake.length ∧
    (let d := (W { live with ev := { live.ev with nextLogAt := 1 } }).before 0
     d.now < d.ev.nextLogAt) ∧
    (let e := { losing with intake := List.replicate 128 (mkRec 5 2 0 false 0 0 1 0) }
     e.lostPending = true ∧ e.intake.length ≤ 128 ∧ e.nextLogAt ≤ 0) := by decide +kernel

theorem test_meets_EventWindowsEnd :
    (let d := (W { live with ev := evSrc (srcIn .coalescing 1 1) }).before 0
     d.life.running = true ∧ (d.ev.src 5).state ≠ .quiet ∧ (d.ev.src 5).windowEnd ≤ d.now) ∧
    ((W live).before 0).portOn .sideband = true ∧
    (let d := (W { live with ev := { live.ev with traces := [aTrace] } }).before 10000000
     d.life.running = true ∧ d.ev.traces.find? (fun x => x.tag == 7) = some aTrace ∧
     aTrace.start + 10 * msNs ≤ d.now) ∧
    ((evSrc (srcIn .coalescing 0 0)).src 5).state = .coalescing ∧ ((evSrc (srcIn .coalescing 0 0)).src 5).count = 0 ∧
    ((evSrc (srcIn .coalescing 3 3)).src 5).state = .coalescing ∧ ((evSrc (srcIn .coalescing 3 3)).src 5).count ≠ 0 ∧
    (let e := evSrc (srcIn .storm 9 0)
     (e.src 5).state = .storm ∧ (e.src 5).wcount ≤ e.threshOf 5 / 4) ∧
    (let e := evSrc (srcIn .storm 9 1000000)
     (e.src 5).state = .storm ∧ e.threshOf 5 / 4 < (e.src 5).wcount) := by decide +kernel

def dumping : Dev := { live with ev := { live.ev with dumpEn := true, windowAt := 0 } }

theorem test_meets_DumpsWindowsAndPages :
    (let d := (W dumping).before 1000000
     let v : BitVec 32 := BitVec.ofNat 32 (3 + 3 * 256 + 1000 * 65536)
     d.life.running = true ∧ d.ev.dumpEn = true ∧ d.ev.nextDumpAt ≤ d.now ∧ d.portOn (.head .a) = true ∧
     v.toNat.testBit 0 = true ∧ v.toNat.testBit 1 = true ∧ fld v.toNat 8 8 ≠ 0 ∧ fld v.toNat 16 16 ≠ 0 ∧
     d.ev.windowAt + d.ev.windowUs.toNat * usNs ≤ d.now ∧ fld (1000000 : BitVec 32).toNat 0 20 ≠ 0 ∧
     fld (1000000 : BitVec 32).toNat 0 20 ≤ 1000000 ∧ 1000000 < fld (1000001 : BitVec 32).toNat 0 20) ∧
    (let d := (W live).before 0
     d.headOn .a = true ∧ (5 : BitVec 32).toNat.testBit 10 = false ∧
     d.region (fld (0x401 : BitVec 32).toNat 0 10) = some reg ∧ ownsRegion .a reg = true ∧
     (0x405 : BitVec 32).toNat.testBit 10 = true ∧ d.region (fld (0x405 : BitVec 32).toNat 0 10) = none ∧
     (d.head .a).barSeen.contains (0 * 2 ^ 32 + 0x7F000) = false ∧ (d.head .a).barSeen.length < 256) := by
  decide +kernel

def off : Dev := { Reset.dev with pwr := { Reset.power with vinGood := true } }
def withPwr (f : PowerBlock → PowerBlock) : Dev := { live with pwr := f live.pwr }

/-- Step 1 of a power-up, its rails good, or not good in time. -/
def rising (good : Bool) : Dev :=
  { off with pwr := { off.pwr with
      state := .seqUp, step := 1,
      rails := Vector.replicate 12 { Reset.rail with en := true, pg := good, enAt := 1 } } }

theorem test_meets_PowerComesUpInSteps :
    ((W off).before 0).pwr.vaux = true ∧ ((W off).before 0).mayPowerUp = true ∧
    (let d := (W (rising true)).before 1000000000
     d.pwr.state = .seqUp ∧ ∀ r ∈ stepRails d.pwr.step, railStable d.aon (d.rail r) = true) ∧
    (let d := (W (rising false)).before 1000000000
     ((upTo 12).filter (fun r => railLate d.aon (d.rail r) && d.inStep r)).isEmpty = false) ∧
    (let d := (W live).before 0
     (d.rail 5).pg ≠ false ∧ d.inStep 5 = false) ∧
    (∀ n ∈ [3, 4], let d := (W { rising true with pwr := { (rising true).pwr with
       rails := Vector.replicate 12 { Reset.rail with en := true, pg := true, trans := List.replicate n 0 } } }).before 0
     d.pwr.vaux = true ∧ (d.rail 10).pg ≠ false ∧ d.inStep 10 = true ∧
     ((d.rail 10).trans.filter (fun a => decide (d.aon < a + 2 * msNs)) ++ [d.aon]).length = n + 1) ∧
    (let d := (W (withPwr (fun p => { p with state := .failed }))).before 0
     d.pwr.vaux = true ∧ d.pwr.state = .failed) ∧
    (let d := (W (withPwr (fun p => { p with rails := vset p.rails (phyRail .a) Reset.rail }))).before 2000000000
     d.pwr.state = .on ∧ (d.rail (phyRail .a)).en = false ∧ lget d.pwr.phyTries (headNum .a) < d.pwr.retry.toNat ∧
     lget d.pwr.phyAt (headNum .a) + d.pwr.offMin.toNat * 10 * msNs ≤ d.aon) := by decide +kernel

theorem test_meets_PowerFailuresDrainOrCut :
    (let d := (W live).before 0
     d.pwr.state = .on ∧ d.pwr.vaux = true ∧ (∀ r ∈ [0, 2, 3, 4], (d.rail r).en = true ∧ (d.rail r).enAt = 0)) ∧
    ((W (rising true)).before 0).pwr.state = .seqUp ∧
    ((W (withPwr (fun p => { p with state := .failed }))).before 0).pwr.state = .failed ∧
    ((W (withPwr (fun p => { p with state := .draining }))).before 0).pwr.state = .draining ∧
    ((W (withPwr (fun p => { p with state := .seqDown }))).before 0).pwr.state = .seqDown ∧
    (let d := (W (withPwr (fun p => { p with rails := vset p.rails 2 { Reset.rail with pg := true, enAt := 1 } }))).before
       20000000
     d.pwr.vaux = true ∧ (d.rail 2).en = false ∧ (d.rail 2).enAt ≠ 0 ∧ (d.rail 2).enAt - 1 + 20 * msNs ≤ d.aon) := by decide +kernel

theorem test_meets_MarginsAreSetFromTheSideband :
    (∀ step ∈ [0, 5, 11], let v : BitVec 32 := BitVec.ofNat 32 (11 + 16 * step + 256)
     v.toNat.testBit 8 = true ∧ fld v.toNat 0 4 < 12 ∧ -5 ≤ signed 4 (fld v.toNat 4 4) ∧
     signed 4 (fld v.toNat 4 4) ≤ 5) ∧
    ((W live).before 0).pwr.vaux = true ∧ ((W live).before 0).pwr.state = .on ∧
    ((W live).before 0).bench.draining = false ∧ ((W off).before 0).pwr.vaux = true ∧ ((W off).before 0).pwr.state ≠ .on := by
  decide +kernel

theorem test_meets_BankIsTested :
    (let d := (W live).before 0
     d.pwr.vaux = true ∧ d.pwr.test ≠ .recharging ∧ d.life.running = true ∧ d.portOn (.head .a) = true ∧
     d.pwr.test = .idle) ∧
    (let d := (W (withPwr (fun p => { p with testedAt := some 0 }))).before 86400000000000
     d.life.running = true ∧ d.pwr.test = .idle ∧ d.testDue = true) ∧
    (let d := (W (withPwr (fun p => { p with test := .postponed }))).before 600000000000
     d.pwr.test = .postponed ∧ d.pwr.testAt + 10 * minNs ≤ d.aon) ∧
    (let d := (W (withPwr (fun p => { p with test := .waitCharged, charged := true }))).before 1000000000
     d.pwr.state = .on ∧ d.life.shutting = none ∧ d.pwr.test = .waitCharged ∧ d.pwr.charged = true ∧
     d.pwr.chargedAt + secNs ≤ d.aon) ∧
    (let d := (W { withEntry benchEntry with pwr := { live.pwr with test := .holding, testCap := some 0 } }).before 1000000000
     d.pwr.test = .holding ∧ d.pwr.testCap = some 0 ∧ 0 < d.occupancy + d.reservedLines ∧
     d.pwr.testAt + secNs ≤ d.aon) ∧
    ((W (withPwr (fun p => { p with test := .loaded }))).before 0).pwr.test = .loaded ∧
    testResult 12000000 11900000 11800000 10000000 1000000 20000000 = 1 ∧
    testResult 12000000 11900000 11800000 10000000 800000 20000000 ≠ 1 := by decide +kernel

def withSensors (n : Nat) (tmax rate : Int) : Dev :=
  { live with therm := { live.therm with
      sensors := Vector.ofFn (fun i : Fin 144 => { Reset.sensor with valid := decide (i.val < n) }), tmax := tmax,
      rateMax := rate } }

theorem test_meets_SamplesAdvanceTheDrift :
    ((W live).before 0).life.running = true ∧ ((W off).before 0).pwr.vaux = true ∧
    ((W off).before 0).life.running = false ∧
    (let d := (W live).before 3600000000000
     d.ready = true ∧ d.therm.driftCkAt + hourNs ≤ d.now) ∧
    (let d := (W { live with therm := { live.therm with readyAt := some 0, offCase := 3 } }).before 60000000000
     d.therm.readyAt = some 0 ∧ d.therm.offCase = 3 ∧ 0 + 60 * secNs ≤ d.now) ∧
    (let d := (W live).before 0
     d.pwr.vaux = true ∧ d.therm.tripped = false ∧ d.pwr.state = .on) ∧
    (let d := (W (rising true)).before 0
     d.pwr.vaux = true ∧ d.therm.tripped = false ∧ d.pwr.state = .seqUp) ∧
    ((W { live with therm := { live.therm with tripped := true } }).before 0).therm.tripped = true ∧
    (aonReading (List.replicate 16 (some (degC 40)))).any (fun x => decide (x < degC 105)) = true := by decide +kernel

theorem test_meets_ThrottleFollowsTemperature :
    (((withSensors 7 0 0).therm.sensors.toList.take 16).filter Sensor.valid).length < 8 ∧
    8 ≤ (((withSensors 8 (degC 110) (6 * rateDeg)).therm.sensors.toList.take 16).filter Sensor.valid).length ∧
    (withSensors 8 (degC 110) (6 * rateDeg)).therm.tmax ≤ degC 110 ∧
    (withSensors 8 (degC 110) (6 * rateDeg)).therm.rateMax ≤ 6 * rateDeg ∧
    degC 120 ≤ (withSensors 8 (degC 120) 0).therm.tmax := by decide +kernel

def shutting : Dev := { live with life := { live.life with shutting := some .unlock } }

theorem test_meets_ShutDownsNeedTheSession :
    (let d := (W { live with sec := { live.sec with sessA := 3 } }).before 0
     d.portOn (.head .a) = true ∧ d.portOn .sideband = true ∧ d.pwr.state = .on ∧ d.life.shutting = none ∧
     d.sec.testUnlocked = false ∧ d.mayLife (.head .a) = true ∧ d.mayLife .sideband = true ∧
     d.session (.head .a) 0 = true ∧ d.session (.head .b) 1 = false ∧ d.session (.head .b) 0 = false ∧
     d.portOn (.head .b) = true) ∧
    (let d := (W shutting).before 100000000
     d.life.shutting = some .unlock ∧ d.life.shutAt + 100 * msNs ≤ d.now) ∧
    live.life.testEn = false ∧ live.sec.testUnlocked = false ∧
    ({ live with life := { live.life with testEn := true } } : Dev).life.testEn = true := by decide +kernel

theorem test_meets_PoisonReachesTheCores :
    ((W live).before 0).life.running = true ∧ ((W live).before 0).clusterDown (11 / 4) = false := by decide +kernel

theorem test_meets_RegisterWritesReachTheirRegister :
    (let d := (W live).before 0
     unassigned (.head .a) 0x21000 false = false ∧
     (regAt 0x21000).any (fun r => decide (r.2.1 = 4) && d.canWrite (.head .a) r.1) = true ∧
     unassigned (.head .a) 0x20000 true = false ∧
     (regAt 0x20000).any (fun r => decide (r.2.1 ≠ 4) && d.canWrite (.head .a) r.1) = true ∧
     unassigned (.head .a) 0x7F000 false = true ∧ d.portOn (.head .a) = true ∧ 0x20000 ≤ (0x7F000 : BitVec 20).toNat) ∧
    (let d := (W off).before 0
     (regAt 0x21000).any (fun r => decide (r.2.1 = 4) && !d.canWrite (.head .a) r.1) = true ∧
     (regAt 0x20000).any (fun r => decide (r.2.1 ≠ 4) && !d.canWrite (.head .a) r.1) = true) ∧
    (∀ wide, unassigned (.head .a) 0x7F000 wide = true ∧ unassigned .sideband 0x7F000 wide = true) ∧
    ((W live).before 0).portOn .sideband = true ∧
    (0x1210 : BitVec 20).toNat < 0x20000 ∧ (0x1210 : BitVec 20).toNat % 4 = 0 ∧
    (let x : Hdm := { Reset.hdm with size := 2 ^ 29 }
     x.on = false ∧ (0x210 : Nat).testBit 9 = true ∧ (x.write none none 0x10 0x210).on = true) ∧
    (withPwr (fun p => { p with pwrLock := true })).pwr.pwrLock = true ∧
    (∀ v ∈ [0x8C6432, 0x010100], fld v 0 8 ≤ 50 ∧ 1 ≤ fld v 8 8 ∧ fld v 8 8 ≤ 100 ∧ 1 ≤ fld v 16 8 ∧
      fld v 16 8 ≤ 140) ∧
    50 < fld 0x8D0033 0 8 ∧ fld 0x8D0033 8 8 = 0 ∧ 140 < fld 0x8D0033 16 8 := by decide +kernel

theorem test_meets_LinesDecodeAsTheyWereEncoded :
    let m : Meta := { tag := 5, wseq := 3, keyId := 2, light := true, mac := 9, dstamp := 1, full := true }
    m.tag < 2 ^ 36 ∧ m.wseq < 2 ^ 40 ∧ m.keyId < 2 ^ 7 ∧ m.mac < 2 ^ 56 ∧ m.dstamp < 2 ^ 16 := by decide

theorem test_meets_RecordsReadBackAsWritten :
    (2 ^ 21 - 1 : Nat) < 2 ^ 21 ∧ (4096 : Nat) < 2 ^ 13 ∧ entry77.key < 2 ^ 128 ∧ entry77.loc < 2 ^ 40 ∧
    entry77.len < 2 ^ 32 ∧ entry77.heap < 2 ^ 10 ∧ entry77.k < 2 ^ 5 ∧ entry77.m < 2 ^ 4 ∧ entry77.digest < 2 ^ 3 ∧
    1 ≤ (padHead 64).rtype ∧ (padHead 64).rtype ≤ 3 ∧ (padHead 64).k < 2 ^ 8 ∧ (padHead 64).m < 2 ^ 8 ∧
    (padHead 64).digest < 2 ^ 3 ∧ (padHead 64).len < 2 ^ 32 ∧ (padHead 64).key < 2 ^ 128 ∧
    (padHead 64).index < 2 ^ 10 ∧ (padHead 64).dval < 2 ^ 256 := by decide

/-! ### Ill-formed operands, one for each check -/

def noAns : Answers := noAnswers
def cells649 : List (List CellCode) := [[⟨648, 0⟩]]
def startIn : StartInputs := ⟨0, [], 0xFFFF, List.replicate 16 0xFF, noAns⟩
def farBytes : List HostBytes := [⟨2 ^ 62, [0], false⟩]

theorem test_wf_memrd_off_boundary : Instr.wf (.memrd 0 .a 0 65) = false := by decide
theorem test_wf_memwr_off_boundary : Instr.wf (.memwr 0 .a 0 32 0 false) = false := by decide
theorem test_wf_get_lsa_past_end : Instr.wf (.getLsa 0 .a 131072 1) = false := by decide
theorem test_wf_set_lsa_past_end : Instr.wf (.setLsa 0 .a 131072 [0]) = false := by decide
theorem test_wf_link_width : Instr.wf (.headLinkUp 0 .a 0) = false := by decide
theorem test_wf_link_width_good : Instr.wf (.headLinkUp 0 .a 3) = true := by decide
theorem test_wf_host_bytes : Instr.wf (.fwDownload 0 0 0 farBytes) = false := by decide
theorem test_wf_host_bytes_of_put : Instr.wf (.objPut 0 0 0 farBytes noAns) = false := by decide
theorem test_wf_host_bytes_of_dma : Instr.wf (.dmaDescriptor 0 0 farBytes none noAns) = false := by decide
theorem test_wf_pass_zero : Instr.wf (.objGet 0 0 0 ⟨[⟨0, 0, 0⟩], [], [], []⟩) = false := by decide
theorem test_wf_pass_six : Instr.wf (.collect 0 0 ⟨[⟨0, 6, 0⟩], [], [], []⟩) = false := by decide
theorem test_wf_cells_outside : Instr.wf (.gapMove 0 0 { noAnswers with outside := [⟨0, [cells649]⟩] }) = false := by decide
theorem test_wf_cells_outside_again : Instr.wf (.shutdown 0 .sideband [] { noAnswers with outside := [⟨0, [[], cells649]⟩] }) = false := by decide
theorem test_wf_medians : Instr.wf (.waymarkSenseDone 0 0 0 [1]) = false := by decide
theorem test_wf_move_medians : Instr.wf (.move 0 0 ⟨1, [[1]]⟩ noAns) = false := by decide
theorem test_wf_program_outside : Instr.wf (.programVerifyDone 0 0 cells649 false) = false := by decide
theorem test_wf_program_cell_twice : Instr.wf (.programVerifyDone 0 0 [[⟨5, 0⟩, ⟨5, 1⟩]] false) = false := by decide
theorem test_wf_start_dies : Instr.wf (.pgStable 0 { startIn with dies := [] }) = false := by decide
theorem test_wf_start_media : Instr.wf (.warm 0 .sideband { startIn with media := ⟨[⟨0, 0, 0⟩], [], [], []⟩ }) = false := by decide
theorem test_wf_start_good : Instr.wf (.warm 0 .sideband startIn) = true := by decide
theorem test_wf_temps : Instr.wf (.thermalSample 0 [] noAns) = false := by decide
theorem test_wf_controller_temps : Instr.wf (.aonSample 0 []) = false := by decide
theorem test_wf_register_4 : Instr.wf (.registerWrite 0 .sideband 2 false 0) = false := by decide
theorem test_wf_register_8 : Instr.wf (.registerWrite 0 .sideband 4 true 0) = false := by decide
theorem test_wf_register_4_good : Instr.wf (.registerWrite 0 .sideband 4 false 0) = true := by decide

/-! ### Words: the opcode table gives no row bits, so no word spells a command -/

theorem test_no_word (s : State) (n w : Nat) :
    decodeTableWord n w = none ∧ s.withFetchWord n w = s := ⟨rfl, rfl⟩

/-! ### The spec's worked examples -/

/-- 06, worked example of the Roundabout: START 1,375, GAP 2,210. -/
def zteEx : Nat := mkZte 1112007 1375 2210 0 false 1 false

theorem test_roundabout_example : roundabout zteEx 834 = 2209 ∧ roundabout zteEx 900 = 2276 := by decide

theorem test_gap_move_example :
    gapSource zteEx = 2209 ∧ stripeAt zteEx 2209 = 834 ∧
    gapNext zteEx = mkZte 1112007 1375 2209 0 false 1 false ∧ roundabout (gapNext zteEx) 834 = 2210 := by decide

theorem test_gap_wrap_example :
    let e := mkZte 1112007 1375 0 0 false 1 false
    gapSource e = 4096 ∧ stripeAt e 4096 = 2720 ∧
    gapNext e = mkZte 1112007 1376 4096 0 false 1 false ∧ roundabout (gapNext e) 2720 = 0 := by decide

/-- 09, worked example of an address: HPA 0x2040_5C41_D980 through a two-way decoder. -/
theorem test_hdm_example :
    let x : Hdm := { Reset.hdm with
      on := true, base := 0x200000000000, size := 2 ^ 42, iw := 1, ig := 4, dpa := 0x10000000000 }
    hdmDpa x 0x20405C41D980 = some 0x1202E20E980 := by decide

/-- The same example: zone 49, line 12,521, stripe 834, slot 11, on lane 15; parity on lane 3. -/
theorem test_stripe_example :
    dataPlace .parity 834 304689 11 = ⟨15, .data, 11⟩ ∧ checkPlaces .parity 834 304689 = [⟨3, .parity, 0⟩] ∧
    dataPlace .parity 834 304689 14 = ⟨2, .data, 14⟩ ∧ zoneDie 1112007 = 4 := by decide

/-- 15, worked example of a tweak: line 3,023,081 of region 22. -/
theorem test_tweak_example : tweakOf 22 3023081 = 0x2C0002E20E9 := by decide

/-- 11, worked example of a completion: LOST 1, sequence 0x3A1F, CID 0x42, status 0x204, ATTN 4. -/
theorem test_completion_example :
    let p : QPair := { Reset.qpair with state := .active, sqHead := 23, phase := true }
    let d : Dev := { Reset.dev with
      q := { Reset.queues with pairs := vset Reset.queues.pairs 5 p }
      ev := { Reset.events with
        headSeq := 0x123A1F, toggle := true,
        attnA := { Reset.events.attnA with hold := 0x10 } } }
    d.cplBytes 5 0x42 0x204 1 none =
      [0x01, 0, 0, 0, 0, 0, 0x1F, 0x3A, 0x42, 0, 0x04, 0x92, 0x17, 0, 0x05, 0x80] := by decide +kernel

/-- 12, worked example of an object: 480,000 B at K 10, M 4 take 10,501 units. -/
theorem test_object_units_example : recUnits 480000 10 4 = 10501 ∧ shardLen 480000 10 = 48000 := by decide

/-- 16, worked example of an aged bank. -/
theorem test_bank_example :
    testResult 12000000 11955000 11632000 9000000 1000000 9159000 = 1 ∧
    testEsr 12000000 11955000 1000000 = 45000 ∧ testCapNf 11632000 9000000 1000000 9159000 / 10000 = 309 ∧
    energyOf 3100000 45000 12000 = 137126 ∧ energyOf 3100000 45000 9000 = 19946 := by decide

/-- 17, worked example of a hot spot: TMAX and RATE_MAX give f. -/
theorem test_throttle_example :
    let f := fun t r => factorOf 10 10 144 (t * 8 / 10) (r * 8 * 10 ^ 8)
    200 * f 1130 75 / factorOne = 110 ∧ 140 * f 1130 75 / factorOne = 77 ∧
    200 * f 1080 40 / factorOne = 200 ∧ 140 * f 1096 (-20) / factorOne = 140 ∧ f 1200 0 = 0 := by decide

/-- 02, worked example of ages and references. -/
theorem test_age_example :
    stampOf (eqh 52130) = 3258 ∧ zoneAge (eqh 59740) 3258 = 7600 ∧ dstampOf (eqh 58218) = 29109 ∧
    lineAge (eqh 59740) 7600 29109 = 1523 := by decide

theorem test_reference_example :
    let nu : List Int := defaultNu.map Int.ofNat
    let r := references 7600 nu
    lget r 0 = 39 ∧ lget r 7 = 117 ∧ lget r 14 = 199 ∧ lget (references 1523 nu) 14 = 197 := by decide +kernel

/-- 14, worked example of an event: SUSP_LONG of lane 7 is EV0173. -/
theorem test_event_source_example : evLane 7 5 = 173 := by decide

/-- The check values of CRC-32C and CRC-64/ECMA-182 for the digits 1 to 9. -/
theorem test_crc_check_values :
    let l : List Byte := [0x31, 0x32, 0x33, 0x34, 0x35, 0x36, 0x37, 0x38, 0x39]
    crc32c l = 0xE3069283 ∧ crc64 l = 0x6C40DF5F0B497347 := by decide +kernel

/-! ### Settling -/

theorem test_meets_SettlingLeavesTheWork : Reset.dev.life.running = false := by decide

/-- The settled column of R722 right after VAUX power-on, with SB_ALERT# asserted only in SMBus mode (R718). -/
theorem test_pins_at_power_on :
    (∀ r : Fin 12, Reset.dev.ballLevel (.railEn r) = false) ∧ (∀ l : Fin 16, Reset.dev.ballLevel (.mediaReset l) = false) ∧
    (∀ (l : Fin 16) (p : Fin 8), Reset.dev.ballLevel (.chipSelect l p) = true) ∧
    Reset.dev.ballLevel .pwrFlt = true ∧ Reset.dev.ballLevel .thermtrip = true ∧
    Reset.dev.ballLevel .chgEn = false ∧ Reset.dev.ballLevel .testLoad = false := by decide

theorem test_pins_sb_alert :
    ([false, true].map (fun m => { Reset.dev with life := { Reset.life with smbus := m, ibiLevel := 3 } }.ballLevel
      .sbAlert)) = [true, false] := by decide

end Sys2Proof.Tests
end

section
/-!
PROOF. How a started sense ends, and how the decode of a sensed line ends (03 R92, R100, R108, R110; 07 R278): what each
lane command runs, one equation per case of what it does to the device, and the statement assembled from them.
-/

namespace Sys2Proof.Machine

/-! ### What the lane commands run -/

theorem exec_senseTransferDone (t : Nat) (lane : Fin 16) (id : Nat) (noise : Image) (s : State) :
    exec (.senseTransferDone t lane id noise) s =
      s.afterOn t (fun d => d.onSense lane.val id (fun d y => d.transferDone lane.val y noise)) := rfl

theorem exec_waymarkSenseDone (t : Nat) (lane : Fin 16) (id : Nat) (medians : List (BitVec 8)) (s : State) :
    exec (.waymarkSenseDone t lane id medians) s =
      s.afterOn t (fun d => d.onSense lane.val id (fun d y => d.waymarkDone lane.val y medians)) := rfl

theorem exec_senseTimeout (t : Nat) (lane : Fin 16) (id : Nat) (s : State) :
    exec (.senseTimeout t lane id) s =
      s.afterOn t (fun d => d.onSense lane.val id (fun d y => d.senseTimeout lane.val y)) := rfl

theorem exec_linkCheckReject (t : Nat) (lane : Fin 16) (id : Nat) (s : State) :
    exec (.linkCheckReject t lane id) s =
      s.afterOn t (fun d => d.onSense lane.val id (fun d y => d.linkCheckReject lane.val y)) := rfl

theorem exec_decodeDone (t : Nat) (lane : Fin 16) (id : Nat) (s : State) :
    exec (.decodeDone t lane id) s =
      s.afterOn t (fun d => d.onSense lane.val id (fun d y => d.decodeDone lane.val y)) := rfl

theorem Dev.onSense_of_found {d : Dev} {lane id : Nat} {y : Sense} (run : d.life.running = true)
    (found : d.senseOf lane id = some y) (f : Dev → Sense → Dev) : d.onSense lane id f = f d y := by
  simp only [Dev.onSense, run, found, if_true]

/-- A command for a sense that stands in its lane does its work on that sense. -/
theorem State.afterOn_onSense_eq {s : State} {t lane id : Nat} {y : Sense} (run : (s.before t).life.running = true)
    (found : (s.before t).senseOf lane id = some y) {f : Dev → Sense → Dev} {d : Dev} (h : f (s.before t) y = d) :
    s.afterOn t (fun d => d.onSense lane id f) = .next (s.leave t d.countMissed.goOn) :=
  State.afterOn_eq (by rw [Dev.onSense_of_found run found, h])

theorem Dev.onRead_of_found {d : Dev} {id : Nat} {x : ReadTx} {u : StripeCtx} {c : LineCtx} (hx : d.readTx id = some x)
    (hc : d.readCtx x = some (u, c)) (f : Dev → ReadTx → StripeCtx → LineCtx → Dev) : d.onRead id f = f d x u c := by
  simp only [Dev.onRead, hx, hc]

/-! ### The end of a started sense -/

section

variable {d : Dev} {y : Sense} {since : Nat}

theorem isStarted_of_started (st : y.state = .started since) : isStarted y.state = true := by
  rw [st]; rfl

/-- A line sense that is transferred (R92, R100). -/
theorem Dev.transferDone_of_line (lane : Nat) (st : y.state = .started since) (line : y.kind ≠ .waymark) (noise : Image) :
    d.transferDone lane y noise =
      let img := d.stored y.pla ^^^ noise
      let d1 := ((d.setSense { y with state := .sensed img d.now }).laneBytes lane 324 0).transferEnds lane
      let d2 := match d1.readTx y.read with
        | some x => if y.kind = SenseKind.pass 1 then d1.readStage x.region x.line 3 else d1
        | none => d1
      d2.makeVerge y img := by
  have taken : (isStarted y.state && decide (y.kind ≠ .waymark)) = true := by
    simp only [isStarted_of_started st, line, ne_eq, not_false_eq_true, decide_true, Bool.and_self]
  exact if_pos taken

theorem Dev.waymarkDone_of_waymark (lane : Nat) (st : y.state = .started since) (way : y.kind = .waymark)
    (medians : List (BitVec 8)) : d.waymarkDone lane y medians =
      ((d.laneBytes lane 16 0).transferEnds lane).burst y (medians16 (plaTile y.pla) medians) := by
  have taken : (isStarted y.state && decide (y.kind = .waymark)) = true := by
    simp only [isStarted_of_started st, way, decide_true, Bool.and_self]
  exact if_pos taken

/-- tDIE_TMO has passed since the command and since the lane's last transfer (07 R278). -/
theorem Dev.senseTimeout_of_due {lane : Nat} (st : y.state = .started since)
    (due : max since (d.lane1 lane).linkAt + 260 ≤ d.now) :
    d.senseTimeout lane y = (d.dieTimeout lane (plaDie y.pla)).failIfHeld lane y := by
  simp only [Dev.senseTimeout, st, Dev.due, due, decide_true, if_true]

theorem Dev.linkCheckReject_of_first (lane : Nat) (st : y.state = .started since) (first : y.repeated = false) :
    d.linkCheckReject lane y =
      let d1 := d.transferEnds lane
      (d1.setSense { y with repeated := true, state := .started d1.now }).linkReject lane (plaDie y.pla) := by
  simp only [Dev.linkCheckReject, isStarted_of_started st, first, if_true, Bool.false_eq_true, if_false]

theorem Dev.linkCheckReject_of_repeated (lane : Nat) (st : y.state = .started since) (again : y.repeated = true) :
    d.linkCheckReject lane y = ((d.transferEnds lane).linkReject lane (plaDie y.pla)).failIfHeld lane y := by
  simp only [Dev.linkCheckReject, isStarted_of_started st, again, if_true]

end

/-! ### The decode of a sensed line -/

section

variable {d : Dev} {y : Sense} {img : Image} {since lane : Nat}

/-- Without a decoder, or behind an earlier pass of its line (log entry 34), a sensed line waits. -/
theorem Dev.decodeDone_of_waiting (st : y.state = .sensed img since)
    (waits : d.earlierPass y = true ∨ d.decoding lane y = false) : d.decodeDone lane y = d := by
  have blocked : (d.earlierPass y || !d.decoding lane y) = true := by
    rcases waits with early | noDecoder
    · rw [early, Bool.true_or]
    · rw [noDecoder, Bool.not_false, Bool.or_true]
  simp only [Dev.decodeDone, st, blocked, if_true]

theorem Dev.decodeDone_of_ready (st : y.state = .sensed img since) (turn : d.earlierPass y = false)
    (decoder : d.decoding lane y = true) : d.decodeDone lane y = d.decoded y img := by
  simp only [Dev.decodeDone, st, turn, decoder, Bool.not_true, Bool.or_self, Bool.false_eq_true, if_false]

variable {n : Nat} {x : ReadTx} {u : StripeCtx} {c : LineCtx} (pass : y.kind = .pass n) (later : n ≠ 1)
  (hx : d.readTx y.read = some x) (hc : d.readCtx x = some (u, c))

include pass later hx hc

theorem Dev.decoded_of_good {cells : LineData} {m : Meta} {k : Nat} (v : d.confirm c true img = .good cells m k) :
    d.decoded y img = (d.dequeue y).finishRead x u c (.line cells m (goodImage c cells m) n k) := by
  simp only [Dev.decoded, Dev.onRead_of_found hx hc, pass, v, later, if_false]

omit later in
theorem Dev.decoded_of_macFail (v : d.confirm c true img = .macFail) :
    d.decoded y img = ((d.dequeue y).denyVerge x).finishRead x u c (.poison 3 n) := by
  simp only [Dev.decoded, Dev.onRead_of_found hx hc, pass, v]

theorem Dev.decoded_of_bad (v : d.confirm c true img = .bad) : d.decoded y img = d.senseFails y img := by
  simp only [Dev.decoded, Dev.onRead_of_found hx hc, pass, v, later, false_and, if_false]

end

/-! ### The statement -/

/-- Settles O37: each command of a sense is the work on that sense, and each case of that work has its equation. -/
theorem sensesAndDecodesEnd : Obligations.SensesAndDecodesEnd := by
  unfold Obligations.SensesAndDecodesEnd
  constructor
  · intro s t lane id since y d run found st
    refine ⟨fun noise line => ?_, fun medians way => ?_, fun due => ?_, fun first => ?_, fun again => ?_⟩
    · rw [exec_senseTransferDone]
      exact State.afterOn_onSense_eq run found (Dev.transferDone_of_line lane.val st line noise)
    · rw [exec_waymarkSenseDone]
      exact State.afterOn_onSense_eq run found (Dev.waymarkDone_of_waymark lane.val st way medians)
    · rw [exec_senseTimeout]
      exact State.afterOn_onSense_eq run found (Dev.senseTimeout_of_due st due)
    · rw [exec_linkCheckReject]
      exact State.afterOn_onSense_eq run found (Dev.linkCheckReject_of_first lane.val st first)
    · rw [exec_linkCheckReject]
      exact State.afterOn_onSense_eq run found (Dev.linkCheckReject_of_repeated lane.val st again)
  · intro s t lane id n since y img x u c d run found st
    rw [exec_decodeDone]
    refine ⟨fun waits => ?_, fun turn decoder pass later hx hc => ?_⟩
    · exact State.afterOn_onSense_eq run found (Dev.decodeDone_of_waiting st waits)
    · have ends {d' : Dev} (h : d.decoded y img = d') :
          s.afterOn t (fun d => d.onSense lane.val id (fun d y => d.decodeDone lane.val y)) =
            .next (s.leave t d'.countMissed.goOn) :=
        State.afterOn_onSense_eq run found ((Dev.decodeDone_of_ready st turn decoder).trans h)
      exact ⟨fun _ _ _ good => ends (Dev.decoded_of_good pass later hx hc good),
        fun macFail => ends (Dev.decoded_of_macFail pass hx hc macFail),
        fun bad => ends (Dev.decoded_of_bad pass later hx hc bad)⟩

end Sys2Proof.Machine
end

section
/-!
PROOF. How a command that is executing does its work, and how a WATCH ends, parks or is refused (11 R411, R412) and a
BARRIER reports the counts of its head (10 R374, R375): an equation per case, and the statement assembled from them.
-/

namespace Sys2Proof.Machine

/-! ### A command that performs -/

theorem Dev.command_of_performs {d : Dev} {op : Nat} {qid : BitVec 7} {cid : BitVec 16} {x : Exec}
    (h : d.performs op qid cid x) (f : Dev → Exec → Dev) : d.command op qid cid f = f d x := by
  obtain ⟨executing, running, served, available⟩ := h
  have serves : d.queuesServed = true := by rw [Dev.queuesServed, served, Bool.not_false]
  simp only [Dev.command, executing, running, serves, available, Bool.and_self, if_true, Bool.false_eq_true, if_false]

/-- A command of a queue that performs does its work on the command that executes. -/
theorem State.after_command_eq {s : State} {t op : Nat} {qid : BitVec 7} {cid : BitVec 16} {x : Exec} {d : Dev}
    {f : Dev → Exec → Dev} (h : (s.before t).performs op qid cid x) (work : f (s.before t) x = d) :
    s.after t (fun d => d.command op qid cid f) = .next (s.leave t d) :=
  State.after_eq ((Dev.command_of_performs h f).trans work)

theorem exec_watch (t : Nat) (qid : BitVec 7) (cid : BitVec 16) (s : State) :
    exec (.watch t qid cid) s = s.after t (fun d => d.command 0x05 qid cid Dev.watchCmd) := rfl

theorem exec_watchTimeout (t : Nat) (qid : BitVec 7) (cid : BitVec 16) (s : State) :
    exec (.watchTimeout t qid cid) s = s.after t (fun d => d.command 0x05 qid cid Dev.watchExpire) := rfl

theorem exec_barrier (t : Nat) (qid : BitVec 7) (cid : BitVec 16) (s : State) :
    exec (.barrier t qid cid) s = s.after t (fun d => d.command 0x06 qid cid Dev.barrier) := rfl

/-! ### WATCH -/

section

variable {d : Dev} {x : Exec}

theorem watchResult_of_change (d : Dev) : watchResult d false = 65536 * d.ev.headSeq.toNat := Nat.zero_add _

/-- No count is asked here: a change ends even a ninth WATCH with SUCCESS, the model's choice (log entry 71). -/
theorem Dev.watchCmd_of_changed (new : x.parked = false) (changed : d.watchChanged x = true) :
    d.watchCmd x = d.complete x stSuccess (65536 * d.ev.headSeq.toNat) := by
  simp only [Dev.watchCmd, new, changed, watchResult_of_change, if_true, Bool.false_eq_true, if_false]

theorem Dev.watchCmd_of_room (new : x.parked = false) (still : d.watchChanged x = false)
    (room : d.watches (issuer x) < 8) : d.watchCmd x = d.park x := by
  simp only [Dev.watchCmd, new, still, Nat.not_le.mpr room, Bool.false_eq_true, if_false]

theorem Dev.watchCmd_of_full (new : x.parked = false) (still : d.watchChanged x = false)
    (full : 8 ≤ d.watches (issuer x)) : d.watchCmd x = d.complete x stWatchLimit 0 := by
  simp only [Dev.watchCmd, new, still, full, if_true, Bool.false_eq_true, if_false]

/-- TIMEOUT × 10 ms have passed since the fetch of a parked WATCH. -/
theorem Dev.watchExpire_of_due (parked : x.parked = true) (timed : x.pn 0 16 16 ≠ 0)
    (due : x.fetchAt + x.pn 0 16 16 * 10 * 1000000 ≤ d.now) :
    d.watchExpire x = d.complete x stSuccess (1 + 65536 * d.ev.headSeq.toNat) := by
  have taken : (x.parked && decide (x.pn 0 16 16 ≠ 0) && d.due (x.fetchAt + x.pn 0 16 16 * 10 * msNs)) = true := by
    simp only [parked, timed, ne_eq, not_false_eq_true, Dev.due, msNs, due, decide_true, Bool.and_self]
  exact if_pos taken

end

/-! ### The statement -/

/-- Settles O24: each case of a WATCH has its equation, and a BARRIER's work is the completion that R375 names. -/
theorem watchesAndBarriers : Obligations.WatchesAndBarriers := by
  unfold Obligations.WatchesAndBarriers
  constructor
  · intro s t qid cid x d performs
    rw [exec_watch, exec_watchTimeout]
    exact ⟨fun new changed => State.after_command_eq performs (Dev.watchCmd_of_changed new changed),
      fun new still room => State.after_command_eq performs (Dev.watchCmd_of_room new still room),
      fun new still full => State.after_command_eq performs (Dev.watchCmd_of_full new still full),
      fun parked timed due => State.after_command_eq performs (Dev.watchExpire_of_due parked timed due)⟩
  · intro s t qid cid x d y performs
    rw [exec_barrier]
    exact State.after_command_eq performs rfl

end Sys2Proof.Machine
end

section
/-!
PROOF. MARGIN_CTRL and PWR_CTRL, which the sideband alone reaches (16 R615, R626; 21 R734): what the two commands run,
what a write of MARGIN_CTRL with legal fields and GO runs, an equation per case of GO, and the statement assembled from
them.
-/

namespace Sys2Proof.Machine

/-! ### What the two commands run -/

theorem exec_marginGo (t : Nat) (p : Port) (v : BitVec 32) (s : State) :
    exec (.marginGo t p v) s = s.after t (fun d =>
      if p = .sideband ∧ d.pwr.vaux = true ∧ v.toNat.testBit 8 = true then d.writeMarginCtrl v.toNat else d) := rfl

theorem exec_restart (t : Nat) (p : Port) (s : State) :
    exec (.restart t p) s =
      s.after t (fun d => if p = .sideband ∧ d.pwr.vaux = true then d.restart else d) := rfl

theorem head_ne_sideband (h : Head) : Port.head h ≠ .sideband := Port.noConfusion

/-- A head's write of MARGIN_CTRL is discarded (R615, R734). -/
theorem State.idle_marginGo_head (s : State) (t : Nat) (h : Head) (v : BitVec 32) :
    s.idle (.marginGo t (.head h) v) t := by
  rw [State.idle, exec_marginGo]
  exact State.after_eq (if_neg fun fromSideband => head_ne_sideband h fromSideband.1)

/-- A head's write of PWR_CTRL is discarded (R734). -/
theorem State.idle_restart_head (s : State) (t : Nat) (h : Head) : s.idle (.restart t (.head h)) t := by
  rw [State.idle, exec_restart]
  exact State.after_eq (if_neg fun fromSideband => head_ne_sideband h fromSideband.1)

/-- The sideband's write with GO is the write of the register, while VAUX is there. -/
theorem exec_marginGo_sideband {s : State} {t : Nat} {v : BitVec 32} {d : Dev} (vaux : (s.before t).pwr.vaux = true)
    (go : v.toNat.testBit 8 = true) (work : (s.before t).writeMarginCtrl v.toNat = d) :
    exec (.marginGo t .sideband v) s = .next (s.leave t d) := by
  rw [exec_marginGo]
  exact State.after_eq ((if_pos ⟨rfl, vaux, go⟩).trans work)

/-! ### The fields of a write -/

/-- A field of width w fits in w bits. -/
theorem toNat_ofNat_fld (x lo w : Nat) : (BitVec.ofNat w (fld x lo w)).toNat = fld x lo w := by
  rw [BitVec.toNat_ofNat, fld, Nat.mod_mod]

/-- The device with RAIL and STEP of MARGIN_CTRL as the value written has them. -/
def Dev.takeMargin (d : Dev) (v : Nat) : Dev :=
  { d with pwr := { d.pwr with
    marginRail := BitVec.ofNat 4 (fld v 0 4), marginStep := BitVec.ofNat 4 (fld v 4 4) } }

theorem Dev.takeMargin_rail (d : Dev) (v : Nat) : (d.takeMargin v).pwr.marginRail.toNat = fld v 0 4 :=
  toNat_ofNat_fld v 0 4

theorem Dev.takeMargin_step (d : Dev) (v : Nat) : (d.takeMargin v).pwr.marginStep.toNat = fld v 4 4 :=
  toNat_ofNat_fld v 4 4

/-! ### GO -/

/-- While ON and outside a drain. -/
theorem Dev.marginGo_of_on {d : Dev} (on : d.pwr.state = .on) (still : d.bench.draining = false) :
    d.marginGo =
      let d2 := d.setMargin d.pwr.marginRail.toNat (signed 4 d.pwr.marginStep.toNat)
      { d2 with pwr := { d2.pwr with marginStatus := BitVec.ofNat 12 stSuccess } } :=
  if_pos ⟨on, still⟩

/-- In any other state, and in a drain. -/
theorem Dev.marginGo_of_busy {d : Dev} (busy : d.pwr.state ≠ .on ∨ d.bench.draining = true) :
    d.marginGo = { d with pwr := { d.pwr with marginStatus := BitVec.ofNat 12 stBusyInService } } :=
  if_neg fun ⟨on, still⟩ => busy.elim (· on) (Bool.eq_false_iff.mp still)

/-! ### A write with GO, a rail of the twelve and a STEP from -5 to +5 -/

section

variable {d : Dev} {v : Nat} (go : v.testBit 8 = true) (rail : fld v 0 4 < 12) (low : -5 ≤ signed 4 (fld v 4 4))
  (high : signed 4 (fld v 4 4) ≤ 5)

include go rail low high

/-- Both fields are legal, so both are taken and no reserved value is reported. -/
theorem Dev.writeMarginCtrl_of_legal : d.writeMarginCtrl v = (d.takeMargin v).marginGo := by
  simp only [Dev.writeMarginCtrl, Dev.takeMargin, go, rail, low, high, Nat.not_le.mpr rail, decide_true, Bool.and_self,
    Bool.true_eq_false, or_self, if_true, if_false]

theorem Dev.writeMarginCtrl_of_on (on : d.pwr.state = .on) (still : d.bench.draining = false) :
    d.writeMarginCtrl v =
      let d2 := (d.takeMargin v).setMargin (fld v 0 4) (signed 4 (fld v 4 4))
      { d2 with pwr := { d2.pwr with marginStatus := BitVec.ofNat 12 stSuccess } } := by
  have takenOn : (d.takeMargin v).pwr.state = .on := on
  rw [Dev.writeMarginCtrl_of_legal go rail low high, Dev.marginGo_of_on takenOn still, Dev.takeMargin_rail,
    Dev.takeMargin_step]

theorem Dev.writeMarginCtrl_of_busy (busy : d.pwr.state ≠ .on ∨ d.bench.draining = true) :
    d.writeMarginCtrl v =
      let d1 := d.takeMargin v
      { d1 with pwr := { d1.pwr with marginStatus := BitVec.ofNat 12 stBusyInService } } :=
  (Dev.writeMarginCtrl_of_legal go rail low high).trans (Dev.marginGo_of_busy (d := d.takeMargin v) busy)

end

/-! ### The statement -/

/-- Settles O50: a legal write with GO has its equation in each case of GO, and a head's write does not reach the
work. -/
theorem marginsAreSetFromTheSideband : Obligations.MarginsAreSetFromTheSideband := by
  unfold Obligations.MarginsAreSetFromTheSideband
  intro s t v d rail step d1
  constructor
  · intro vaux go twelve low high
    exact ⟨fun on still => exec_marginGo_sideband vaux go (Dev.writeMarginCtrl_of_on go twelve low high on still),
      fun busy => exec_marginGo_sideband vaux go (Dev.writeMarginCtrl_of_busy go twelve low high busy)⟩
  · exact fun h => ⟨s.idle_marginGo_head t h v, s.idle_restart_head t h⟩

end Sys2Proof.Machine
end

section
/-!
PROOF. The machine around its commands (10 Agents and targets; 01 R24): every command answers the state that a run of its
work leaves, and what a run does to the queue and the clocks.
-/

namespace Sys2Proof.Machine

/-! ### A step -/

theorem step_of_cons {s : State} {c : Instr} {rest : List Instr} (h : s.pending = c :: rest) :
    step s = exec c { s with pending := rest } := by
  simp only [step, h]

theorem step_of_nil {s : State} (h : s.pending = []) : step s = .next s := by
  simp only [step, h]

/-! ### Every command is a run of some work at some instant -/

theorem exec_eq_run (i : Instr) (s : State) : ∃ t f, exec i s = .next (s.run t f) := by
  cases i <;> exact ⟨_, _, rfl⟩

theorem State.run_aon (s : State) (t : Nat) (f : Dev → Dev) : (s.run t f).clock.aon = (s.run t f).dev.aon := rfl

/-- A command that brings no device reset leaves the counter where its instant put it (R24). -/
theorem State.run_now_of_running_on {s : State} {t : Nat} {f : Dev → Dev}
    (h : (f (s.before t)).life.resets = (s.before t).life.resets) : (s.run t f).clock.now = s.instant t := by
  simp only [State.run, Dev.settle_resets, h, if_true, State.before_now]

/-- A device reset restarts the counter, at a multiple of 5 ns too. -/
theorem State.run_now_of_reset {s : State} {t : Nat} {f : Dev → Dev}
    (h : (f (s.before t)).life.resets ≠ (s.before t).life.resets) :
    (s.run t f).clock.now = (f (s.before t)).now / 5 * 5 := by
  simp only [State.run, Dev.settle_resets, h, if_false, Dev.settle_now]

theorem State.run_ticks {s : State} (h : s.clock.now % 5 = 0) (t : Nat) (f : Dev → Dev) :
    (s.run t f).clock.now % 5 = 0 := by
  by_cases e : (f (s.before t)).life.resets = (s.before t).life.resets
  · rw [State.run_now_of_running_on e]
    exact s.instant_ticks t h
  · rw [State.run_now_of_reset e]
    exact Nat.mul_mod_left _ 5

/-! ### The statements -/

/-- Settles O1: the two cases of a step. -/
theorem stepServesTheQueue : Obligations.StepServesTheQueue :=
  ⟨fun _ _ _ h => step_of_cons h, fun _ h => step_of_nil h⟩

/-- Settles O2: a command answers what a run of its work leaves. -/
theorem everyCommandAnswersNext : Obligations.EveryCommandAnswersNext := by
  intro i s
  obtain ⟨t, f, h⟩ := exec_eq_run i s
  exact ⟨s.run t f, h, s.run_pending t f, s.run_aon t f⟩

/-- Settles O3: an idle step changes nothing, and a command's run keeps the clocks and the queue that the step gave it. -/
theorem everyStepKeepsTheClocks : Obligations.EveryStepKeepsTheClocks := by
  intro s s' clocked answers
  cases front : s.pending with
  | nil =>
    rw [step_of_nil front] at answers
    cases answers
    exact ⟨clocked, by rw [State.servesFront, front, List.tail_nil]⟩
  | cons c rest =>
    obtain ⟨t, f, h⟩ := exec_eq_run c { s with pending := rest }
    rw [step_of_cons front, h] at answers
    cases answers
    exact ⟨⟨State.run_ticks clocked.1 t f, (State.run_aon _ t f).symm⟩,
      by rw [State.servesFront, front, State.run_pending, List.tail_cons]⟩

end Sys2Proof.Machine
end

section
/-!
PROOF. Bit fields and codes (02 R53 to R60; 06 R215; 12 R428, R435): fields of a concatenation and of a packed word, the
remainder by a generator polynomial, and what a line, a ZT entry, an index entry and a record header read back.
-/

namespace Sys2Proof.Machine

/-! ### Fields of a concatenation -/

theorem fld_eq_div (x lo w : Nat) : fld x lo w = x / 2 ^ lo % 2 ^ w := by
  rw [fld, Nat.shiftRight_eq_div_pow]

theorem fld_zero_of_lt {x w : Nat} (h : x < 2 ^ w) : fld x 0 w = x := by
  rw [fld_eq_div, pow_zero, Nat.div_one, Nat.mod_eq_of_lt h]

/-- A field that lies in the lower part. -/
theorem fld_cat_low (a b : Nat) {n lo w : Nat} (h : lo + w ≤ n) : fld (a + b * 2 ^ n) lo w = fld a lo w := by
  obtain ⟨k, rfl⟩ := Nat.exists_eq_add_of_le h
  have split : b * 2 ^ (lo + w + k) = 2 ^ lo * (2 ^ w * (b * 2 ^ k)) := by ring
  rw [fld_eq_div, fld_eq_div, split, Nat.add_mul_div_left _ _ (Nat.two_pow_pos lo), Nat.add_mul_mod_self_left]

/-- A field from the start of the lower part. -/
theorem fld_cat_start (a b : Nat) {n w : Nat} (h : w ≤ n) : fld (a + b * 2 ^ n) 0 w = fld a 0 w :=
  fld_cat_low a b ((Nat.zero_add w).symm ▸ h)

/-- The whole lower part. -/
theorem fld_cat_whole {a n : Nat} (ha : a < 2 ^ n) (b : Nat) : fld (a + b * 2 ^ n) 0 n = a := by
  rw [fld_cat_start a b (le_refl n), fld_zero_of_lt ha]

/-- A field that lies in the upper part. -/
theorem fld_cat_high {a n : Nat} (b : Nat) (ha : a < 2 ^ n) {lo : Nat} (h : n ≤ lo) (w : Nat) :
    fld (a + b * 2 ^ n) lo w = fld b (lo - n) w := by
  obtain ⟨k, rfl⟩ := Nat.exists_eq_add_of_le h
  rw [fld_eq_div, fld_eq_div, Nat.pow_add, ← Nat.div_div_eq_div_mul, Nat.add_mul_div_right _ _ (Nat.two_pow_pos n),
    Nat.div_eq_of_lt ha, Nat.zero_add, Nat.add_sub_cancel_left]

/-- The size of a concatenation. -/
theorem cat_lt {a b n m k : Nat} (ha : a < 2 ^ n) (hb : b < 2 ^ m) (h : n + m = k) : a + b * 2 ^ n < 2 ^ k := by
  subst h
  have high : (b + 1) * 2 ^ n ≤ 2 ^ m * 2 ^ n := Nat.mul_le_mul_right _ hb
  rw [Nat.pow_add, Nat.mul_comm (2 ^ n)]
  rw [Nat.add_mul, Nat.one_mul] at high
  omega

theorem mul_two_pow_lt {m n : Nat} (h : m < 2 ^ n) (c : Nat) : m * 2 ^ c < 2 ^ (n + c) := by
  rw [Nat.pow_add]
  exact Nat.mul_lt_mul_of_pos_right h (Nat.two_pow_pos c)

/-- Three parts, the upper two taken together. -/
theorem cat_cat (a b x n m : Nat) : a + b * 2 ^ n + x * 2 ^ (n + m) = a + (b + x * 2 ^ m) * 2 ^ n := by
  ring

theorem testBit_eq_fld (x i : Nat) : x.testBit i = decide (fld x i 1 = 1) := by
  rw [fld_eq_div, Nat.pow_one, Nat.testBit_eq_decide_div_mod_eq]

/-! ### Packed fields -/

theorem pack_cons (w v : Nat) (l : List (Nat × Nat)) : pack ((w, v) :: l) = v % 2 ^ w + pack l * 2 ^ w := by
  rw [pack, Nat.mul_comm]

theorem pack_lt (l : List (Nat × Nat)) : pack l < 2 ^ (l.map Prod.fst).sum := by
  induction l with
  | nil => exact Nat.one_pos
  | cons p l ih =>
    obtain ⟨w, v⟩ := p
    rw [pack_cons, List.map_cons, List.sum_cons]
    exact cat_lt (Nat.mod_lt _ (Nat.two_pow_pos w)) ih rfl

theorem pack_lt_of {l : List (Nat × Nat)} {n : Nat} (h : (l.map Prod.fst).sum = n) : pack l < 2 ^ n := h ▸ pack_lt l

/-- A field read from the start of the first one packed. -/
theorem fld_pack_first {w k : Nat} (v : Nat) (l : List (Nat × Nat)) (h : k ≤ w) :
    fld (pack ((w, v) :: l)) 0 k = v % 2 ^ k := by
  rw [pack_cons, fld_cat_low _ _ (by omega), fld_eq_div, pow_zero, Nat.div_one,
    Nat.mod_mod_of_dvd _ (Nat.pow_dvd_pow 2 h)]

/-- A field behind the first one packed. -/
theorem fld_pack_next {w lo : Nat} (v : Nat) (l : List (Nat × Nat)) (k : Nat) (h : w ≤ lo) :
    fld (pack ((w, v) :: l)) lo k = fld (pack l) (lo - w) k := by
  rw [pack_cons, fld_cat_high _ (Nat.mod_lt _ (Nat.two_pow_pos w)) h]

theorem bool01_mod_two (b : Bool) : bool01 b % 2 = bool01 b := by cases b <;> rfl

theorem decide_bool01_eq_one (b : Bool) : decide (bool01 b = 1) = b := by cases b <;> rfl

/-! ### Little-endian bytes -/

/-- The bytes of the lower part alone. -/
theorem leBytes_cat_low (k a b : Nat) : leBytes k (a + b * 2 ^ (8 * k)) = leBytes k a := by
  induction k generalizing a with
  | zero => rfl
  | succ k ih =>
    have split : b * 2 ^ (8 * (k + 1)) = 256 * (b * 2 ^ (8 * k)) := by ring
    rw [leBytes, leBytes, split, Nat.add_mul_div_left _ _ (by omega), ih]
    congr 1
    rw [← BitVec.toNat_inj, BitVec.toNat_ofNat, BitVec.toNat_ofNat, Nat.add_mul_mod_self_left]

/-! ### The CRC of 32 bits -/

theorem crc32cBits_lt (n : Nat) {c : Nat} (h : c < 2 ^ 32) : crc32cBits n c < 2 ^ 32 := by
  induction n generalizing c with
  | zero => exact h
  | succ n ih =>
    have half : c / 2 < 2 ^ 32 := by omega
    rw [crc32cBits]
    split
    · exact ih (Nat.xor_lt_two_pow half (by omega))
    · exact ih half

theorem crc32c_lt (l : List Byte) : crc32c l < 2 ^ 32 := by
  have steps : ∀ c, c < 2 ^ 32 → l.foldl crc32cStep c < 2 ^ 32 := by
    induction l with
    | nil => exact fun _ h => h
    | cons b l ih =>
      have wide : b.toNat < 2 ^ 32 := by have := b.isLt; omega
      exact fun c h => ih _ (crc32cBits_lt 8 (Nat.xor_lt_two_pow h wide))
  exact Nat.xor_lt_two_pow (steps _ (by omega)) (by omega)

/-! ### The remainder by a polynomial of degree c -/

theorem clMod_xor (c g n x y : Nat) : clMod c g n (x ^^^ y) = clMod c g n x ^^^ clMod c g n y := by
  induction n generalizing x y with
  | zero => rfl
  | succ n ih =>
    simp only [clMod]
    rw [← ih]
    congr 1
    rw [Nat.testBit_xor]
    cases x.testBit (n + c) <;> cases y.testBit (n + c) <;>
      simp only [Bool.xor_false, Bool.xor_true, Bool.not_false, Bool.not_true, if_true, Bool.false_eq_true, if_false]
    · ac_rfl
    · ac_rfl
    · rw [Nat.xor_assoc, Nat.xor_comm (g <<< n), Nat.xor_assoc, Nat.xor_self, Nat.xor_zero]

/-- A polynomial of a degree below c is its own remainder. -/
theorem clMod_of_lt {c x : Nat} (g : Nat) (h : x < 2 ^ c) (n : Nat) : clMod c g n x = x := by
  induction n with
  | zero => rfl
  | succ n ih =>
    have clear : x.testBit (n + c) = false :=
      Nat.testBit_eq_false_of_lt (lt_of_lt_of_le h (Nat.pow_le_pow_right Nat.two_pos (Nat.le_add_left c n)))
    rw [clMod, clear, if_neg Bool.false_ne_true, ih]

/-- n steps clear n leading bits. -/
theorem clMod_lt {c g : Nat} (degree : g / 2 ^ c = 1) (n : Nat) {x : Nat} (h : x < 2 ^ (n + c)) :
    clMod c g n x < 2 ^ c := by
  induction n generalizing x with
  | zero => exact Nat.zero_add c ▸ h
  | succ n ih =>
    have below : x < 2 ^ (n + c + 1) := by rwa [Nat.add_right_comm] at h
    have gBelow : g < 2 ^ (c + 1) := by
      rw [Nat.pow_succ, Nat.mul_comm]
      exact (Nat.div_lt_iff_lt_mul (Nat.two_pow_pos c)).mp (degree ▸ Nat.one_lt_two)
    have gTop : g.testBit c = true := by
      rw [Nat.testBit_eq_decide_div_mod_eq, degree]; rfl
    refine ih (Nat.lt_pow_two_of_testBit _ fun i hi => ?_)
    have high (y : Nat) (hy : y < 2 ^ (n + c + 1)) (e : i ≠ n + c) : y.testBit i = false :=
      Nat.testBit_eq_false_of_lt (lt_of_lt_of_le hy (Nat.pow_le_pow_right Nat.two_pos (by omega)))
    have shifted : g <<< n < 2 ^ (n + c + 1) := by
      rw [Nat.shiftLeft_eq, Nat.add_assoc, Nat.pow_add, Nat.mul_comm]
      exact Nat.mul_lt_mul_of_pos_left gBelow (Nat.two_pow_pos n)
    by_cases e : i = n + c
    · subst e
      split
      · next set =>
        rw [Nat.testBit_xor, set, Nat.testBit_shiftLeft, Nat.add_sub_cancel_left, gTop, decide_eq_true (by omega)]; rfl
      · next clear => exact Bool.eq_false_iff.mpr clear
    · split
      · rw [Nat.testBit_xor, high x below e, high _ shifted e]; rfl
      · exact high x below e

/-- Parts that share no bit. -/
theorem add_mul_two_pow_eq_xor {r c : Nat} (h : r < 2 ^ c) (m : Nat) : r + m * 2 ^ c = r ^^^ (m * 2 ^ c) := by
  refine Nat.eq_of_testBit_eq fun i => ?_
  rw [Nat.add_comm, Nat.mul_comm, Nat.testBit_two_pow_mul_add _ h, Nat.testBit_xor, Nat.testBit_two_pow_mul]
  by_cases low : i < c
  · simp only [low, if_true, Nat.not_le.mpr low, decide_false, Bool.false_and, Bool.xor_false]
  · have clear : r.testBit i = false :=
      Nat.testBit_eq_false_of_lt (lt_of_lt_of_le h (Nat.pow_le_pow_right Nat.two_pos (Nat.not_lt.mp low)))
    simp only [low, if_false, Nat.not_lt.mp low, decide_true, Bool.true_and, clear, Bool.false_xor]

/-- A message followed by its remainder is a multiple of the polynomial. -/
theorem clMod_of_check {c g : Nat} (degree : g / 2 ^ c = 1) {n m : Nat} (h : m < 2 ^ n) :
    clMod c g n (clMod c g n (m * 2 ^ c) + m * 2 ^ c) = 0 := by
  have small : clMod c g n (m * 2 ^ c) < 2 ^ c := clMod_lt degree n (mul_two_pow_lt h c)
  rw [add_mul_two_pow_eq_xor small, clMod_xor, clMod_of_lt g small, Nat.xor_self]

/-! ### The code of a line (02 R53 to R60) -/

theorem bchGen_degree (p : Profile) : bchGen (bchT p) / 2 ^ (12 * bchT p) = 1 := by
  cases p <;> decide +kernel

theorem bchCheck_eq (p : Profile) (m : Nat) :
    bchCheck p m = clMod (12 * bchT p) (bchGen (bchT p)) 2208 (m * 2 ^ (12 * bchT p)) := by
  rw [bchCheck, Nat.shiftLeft_eq]

/-- Data and metadata as one message. -/
theorem message_lt {data mb : Nat} (hd : data < 2 ^ 2048) (hm : mb < 2 ^ 160) : data + mb * 2 ^ 2048 < 2 ^ 2208 :=
  cat_lt (n := 2048) (m := 160) (k := 2208) hd hm rfl

theorem bchCheck_lt (p : Profile) {m : Nat} (h : m < 2 ^ 2208) : bchCheck p m < 2 ^ (12 * bchT p) := by
  rw [bchCheck_eq]
  exact clMod_lt (bchGen_degree p) 2208 (mul_two_pow_lt h _)

/-- A codeword needs no correction. -/
theorem bchCorrect_of_check (p : Profile) {m : Nat} (h : m < 2 ^ 2208) :
    bchCorrect (bchT p) (12 * bchT p + 2208) (bchCheck p m + m * 2 ^ (12 * bchT p)) =
      some (bchCheck p m + m * 2 ^ (12 * bchT p), 0) := by
  have zero := clMod_of_check (bchGen_degree p) h
  rw [← bchCheck_eq] at zero
  rw [bchCorrect, Nat.add_sub_cancel_left, if_pos zero]

theorem metaBits_lt (m : Meta) : metaBits m < 2 ^ 160 :=
  lt_trans (pack_lt_of (n := 157) (by simp)) (Nat.pow_lt_pow_right Nat.one_lt_two (by decide))

theorem metaOf_metaBits {m : Meta} (tag : m.tag < 2 ^ 36) (wseq : m.wseq < 2 ^ 40) (keyId : m.keyId < 2 ^ 7)
    (mac : m.mac < 2 ^ 56) (dstamp : m.dstamp < 2 ^ 16) : metaOf (metaBits m) = m := by
  simp only [metaOf, metaBits, testBit_eq_fld, fld_pack_next, fld_pack_first, Nat.reduceLeDiff, Nat.reduceSub, le_refl,
    Nat.mod_eq_of_lt, tag, wseq, keyId, mac, dstamp, Nat.pow_one, bool01_mod_two, decide_bool01_eq_one]

theorem l15Cells_lt (n : Nat) : l15Cells n < 2 ^ (4 * n) := by
  induction n with
  | zero => exact Nat.one_pos
  | succ n ih =>
    have grows : 2 ^ (4 * (n + 1)) = 16 * 2 ^ (4 * n) := by ring
    rw [l15Cells, grows]
    omega

/-- What an image holds between the data and the metadata: check bits, and L15 cells where they are short (R54). -/
def middle (p : Profile) (check : Nat) : Nat :=
  match p with
  | .strong => check
  | .light => check % 2 ^ 96 + l15Cells 72 * 2 ^ 96

theorem middle_strong (check : Nat) : middle .strong check = check := rfl

theorem middle_light (check : Nat) : middle .light check = check % 2 ^ 96 + l15Cells 72 * 2 ^ 96 := rfl

theorem middle_lt (p : Profile) {check : Nat} (h : check < 2 ^ (12 * bchT p)) : middle p check < 2 ^ 384 := by
  cases p with
  | strong =>
    have width : 12 * bchT .strong = 384 := rfl
    rwa [width] at h
  | light => exact cat_lt (n := 96) (k := 384) (Nat.mod_lt _ (Nat.two_pow_pos 96)) (l15Cells_lt 72) rfl

theorem fld_middle (p : Profile) {check : Nat} (h : check < 2 ^ (12 * bchT p)) :
    fld (middle p check) 0 (12 * bchT p) = check := by
  cases p with
  | strong => exact fld_zero_of_lt (w := 12 * bchT .strong) h
  | light =>
    have width : 12 * bchT .light = 96 := rfl
    rw [width] at h ⊢
    rw [middle_light, fld_cat_whole (Nat.mod_lt _ (Nat.two_pow_pos 96)), Nat.mod_eq_of_lt h]

theorem bchT_check_le (p : Profile) : 12 * bchT p ≤ 384 := by cases p <;> decide

/-- Summand by summand: the powers of two of the model are then compared one at a time. -/
theorem ofNat_sum_congr {w a a' b b' c c' : Nat} (low : a = a') (mid : b = b') (high : c = c') :
    BitVec.ofNat w (a + b + c) = BitVec.ofNat w (a' + b' + c') := by rw [low, mid, high]

theorem encodeBits_eq (p : Profile) (data mb : Nat) :
    encodeBits p data mb = BitVec.ofNat 2592 (data % 2 ^ 2048 +
      middle p (bchCheck p (data + mb * 2 ^ 2048)) * 2 ^ 2048 + mb % 2 ^ 160 * 2 ^ 2432) := by
  cases p with
  | strong =>
    refine ofNat_sum_congr rfl ?_ rfl
    rw [middle_strong]
  | light =>
    refine ofNat_sum_congr rfl ?_ rfl
    rw [middle_light]

section

variable {p : Profile} {data mb : Nat} (hd : data < 2 ^ 2048) (hm : mb < 2 ^ 160)

include hd hm

theorem encodeBits_toNat :
    (encodeBits p data mb).toNat =
      data + (middle p (bchCheck p (data + mb * 2 ^ 2048)) + mb * 2 ^ 384) * 2 ^ 2048 := by
  have mid := middle_lt p (bchCheck_lt p (message_lt hd hm))
  rw [encodeBits_eq, Nat.mod_eq_of_lt hd, Nat.mod_eq_of_lt hm, cat_cat _ _ _ 2048 384]
  have upper := cat_lt (n := 384) (m := 160) (k := 544) mid hm rfl
  have whole := cat_lt (n := 2048) (m := 544) (k := 2592) hd upper rfl
  simp only [BitVec.toNat_ofNat, Nat.mod_eq_of_lt whole]

/-- A sense of a line's own image holds its codeword. -/
theorem codeword_encodeBits :
    codeword p (encodeBits p data mb) =
      bchCheck p (data + mb * 2 ^ 2048) + (data + mb * 2 ^ 2048) * 2 ^ (12 * bchT p) := by
  have check := bchCheck_lt p (message_lt hd hm)
  have mid := middle_lt p check
  simp only [codeword, encodeBits_toNat hd hm]
  rw [fld_cat_high _ hd (le_refl _), Nat.sub_self, fld_cat_start _ _ (bchT_check_le p), fld_middle p check,
    fld_cat_whole hd, fld_cat_high _ hd (by decide), fld_cat_high _ mid (by decide),
    fld_zero_of_lt hm, cat_cat]

end

/-- Settles O57: the image holds its codeword, which needs no correction, and whose fields are what went in. -/
theorem linesDecodeAsTheyWereEncoded : Obligations.LinesDecodeAsTheyWereEncoded := by
  intro p data m tag wseq keyId mac dstamp
  have hd : data.toNat < 2 ^ 2048 := BitVec.isLt _
  have hm := metaBits_lt m
  have whole := message_lt hd hm
  have check := bchCheck_lt p whole
  rw [decodeLine, encodeLine, codeword_encodeBits hd hm]
  simp only [bchCorrect_of_check p whole]
  rw [fld_cat_high _ check (le_refl _), Nat.sub_self, fld_cat_whole hd,
    fld_cat_high _ check (by omega), Nat.add_sub_cancel_left, fld_cat_high _ hd (le_refl _), Nat.sub_self,
    fld_zero_of_lt hm, metaOf_metaBits tag wseq keyId mac dstamp, BitVec.ofNat_toNat, BitVec.setWidth_eq]

/-! ### Entries and headers of records (06 R215; 12 R428, R435) -/

theorem entryOf_bits {e : IdxEntry} (key : e.key < 2 ^ 128) (loc : e.loc < 2 ^ 40) (len : e.len < 2 ^ 32)
    (heap : e.heap < 2 ^ 10) (k : e.k < 2 ^ 5) (m : e.m < 2 ^ 4) (digest : e.digest < 2 ^ 3) : entryOf e.bits = e := by
  simp only [entryOf, IdxEntry.bits, fld_cat_low, fld_pack_next, fld_pack_first, Nat.reduceLeDiff, Nat.reduceAdd,
    Nat.reduceSub, le_refl, Nat.mod_eq_of_lt, key, loc, len, heap, k, m, digest]

theorem entryValid_bits (e : IdxEntry) : entryValid e.bits = true := by
  simp only [entryValid, IdxEntry.bits, testBit_eq_fld, fld_cat_low, fld_pack_next, fld_pack_first, Nat.reduceLeDiff,
    Nat.reduceAdd, Nat.reduceSub, le_refl, Nat.pow_one, Nat.reduceMod, decide_true]

theorem entryGood_bits (e : IdxEntry) : entryGood e.bits = true := by
  have bytes (low crc : Nat) : leBytes 28 (low + crc * 2 ^ 224) = leBytes 28 low := leBytes_cat_low 28 low crc
  simp only [entryGood, IdxEntry.bits, bytes]
  rw [fld_cat_high _ (pack_lt_of (n := 224) (by simp)) (le_refl _)]
  exact decide_eq_true (fld_zero_of_lt (crc32c_lt _)).symm

/-- A header in two parts: what HCRC covers and HCRC itself in the lower half, the digest above them (R428). -/
def RecHead.low (h : RecHead) : Nat :=
  pack [(8, h.rtype), (8, h.k), (8, h.m), (8, h.digest), (32, h.len), (128, h.key), (16, h.index)]

theorem RecHead.bits_eq (h : RecHead) :
    h.bits = h.low + (crc32c (leBytes 28 h.low ++ leBytes 32 h.dval) + h.dval % 2 ^ 256 * 2 ^ 32) * 2 ^ 224 := by
  rw [← cat_cat]; rfl

theorem RecHead.low_lt (h : RecHead) : h.low < 2 ^ 224 :=
  lt_trans (pack_lt_of (n := 208) (by simp)) (Nat.pow_lt_pow_right Nat.one_lt_two (by decide))

theorem headOf_bits {h : RecHead} (rtype : h.rtype ≤ 3) (k : h.k < 2 ^ 8) (m : h.m < 2 ^ 8) (digest : h.digest < 2 ^ 3)
    (len : h.len < 2 ^ 32) (key : h.key < 2 ^ 128) (index : h.index < 2 ^ 10) (dval : h.dval < 2 ^ 256) :
    headOf h.bits = h := by
  have rtype : h.rtype < 2 ^ 8 := by omega
  have upper : fld h.bits 256 256 = h.dval := by
    rw [h.bits_eq, fld_cat_high _ h.low_lt (by decide), fld_cat_high _ (crc32c_lt _) (by decide), Nat.mod_eq_of_lt dval]
    exact fld_zero_of_lt dval
  have lower {lo w : Nat} (fits : lo + w ≤ 224) : fld h.bits lo w = fld h.low lo w := by
    rw [h.bits_eq, fld_cat_low _ _ fits]
  simp only [headOf, upper, lower, RecHead.low, fld_pack_next, fld_pack_first, Nat.reduceLeDiff, Nat.reduceAdd,
    Nat.reduceSub, le_refl, Nat.mod_eq_of_lt, rtype, k, m, digest, len, key, index]

theorem headGood_bits {h : RecHead} (rtype : h.rtype ≤ 3) (dval : h.dval < 2 ^ 256) : headGood h.bits = true := by
  have low := fld_cat_start h.low (crc32c (leBytes 28 h.low ++ leBytes 32 h.dval) + h.dval % 2 ^ 256 * 2 ^ 32)
    (n := 224) (w := 8) (by decide)
  rw [← h.bits_eq, RecHead.low, fld_pack_first _ _ (le_refl 8), Nat.mod_eq_of_lt (by omega)] at low
  have top : h.bits / 2 ^ 256 = h.dval := by
    have split : h.bits = h.low + crc32c (leBytes 28 h.low ++ leBytes 32 h.dval) * 2 ^ 224 + h.dval * 2 ^ 256 := by
      rw [RecHead.bits, Nat.mod_eq_of_lt dval]; rfl
    rw [split, Nat.add_mul_div_right _ _ (Nat.two_pow_pos 256),
      Nat.div_eq_of_lt (cat_lt (m := 32) h.low_lt (crc32c_lt _) rfl), Nat.zero_add]
  have bytes : leBytes 28 h.bits = leBytes 28 h.low := by rw [h.bits_eq]; exact leBytes_cat_low 28 _ _
  have crc : fld h.bits 224 32 = crc32c (leBytes 28 h.low ++ leBytes 32 h.dval) := by
    rw [h.bits_eq, fld_cat_high _ h.low_lt (le_refl _), Nat.sub_self, fld_cat_whole (crc32c_lt _)]
  simp only [headGood, low, rtype, top, bytes, crc, decide_true, Bool.and_self, Bool.or_true]

/-- Settles O58: each record's fields are those packed, and its check bits are the CRC of what stands below them. -/
theorem recordsReadBackAsWritten : Obligations.RecordsReadBackAsWritten := by
  refine ⟨?_, ?_, ?_⟩
  · intro pz start gap stamp st light pclr hpz hstart hgap hstamp hst e
    have fits : e < 2 ^ 63 := pack_lt_of (by simp)
    refine ⟨?_, ?_, ?_, ?_, ?_, ?_, ?_, fits⟩ <;>
      simp only [e, zPz, zStart, zGap, zStamp, zLight, zState, zPclr, mkZte, testBit_eq_fld, fld_pack_next, fld_pack_first,
        Nat.reduceLeDiff, Nat.reduceSub, le_refl, Nat.mod_eq_of_lt, hpz, hstart, hgap, hstamp, hst, Nat.pow_one,
        bool01_mod_two, decide_bool01_eq_one]
  · intro e key loc len heap k m digest
    exact ⟨entryOf_bits key loc len heap k m digest, entryValid_bits e, entryGood_bits e⟩
  · intro h _ rtype k m digest len key index dval
    exact ⟨headOf_bits rtype k m digest len key index dval, headGood_bits rtype dval⟩

end Sys2Proof.Machine
end

section
/-!
PROOF. What surrounds a command (01 R24; 14 Counters, The log): what the time that passes before it moves, and what
settling behind it leaves alone.
-/

namespace Sys2Proof.Machine

/-! ### What runs by itself in the event block -/

/-- The event block e with the log, the sources and the counters of x. -/
def EventBlock.withLog (e x : EventBlock) : EventBlock :=
  { e with
    sources := x.sources, log := x.log, headSeq := x.headSeq, intake := x.intake, nextLogAt := x.nextLogAt,
    lostRecs := x.lostRecs, lostLevel := x.lostLevel, lostSince := x.lostSince, lostPending := x.lostPending,
    attnA := x.attnA, attnB := x.attnB, attnS := x.attnS, lastSeq := x.lastSeq, toggle := x.toggle,
    counters := x.counters }

/-- x differs from e in no more than those. -/
def EventBlock.logs (e x : EventBlock) : Prop := x = e.withLog x

theorem EventBlock.logs_refl (e : EventBlock) : e.logs e := rfl

theorem EventBlock.logs_trans {e x y : EventBlock} (hx : e.logs x) (hy : x.logs y) : e.logs y :=
  hy.trans (congrArg (fun z => z.withLog y) hx)

theorem EventBlock.logs_bump (e : EventBlock) (n k : Nat) : e.logs (e.bump n k) := rfl

theorem EventBlock.logs_nextLogAt (e : EventBlock) (t : Nat) : e.logs { e with nextLogAt := t } := rfl

theorem EventBlock.logs_write (e : EventBlock) (r : LogRec) : e.logs (e.write r) := by
  simp only [EventBlock.write]
  split <;> exact rfl

theorem EventBlock.logs_lostRecord (e : EventBlock) (now : Nat) : e.logs (e.lostRecord now) := by
  rw [EventBlock.lostRecord]
  split
  · exact EventBlock.logs_trans (e.logs_write _) rfl
  · exact e.logs_refl

theorem logs_drainIntake (now n : Nat) (e : EventBlock) : e.logs (drainIntake now n e) := by
  induction n generalizing e with
  | zero => exact e.logs_refl
  | succ n ih =>
    rw [drainIntake]
    split
    · exact e.logs_refl
    · split
      · exact EventBlock.logs_trans (e.logs_lostRecord _) (ih _)
      · split
        · exact e.logs_refl
        · next r rest _ =>
          have taken : e.logs ({ e with intake := rest }.write r) :=
            EventBlock.logs_trans (x := { e with intake := rest }) rfl (EventBlock.logs_write _ r)
          exact EventBlock.logs_trans (EventBlock.logs_trans taken (EventBlock.logs_nextLogAt _ _)) (ih _)

/-- Counting under a condition. -/
theorem EventBlock.logs_bumpUnless (e : EventBlock) (p : Prop) [Decidable p] (n k : Nat) :
    e.logs (if p then e else e.bump n k) := by
  split
  · exact e.logs_refl
  · exact e.logs_bump n k

theorem Dev.logs_levelCounters (d : Dev) (ticks : Nat) : d.ev.logs (d.levelCounters ticks) := by
  have lanes (l : List Nat) : ∀ e : EventBlock, e.logs (l.foldl (fun (e : EventBlock) i =>
      if (d.lane1 i).queue.length = 0 then e else e.bump (cntLane i 8) ((d.lane1 i).queue.length * ticks)) e) := by
    induction l with
    | nil => exact EventBlock.logs_refl
    | cons i l ih => exact fun e => EventBlock.logs_trans (e.logs_bumpUnless _ _ _) (ih _)
  have add {e : EventBlock} (h : d.ev.logs e) (c n : Nat) :
      d.ev.logs (if n = 0 then e else e.bump c (n * ticks)) := EventBlock.logs_trans h (e.logs_bumpUnless _ _ _)
  exact add (add (add (add (add (add (add (lanes (upTo 16) d.ev) _ _) _ _) _ _) _ _) _ _) _ _) _ _

theorem EventBlock.keepCfg_of_logs {e x : EventBlock} (h : e.logs x) : e.keepCfg x = e.withLog x := by
  rw [h]; rfl

/-- Time moves the clocks, what runs by itself in the event block, and the hours counted (18 R668). -/
theorem Dev.elapse_eq (d : Dev) (now aon : Nat) :
    ∃ x, d.elapse now aon = { d with
      now := now, aon := aon, ev := d.ev.withLog x,
      cab := { d.cab with milestone := d.cab.addHours (hoursPassed d.pwr d.aon aon) } } := by
  have run : d.ev.logs (drainIntake now 257
      (if d.life.running then d.levelCounters ((now - d.now) / 5) else d.ev)) := by
    refine EventBlock.logs_trans ?_ (logs_drainIntake now 257 _)
    split
    · exact d.logs_levelCounters _
    · exact d.ev.logs_refl
  exact ⟨_, by rw [Dev.elapse, EventBlock.keepCfg_of_logs run]⟩

/-! ### The counter behind a command, and settling -/

/-- A command that brings no device reset leaves the counter at its own instant (R24). -/
theorem State.leave_now_of_no_reset {s : State} {t : Nat} {d : Dev} (h : d.life.resets = (s.before t).life.resets) :
    (s.leave t d).clock.now = max s.clock.now (t / 5 * 5) := by
  simp only [State.leave, State.run, Dev.settle_resets, h, if_true, State.before_now, State.instant]

theorem Dev.settle_of_running {d : Dev} (d0 : Dev) (h : d.life.running = true) :
    Dev.settle d0 d = d.settleOnly (Dev.settleAll d0 d) := if_pos h

/-! ### The statements -/

/-- Settles O5: time is what Dev.elapse moves (Dev.elapse_eq), with the heads' logs (State.before_eq). -/
theorem timeMovesOnlyWhatRunsByItself : Obligations.TimeMovesOnlyWhatRunsByItself := by
  constructor
  · intro s t
    obtain ⟨a, b, moved⟩ := s.before_eq t
    obtain ⟨x, ran⟩ := s.dev.elapse_eq (s.instant t) (s.clock.aon + (s.instant t - s.clock.now))
    rw [moved, ran]
    exact ⟨rfl, rfl⟩
  · exact fun _ _ _ h => State.leave_now_of_no_reset h

/-- Settles O6: while the controller runs, settling is cut to what it may change (Dev.settleOnly); a stopped one settles
nothing. -/
theorem settlingLeavesTheWork : Obligations.SettlingLeavesTheWork := by
  intro s t d x
  have left : x = Dev.settle (s.before t) d := rfl
  clear_value x
  cases run : d.life.running with
  | true =>
    rw [Dev.settle_of_running _ run] at left
    generalize Dev.settleAll (s.before t) d = y at left
    subst left
    exact ⟨rfl, rfl, rfl, rfl, rfl, rfl, rfl, rfl, rfl, rfl, rfl, rfl, rfl, rfl, rfl, rfl, rfl, rfl, rfl, rfl, rfl, rfl,
      rfl, rfl, rfl, rfl, nofun⟩
  | false =>
    rw [Dev.settle_stopped run] at left
    subst left
    exact ⟨rfl, rfl, rfl, rfl, rfl, rfl, rfl, rfl, rfl, rfl, rfl, rfl, rfl, rfl, rfl, rfl, rfl, rfl, rfl, rfl, rfl, rfl,
      rfl, rfl, rfl, rfl, fun _ => rfl⟩

end Sys2Proof.Machine
end

section
/-!
PROOF. The heads (09 Heads and their resets, Persistence and GPF; 04 The Bench): credits, links, GPF, and what each reset
of a head resets and leaves.
-/

namespace Sys2Proof.Machine

/-! ### What the head commands run -/

theorem exec_creditReturn (t : Nat) (h : Head) (s : State) :
    exec (.creditReturn t h) s = s.after t (fun d => d.creditReturn h) := rfl

theorem exec_perstDeassert (t : Nat) (h : Head) (s : State) :
    exec (.perstDeassert t h) s = s.after t (fun d => d.perstDeassert h) := rfl

theorem exec_headLinkUp (t : Nat) (h : Head) (width : BitVec 4) (s : State) :
    exec (.headLinkUp t h width) s = s.after t (fun d => d.linkUp h width) := rfl

theorem exec_headLinkDown (t : Nat) (h : Head) (s : State) :
    exec (.headLinkDown t h) s = s.after t (fun d => if d.life.running then d.linkDown h else d) := rfl

theorem exec_gpfPhase1 (t : Nat) (h : Head) (s : State) :
    exec (.gpfPhase1 t h) s = s.after t (fun d => d.gpfPhase1 h) := rfl

theorem exec_gpfPhase2 (t : Nat) (h : Head) (s : State) :
    exec (.gpfPhase2 t h) s = s.after t (fun d => d.gpfPhase2 h) := rfl

theorem exec_headReset (t : Nat) (h : Head) (kind : ResetKind) (s : State) :
    exec (.headReset t h kind) s = s.after t (fun d => d.headReset h kind) := rfl

theorem exec_cxlReset (t : Nat) (h : Head) (s : State) :
    exec (.cxlReset t h) s = s.after t (fun d => d.cxlReset h) := rfl

theorem exec_flr (t : Nat) (h : Head) (s : State) : exec (.flr t h) s = s.after t (fun d => d.flr h) := rfl

/-! ### Two changes of one head -/

theorem Dev.onHead_onHead (d : Dev) (h : Head) (f g : HeadSt → HeadSt) :
    (d.onHead h f).onHead h g = d.onHead h (fun x => g (f x)) := by
  cases h <;> rfl

@[simp] theorem Dev.head_onHead (d : Dev) (h : Head) (f : HeadSt → HeadSt) : (d.onHead h f).head h = f (d.head h) :=
  Dev.head_setHead d h _

@[simp] theorem Dev.onHead_life (d : Dev) (h : Head) (f : HeadSt → HeadSt) : (d.onHead h f).life = d.life :=
  Dev.setHead_life d h _

/-! ### Credits, links, GPF -/

section

variable {d : Dev} {h : Head}

/-- R136, R162, R176, R345: the conditions of a credit's return. -/
def Dev.mayCredit (d : Dev) (h : Head) : Prop :=
  d.serving h = true ∧ d.bench.capGiven = true ∧ d.bench.draining = false ∧ d.life.shutting = none ∧
  (d.head h).gpf1 = false ∧ (d.head h).credits < 256 ∧ d.occupancy + d.reservedLines + 1 ≤ d.bench.cap ∧
  d.stagingUsed + d.reservedLines + 1 ≤ 8192

theorem Dev.creditReturn_cond_iff : (d.serving h && decide ((d.head h).credits < 256) && d.roomForLine &&
    d.bench.capGiven && !d.bench.draining && d.life.shutting.isNone && !(d.head h).gpf1) = true ↔ d.mayCredit h := by
  simp only [Dev.mayCredit, Dev.roomForLine, Bool.and_eq_true, decide_eq_true_eq, Bool.not_eq_true', Option.isNone_iff_eq_none]
  constructor
  · rintro ⟨⟨⟨⟨⟨⟨serving, credits⟩, cap, staging⟩, given⟩, still⟩, up⟩, gpf⟩
    exact ⟨serving, given, still, up, gpf, credits, cap, staging⟩
  · rintro ⟨serving, given, still, up, gpf, credits, cap, staging⟩
    exact ⟨⟨⟨⟨⟨⟨serving, credits⟩, cap, staging⟩, given⟩, still⟩, up⟩, gpf⟩

theorem Dev.creditReturn_of_mayCredit (may : d.mayCredit h) :
    d.creditReturn h = (d.onHead h (fun x => { x with credits := x.credits + 1 })).send (.credit h) :=
  if_pos (Dev.creditReturn_cond_iff.mpr may)

theorem Dev.creditReturn_of_not (mayNot : ¬ d.mayCredit h) : d.creditReturn h = d :=
  if_neg (mt Dev.creditReturn_cond_iff.mp mayNot)

theorem Dev.perstDeassert_of_running (run : d.life.running = true) (kept : (d.head h).retired = false) :
    d.perstDeassert h = (d.onHead h (fun x => { x with
      inReset := false, perstOffAt := d.now, cfgReady := true, memInfo := true, memTimeout := 3 })).send (.cfgReady h) := by
  simp only [Dev.perstDeassert, Dev.onHead_life, Dev.head_onHead, run, kept, Bool.true_eq_false, Bool.false_eq_true, or_self,
    if_false, Dev.onHead_onHead, HeadSt.answersCfg]

theorem Dev.linkUp_of_ready {width : BitVec 4} (run : d.life.running = true) (out : (d.head h).inReset = false)
    (kept : (d.head h).retired = false) (phy : d.phyUp h = true) :
    d.linkUp h width = d.onHead h (fun x => { x with linkUp := true, width := width, memActive := d.ready }) := by
  simp only [Dev.linkUp, run, out, kept, phy, Bool.true_eq_false, Bool.false_eq_true, or_self, if_false]

theorem Dev.gpfPhase1_of_linked (up : d.linked h = true) :
    d.gpfPhase1 h = d.onHead h (fun x => { x with gpf1 := true }) := if_pos up

theorem Dev.gpfPhase2_of_linked (up : d.linked h = true) : d.gpfPhase2 h = d.send (.gpfDone h) := if_pos up

end

/-- Settles O9: each command of a link or its credits has its equation. -/
theorem creditsLinksAndGpf : Obligations.CreditsLinksAndGpf := by
  refine ⟨?_, ?_, ?_⟩
  · intro s t h d serving given still up gpf credits cap staging
    rw [exec_creditReturn]
    exact State.after_eq (Dev.creditReturn_of_mayCredit ⟨serving, given, still, up, gpf, credits, cap, staging⟩)
  · intro s t h d fails
    rw [State.idle, exec_creditReturn]
    refine State.after_eq (Dev.creditReturn_of_not ?_)
    rintro ⟨serving, given, still, up, gpf, credits, cap, staging⟩
    rcases fails with f | f | f | f | f | f | f | f
    · exact Bool.false_ne_true (f.symm.trans serving)
    · exact Bool.false_ne_true (f.symm.trans given)
    · exact Bool.false_ne_true (still.symm.trans f)
    · exact f up
    · exact Bool.false_ne_true (gpf.symm.trans f)
    · exact Nat.not_le.mpr credits f
    · exact Nat.not_le.mpr f cap
    · exact Nat.not_le.mpr f staging
  · intro s t h d
    refine ⟨fun run kept => ?_, fun width run out kept phy => ?_, fun run => ?_, fun up => ⟨?_, ?_⟩⟩
    · rw [exec_perstDeassert]
      exact State.after_eq (Dev.perstDeassert_of_running run kept)
    · rw [exec_headLinkUp]
      exact State.after_eq (Dev.linkUp_of_ready run out kept phy)
    · rw [exec_headLinkDown]
      exact State.after_eq ((if_pos run).trans (by cases h <;> rfl))
    · rw [exec_gpfPhase1]
      exact State.after_eq (Dev.gpfPhase1_of_linked up)
    · rw [exec_gpfPhase2]
      exact State.after_eq (Dev.gpfPhase2_of_linked up)

/-! ### The four resets -/

section

variable {d : Dev} {h : Head} (run : d.life.running = true)

include run

theorem Dev.headReset_hot_of_running : d.headReset h .hot = (d.resetCommon h).resetLink h := by
  simp only [Dev.headReset, run, if_true]

theorem Dev.headReset_perst_of_running :
    d.headReset h .perst = ((d.resetCommon h).resetLink h).onHead h (fun x => { x with
      inReset := true, resetAt := if x.inReset then x.resetAt else ((d.resetCommon h).resetLink h).now,
      cfgReady := false }) := by
  simp only [Dev.headReset, run, if_true]

theorem Dev.cxlReset_of_running : d.cxlReset h = (d.resetCommon h).onHead h HeadSt.resetRegs := by
  simp only [Dev.cxlReset, run, Bool.true_eq_false, if_false]

theorem Dev.flr_of_running : d.flr h = d.onHead h (fun x => { x with policy := 0, alerts := 0 }) := by
  simp only [Dev.flr, run, Bool.true_eq_false, if_false]

end

/-- Settles O10: each reset has its equation. -/
theorem headResetScopes : Obligations.HeadResetScopes := by
  intro s t h d d1 run
  rw [exec_headReset, exec_headReset, exec_cxlReset, exec_flr]
  exact ⟨State.after_eq (Dev.headReset_hot_of_running run), State.after_eq (Dev.headReset_perst_of_running run),
    State.after_eq (Dev.cxlReset_of_running run), State.after_eq (Dev.flr_of_running run)⟩

/-! ### What they leave -/

/-- The device with other queues, another event block and other waiting posts. -/
def Dev.withQueues (d : Dev) (q : QueueBlock) (e : EventBlock) (l : List Later) : Dev :=
  { d with q := q, ev := e, bench := { d.bench with later := l } }

theorem Dev.each_cplDiscarded_eq (qid : Nat) (l : List Nat) (d : Dev) :
    ∃ e, d.each l (fun d cid => d.cplDiscarded qid cid) = { d with ev := e } := by
  induction l generalizing d with
  | nil => exact ⟨d.ev, rfl⟩
  | cons cid l ih =>
    obtain ⟨e, h⟩ := ih (d.cplDiscarded qid cid)
    exact ⟨e, h⟩

theorem Dev.dropPosts_eq (d : Dev) (qid : Nat) : ∃ e l, d.dropPosts qid = d.withQueues d.q e l := by
  obtain ⟨e, h⟩ := Dev.each_cplDiscarded_eq qid _ _
  exact ⟨e, _, h⟩

theorem Dev.resetPair_eq (d : Dev) (qid : Nat) : ∃ x e l, d.resetPair qid = d.withQueues
    { d.q with exec := x, pairs := vset d.q.pairs qid Reset.qpair } e l := by
  simp only [Dev.resetPair]
  obtain ⟨e, l, h⟩ := Dev.dropPosts_eq _ qid
  rw [h]
  exact ⟨_, e, l, rfl⟩

theorem Dev.pair_resetPair (d : Dev) {qid : Nat} (j : Nat) (inside : qid < 128) :
    (d.resetPair qid).pair j = if qid = j then Reset.qpair else d.pair j := by
  obtain ⟨x, e, l, h⟩ := d.resetPair_eq qid
  rw [h]
  exact vget_vset _ _ _ _ _ inside

/-- Every pair of a list is reset, and no other. -/
theorem Dev.each_resetPair (base : Nat) (l : List Nat) (inside : ∀ i ∈ l, base + i < 128) (d : Dev) :
    let d' := d.each l (fun d i => d.resetPair (base + i))
    (∃ q e w, d' = d.withQueues q e w) ∧
    ∀ j, d'.pair j = if j ∈ l.map (base + ·) then Reset.qpair else d.pair j := by
  induction l generalizing d with
  | nil => exact ⟨⟨d.q, d.ev, d.bench.later, rfl⟩, fun j => (if_neg List.not_mem_nil).symm⟩
  | cons i l ih =>
    obtain ⟨⟨q, e, w, rest⟩, pairs⟩ := ih (fun k hk => inside k (List.mem_cons_of_mem i hk)) (d.resetPair (base + i))
    obtain ⟨x, e', w', first⟩ := d.resetPair_eq (base + i)
    refine ⟨⟨q, e, w, rest.trans (by rw [first]; rfl)⟩, fun j => (pairs j).trans ?_⟩
    rw [d.pair_resetPair j (inside i List.mem_cons_self)]
    by_cases later : j ∈ l.map (base + ·)
    · simp only [List.map_cons, List.mem_cons, later, or_true, if_true]
    · simp only [List.map_cons, List.mem_cons, later, if_false, or_false, eq_comm]

theorem Dev.setAdm_eq (d : Dev) (h : Head) (x : AdmQ) :
    ∃ q, d.setAdm h x = { d with q := q } ∧ q.pairs = d.q.pairs := by
  cases h
  · exact ⟨_, rfl, rfl⟩
  · exact ⟨_, rfl, rfl⟩

theorem headPair_lt (h : Head) {i : Nat} (hi : i < 64) : 64 * headNum h + i < 128 := by
  cases h <;> simp only [headNum] <;> omega

theorem Dev.deleteQueues_eq (d : Dev) (h : Head) :
    (∃ q e l, d.deleteQueues h = d.withQueues q e l) ∧
    ∀ i, i < 64 → (d.deleteQueues h).pair (64 * headNum h + i) = Reset.qpair ∧
      (d.deleteQueues h).pair (64 * headNum (otherHead h) + i) = d.pair (64 * headNum (otherHead h) + i) := by
  obtain ⟨⟨q, e, l, reset⟩, pairs⟩ :=
    Dev.each_resetPair (64 * headNum h) (upTo 64) (fun i hi => headPair_lt h (List.mem_range.mp hi)) d
  simp only [Dev.deleteQueues]
  generalize d.each (upTo 64) (fun d i => d.resetPair (64 * headNum h + i)) = d1 at reset pairs
  obtain ⟨q', adm, same⟩ := Dev.setAdm_eq d1 h { d1.adm h with en := false, rdy := false }
  rw [adm]
  have read (j : Nat) : ({ d1 with q := q' } : Dev).pair j = d1.pair j := by
    rw [Dev.pair, Dev.pair, same]
  refine ⟨⟨q', e, l, by rw [reset]; rfl⟩, fun i hi => ⟨?_, ?_⟩⟩
  · exact (read _).trans ((pairs _).trans (if_pos (List.mem_map.mpr ⟨i, List.mem_range.mpr hi, rfl⟩)))
  · rw [read, pairs, if_neg]
    rintro mem
    obtain ⟨k, hk, e⟩ := List.mem_map.mp mem
    have below := List.mem_range.mp hk
    cases h <;> simp only [headNum, otherHead] at e <;> omega

theorem Dev.each_eq_self {α : Type} {l : List α} {f : Dev → α → Dev} {d : Dev} (h : ∀ x ∈ l, f d x = d) :
    d.each l f = d := by
  induction l with
  | nil => rfl
  | cons x l ih =>
    have first : f d x = d := h x List.mem_cons_self
    show Dev.each l f (f d x) = d
    rw [first]
    exact ih fun y hy => h y (List.mem_cons_of_mem x hy)

/-- None of the head's channels runs: a channel of it is halted, or is neither enabled nor stopping. -/
def Dev.channelsQuiet (d : Dev) (h : Head) : Prop :=
  ∀ c, c < 32 → (d.chan c).owner = h → (d.chan c).state = 2 ∨ ((d.chan c).en = false ∧ (d.chan c).stopping = false)

theorem Dev.resetChannels_of_quiet {d : Dev} {h : Head} (quiet : d.channelsQuiet h) : d.resetChannels h = d := by
  refine Dev.each_eq_self fun c hc => if_neg ?_
  rintro ⟨runs, live, mine⟩
  rcases quiet c (List.mem_range.mp hc) mine with halted | ⟨off, still⟩
  · exact live halted
  · rw [off, still] at runs
    exact Bool.false_ne_true runs

/-- What is gone of a head behind a reset (R332, R333), and what stays. -/
def Dev.released (d : Dev) (h : Head) (d' : Dev) : Prop :=
  (∀ i, i < 64 → (d'.pair (64 * headNum h + i)).state = .absent ∧
    d'.pair (64 * headNum (otherHead h) + i) = d.pair (64 * headNum (otherHead h) + i)) ∧
  (d'.head h).readsOut = 0 ∧
  (∀ x ∈ d'.lane.reads, ∀ w ∈ x.waiters, w ≠ .prefetch h ∧ ∀ tag sector at_, w ≠ .host h tag sector at_) ∧
  (∀ w ∈ d'.bench.held, w.head ≠ h) ∧
  d'.head (otherHead h) = d.head (otherHead h) ∧ d'.bench.entries = d.bench.entries ∧ d'.cache = d.cache ∧
  d'.medium = d.medium ∧ d'.sys = d.sys ∧ d'.dma = d.dma

/-- A change of the head's own registers alone. -/
theorem Dev.released_onHead {d d' : Dev} {h : Head} {f : HeadSt → HeadSt} (hf : ∀ x, (f x).readsOut = x.readsOut)
    (rel : d.released h d') : d.released h (d'.onHead h f) := by
  obtain ⟨pairs, reads, waiters, held, other, work⟩ := rel
  cases h with
  | a => exact ⟨pairs, (hf _).trans reads, waiters, held, other, work⟩
  | b => exact ⟨pairs, (hf _).trans reads, waiters, held, other, work⟩

theorem Dev.abandonReads_waiters (d : Dev) (h : Head) : ∀ x ∈ (d.abandonReads h).lane.reads, ∀ w ∈ x.waiters,
    w ≠ .prefetch h ∧ ∀ tag sector at_, w ≠ .host h tag sector at_ := by
  have reads : (d.abandonReads h).lane.reads = d.lane.reads.map (fun x => { x with waiters := x.waiters.filter (fun w =>
      !(match w with
        | .host g _ _ _ => decide (g = h)
        | .prefetch g => decide (g = h)
        | .stream _ _ => false)) }) := by cases h <;> rfl
  intro x hx w hw
  rw [reads] at hx
  obtain ⟨y, _, rfl⟩ := List.mem_map.mp hx
  have kept := (List.mem_filter.mp hw).2
  constructor
  · rintro rfl
    simp at kept
  · rintro tag sector at_ rfl
    simp at kept

theorem Dev.dropHeld_held (d : Dev) (h : Head) : ∀ w ∈ (d.dropHeld h).bench.held, w.head ≠ h :=
  fun _ hw => of_decide_eq_true (List.mem_filter.mp hw).2

/-- What the three resets of a head have in common, with its channels at rest. -/
theorem Dev.resetCommon_of_quiet {d : Dev} {h : Head} (quiet : d.channelsQuiet h) :
    (∃ q e l, d.resetCommon h = ((d.abandonReads h).dropHeld h).withQueues q e l) ∧ d.released h (d.resetCommon h) := by
  obtain ⟨⟨q, e, l, deleted⟩, pairs⟩ := Dev.deleteQueues_eq ((d.abandonReads h).dropHeld h) h
  have stops : ∃ e', (((d.abandonReads h).dropHeld h).deleteQueues h).stopDumps h =
      ((d.abandonReads h).dropHeld h).withQueues q e' l := by
    rw [deleted]; exact ⟨_, rfl⟩
  obtain ⟨e', stopped⟩ := stops
  have still : (((d.abandonReads h).dropHeld h).withQueues q e' l).channelsQuiet h := by cases h <;> exact quiet
  have common : d.resetCommon h = ((d.abandonReads h).dropHeld h).withQueues q e' l := by
    rw [Dev.resetCommon, stopped, Dev.resetChannels_of_quiet still]
  refine ⟨⟨q, e', l, common⟩, ?_⟩
  rw [deleted] at pairs
  rw [common]
  refine ⟨fun i hi => ⟨?_, ?_⟩, ?_, ?_, ?_, ?_⟩
  · exact congrArg QPair.state (pairs i hi).1
  · exact (pairs i hi).2.trans (by cases h <;> rfl)
  · cases h <;> rfl
  · exact d.abandonReads_waiters h
  · exact (d.abandonReads h).dropHeld_held h
  · cases h <;> exact ⟨rfl, rfl, rfl, rfl, rfl, rfl⟩

/-- Settles O11: each reset is its common part and a change of the head's own registers. -/
theorem headResetsComplete : Obligations.HeadResetsComplete := by
  intro s t h d o quiet released run
  refine ⟨fun kind => ?_, ?_, ?_⟩
  · refine ⟨d.headReset h kind, by rw [exec_headReset]; exact State.after_eq rfl, ?_⟩
    cases kind with
    | hot =>
      rw [Dev.headReset_hot_of_running run, Dev.resetLink, Dev.head_onHead]
      exact ⟨rfl, rfl, rfl, rfl, rfl, rfl, nofun,
        fun still => Dev.released_onHead (fun _ => rfl) (Dev.resetCommon_of_quiet still).2⟩
    | perst =>
      rw [Dev.headReset_perst_of_running run, Dev.resetLink, Dev.head_onHead, Dev.head_onHead]
      exact ⟨rfl, rfl, rfl, rfl, rfl, rfl, fun _ => rfl, fun still => Dev.released_onHead (fun _ => rfl)
        (Dev.released_onHead (fun _ => rfl) (Dev.resetCommon_of_quiet still).2)⟩
  · refine ⟨d.cxlReset h, by rw [exec_cxlReset]; exact State.after_eq rfl, ?_⟩
    rw [Dev.cxlReset_of_running run]
    refine ⟨by rw [Dev.head_onHead]; rfl, by rw [Dev.head_onHead]; rfl, by rw [Dev.head_onHead]; rfl, fun still => ?_⟩
    obtain ⟨⟨q, e, l, common⟩, rel⟩ := Dev.resetCommon_of_quiet still
    refine ⟨Dev.released_onHead (fun _ => rfl) rel, ?_⟩
    rw [Dev.head_onHead, common]
    cases h <;> exact ⟨rfl, rfl, rfl⟩
  · exact ⟨d.flr h, { d.head h with policy := 0, alerts := 0 }, by rw [exec_flr]; exact State.after_eq rfl,
      Dev.flr_of_running run, rfl⟩

end Sys2Proof.Machine
end

section
/-!
PROOF. Completion entries and entries that end at once (11 Completion entries; Doorbells, phase and queue errors; Command
IDs): what a post does to its ring and to no other pair, and what an entry with a bad CID does.
-/

namespace Sys2Proof.Machine

/-! ### Pairs -/

theorem vset_vget {α : Type} {n : Nat} (dflt : α) (v : Vector α n) {i : Nat} (h : i < n) : vset v i (vget dflt v i) = v := by
  have value : vget dflt v i = v[i] := by rw [vget, Vector.getElem?_eq_getElem h, Option.getD_some]
  refine Vector.ext fun j hj => ?_
  rw [vset, value, Vector.getElem_setIfInBounds hj]
  split
  · next same => subst same; rfl
  · rfl

theorem Dev.setPair_pair (d : Dev) {i : Nat} (h : i < 128) : d.setPair i (d.pair i) = d := by
  rw [Dev.setPair, Dev.pair, vset_vget _ _ h]

theorem Dev.pair_setPair_same (d : Dev) (x : QPair) {i : Nat} (h : i < 128) : (d.setPair i x).pair i = x := by
  rw [d.pair_setPair x i i h, if_pos rfl]

theorem Dev.pair_setPair_other (d : Dev) (x : QPair) {i j : Nat} (h : i < 128) (ne : j ≠ i) :
    (d.setPair i x).pair j = d.pair j := by
  rw [d.pair_setPair x i j h, if_neg (Ne.symm ne)]

theorem Dev.pair_onPair_same (d : Dev) (f : QPair → QPair) {i : Nat} (h : i < 128) :
    (d.onPair i f).pair i = f (d.pair i) := d.pair_setPair_same _ h

theorem Dev.pair_onPair_other (d : Dev) (f : QPair → QPair) {i j : Nat} (h : i < 128) (ne : j ≠ i) :
    (d.onPair i f).pair j = d.pair j := d.pair_setPair_other _ h ne

theorem Dev.pair_event (d : Dev) (n : Nat) (x : BitVec 256) (i : Nat) : (d.event n x).pair i = d.pair i := rfl

/-! ### The completion's interrupt and its post -/

/-- An interrupt touches the pair's coalescing alone, and may send a message (R414). -/
theorem Dev.interrupt_eq (d : Dev) {qid : Nat} (h : qid < 128) (urgent : Bool) :
    ∃ n a l, d.interrupt qid urgent = (d.setPair qid { d.pair qid with posted := n, oldestAt := a }).sendAll l := by
  have silent (x : Dev) : x = x.sendAll [] := by rw [Dev.sendAll, List.append_nil]
  simp only [Dev.interrupt]
  split
  · split
    · exact ⟨0, (d.pair qid).oldestAt, [.msix (headOfQid qid) (d.pair qid).vector], rfl⟩
    · exact ⟨_, _, [], silent _⟩
  · exact ⟨(d.pair qid).posted, (d.pair qid).oldestAt, [], (d.setPair_pair h).symm.trans (silent _)⟩

theorem Dev.interrupt_pair (d : Dev) {qid : Nat} (h : qid < 128) (urgent : Bool) :
    ∃ n a, (d.interrupt qid urgent).pair qid = { d.pair qid with posted := n, oldestAt := a } := by
  obtain ⟨n, a, l, e⟩ := d.interrupt_eq h urgent
  refine ⟨n, a, ?_⟩
  rw [e]
  exact d.pair_setPair_same _ h

theorem Dev.interrupt_pair_other (d : Dev) {qid j : Nat} (h : qid < 128) (ne : j ≠ qid) (urgent : Bool) :
    (d.interrupt qid urgent).pair j = d.pair j := by
  obtain ⟨n, a, l, e⟩ := d.interrupt_eq h urgent
  rw [e]
  exact d.pair_setPair_other _ h ne

theorem advanceCq_releaseSlot (p : QPair) :
    (advanceCq (releaseSlot p)).slots = p.slots - 1 ∧
    (advanceCq (releaseSlot p)).cqTail = (if p.cqTail + 1 = p.cqDepth then 0 else p.cqTail + 1) ∧
    (advanceCq (releaseSlot p)).phase = (if p.cqTail + 1 = p.cqDepth then !p.phase else p.phase) ∧
    (advanceCq (releaseSlot p)).state = p.state ∧ (advanceCq (releaseSlot p)).deleter = p.deleter := by
  by_cases wraps : p.cqTail + 1 = p.cqDepth
  · simp only [advanceCq, releaseSlot, wraps, if_true, and_self]
  · simp only [advanceCq, releaseSlot, wraps, if_false, and_self]

section

variable {d : Dev} {qid : Nat} (active : (d.pair qid).state = .active) (hostRing : mtype (d.pair qid).cqBase = 0)
  (cid status result : Nat) (sqIdx : Option Nat) (urgent : Bool)

include active hostRing

omit active in
theorem Dev.post_eq_postNow :
    d.post qid cid status result sqIdx urgent = d.postNow qid cid status result sqIdx urgent := by
  have ready : d.postWaits qid = false := by
    simp only [Dev.postWaits, hostRing, Nat.zero_ne_one, decide_false, Bool.and_false, Bool.false_and]
  rw [Dev.post, ready, if_neg Bool.false_ne_true]

/-- Over a link that is up the entry is written, the ring moves on, and the interrupt follows (R395, R400). -/
theorem Dev.post_of_linkUp (up : (d.head (headOfQid qid)).linkUp = true) :
    d.post qid cid status result sqIdx urgent =
      ((d.send (.hostWrite (headOfQid qid) (addrOf (d.pair qid).cqBase + 16 * (d.pair qid).cqTail)
        (d.cplBytes qid cid status result sqIdx))).onPair qid (fun p => advanceCq (releaseSlot p))).interrupt qid
        (urgent || decide (status / 256 ≠ 0)) := by
  rw [Dev.post_eq_postNow hostRing]
  simp only [Dev.postNow, active, Dev.ringWrite, hostRing, up, if_true]

/-- Over a link that is down the pair enters ERROR (R396; log entry 74). -/
theorem Dev.post_of_linkDown (down : (d.head (headOfQid qid)).linkUp = false) :
    d.post qid cid status result sqIdx urgent = (d.pairError qid 4).onPair qid releaseSlot := by
  rw [Dev.post_eq_postNow hostRing]
  simp only [Dev.postNow, active, Dev.ringWrite, hostRing, down, Bool.false_eq_true, if_false]

end

theorem Dev.pairError_of_active {d : Dev} {qid : Nat} (active : (d.pair qid).state = .active) (cause : Nat) :
    d.pairError qid cause = (d.onPair qid (fun p => { p with state := .error, errCause := cause })).event
      (evHead (headOfQid qid) 2) (qpDetail qid cause 0) := if_pos active

section

variable {d : Dev} {qid : Nat} (inside : qid < 128) (active : (d.pair qid).state = .active)

include inside active

theorem Dev.pair_pairError_same (cause : Nat) :
    (d.pairError qid cause).pair qid = { d.pair qid with state := .error, errCause := cause } := by
  rw [Dev.pairError_of_active active, Dev.pair_event, Dev.pair_onPair_same _ _ inside]

theorem Dev.pair_pairError_other (cause : Nat) {j : Nat} (ne : j ≠ qid) :
    (d.pairError qid cause).pair j = d.pair j := by
  rw [Dev.pairError_of_active active, Dev.pair_event, Dev.pair_onPair_other _ _ inside ne]

end

/-- Settles O19: the two ends of a post, by the link. -/
theorem completionIsPosted : Obligations.CompletionIsPosted := by
  intro d qid cid status result urgent inside p d1 active hostRing
  refine ⟨fun up => ?_, fun down => ?_, fun j ne => ?_⟩
  · have posted : d1 = _ := Dev.post_of_linkUp active hostRing cid status result none urgent up
    clear_value d1
    subst posted
    obtain ⟨n, a, pairs⟩ := Dev.interrupt_pair ((d.send (.hostWrite (headOfQid qid)
      (addrOf (d.pair qid).cqBase + 16 * (d.pair qid).cqTail) (d.cplBytes qid cid status result none))).onPair qid
      (fun p => advanceCq (releaseSlot p))) inside (urgent || decide (status / 256 ≠ 0))
    obtain ⟨slots, tail, phase, -⟩ := advanceCq_releaseSlot p
    rw [Dev.pair_onPair_same _ _ inside] at pairs
    refine ⟨?_, ?_, ?_, ?_⟩
    · obtain ⟨n, a, l, e⟩ := Dev.interrupt_eq ((d.send (.hostWrite (headOfQid qid)
        (addrOf (d.pair qid).cqBase + 16 * (d.pair qid).cqTail) (d.cplBytes qid cid status result none))).onPair qid
        (fun p => advanceCq (releaseSlot p))) inside (urgent || decide (status / 256 ≠ 0))
      exact ⟨l, by rw [e]; rfl⟩
    · rw [pairs]; exact slots
    · rw [pairs]; exact tail
    · rw [pairs]; exact phase
  · have posted : d1 = _ := Dev.post_of_linkDown active hostRing cid status result none urgent down
    rw [posted]
    constructor
    · rw [Dev.pairError_of_active active]; rfl
    · rw [Dev.pair_onPair_same _ _ inside, Dev.pair_pairError_same inside active]; rfl
  · cases link : (d.head (headOfQid qid)).linkUp with
    | true =>
      have posted : d1 = _ := Dev.post_of_linkUp active hostRing cid status result none urgent link
      rw [posted, Dev.interrupt_pair_other _ inside ne, Dev.pair_onPair_other _ _ inside ne]
      rfl
    | false =>
      have posted : d1 = _ := Dev.post_of_linkDown active hostRing cid status result none urgent link
      rw [posted, Dev.pair_onPair_other _ _ inside ne, Dev.pair_pairError_other inside active 4 ne]

/-! ### An entry that ends at once -/

theorem Dev.stageIf_of_noTraces {d : Dev} (none : d.ev.traces = []) (p : Trace → Bool) (k : Nat) : d.stageIf p k = d := by
  have same : { d.ev with traces := d.ev.traces.map (fun t => if p t then markStage d.now k t else t) } = d.ev := by
    rw [none, List.map_nil, ← none]
  rw [Dev.stageIf, same]

theorem Dev.traceWho_of_noTraces {d : Dev} (none : d.ev.traces = []) (tag : Option Nat) (who : Nat) :
    d.traceWho tag who = d := by
  have same : { d.ev with traces := d.ev.traces.map (whoOf tag who) } = d.ev := by
    rw [none, List.map_nil, ← none]
  rw [Dev.traceWho, same]

theorem Dev.traceEndIf_of_noTraces {d : Dev} (none : d.ev.traces = []) (p : Trace → Bool) : d.traceEndIf p = d := by
  rw [Dev.traceEndIf, none]; rfl

theorem Dev.noteCfg_frame (d : Dev) (h : Head) :
    (d.noteCfg h).q.exec = d.q.exec ∧ (d.noteCfg h).q.order = d.q.order ∧ (d.noteCfg h).out = d.out := by
  simp only [Dev.noteCfg]
  split <;> exact ⟨rfl, rfl, rfl⟩

/-- A pair whose deletion no command waits for goes without a word. -/
theorem Dev.finishPair_frame {d : Dev} {qid : Nat} (alone : (d.pair qid).deleter = none) :
    (d.finishPair qid).q.exec = d.q.exec ∧ (d.finishPair qid).q.order = d.q.order ∧ (d.finishPair qid).out = d.out := by
  simp only [Dev.finishPair, alone]
  split
  · obtain ⟨exec, order, out⟩ := Dev.noteCfg_frame (d.setPair qid Reset.qpair) (headOfQid qid)
    exact ⟨exec, order, out⟩
  · exact ⟨rfl, rfl, rfl⟩

theorem Dev.finishPair_of_active {d : Dev} {qid : Nat} (active : (d.pair qid).state = .active) : d.finishPair qid = d := by
  simp only [Dev.finishPair, active, reduceCtorEq, false_and, if_false]

/-- The end of an entry with CID 0xFFFF in its answer: one completion, and no command touched. -/
theorem Dev.endEntry_rejected {d : Dev} {qid : Nat} (inside : qid < 128) (untraced : d.untraced)
    (active : (d.pair qid).state = .active) (hostRing : mtype (d.pair qid).cqBase = 0)
    (up : (d.head (headOfQid qid)).linkUp = true) (alone : (d.pair (64 * headNum (headOfQid qid))).deleter = none)
    (status : Nat) (f : Fetch) :
    let x := d.endEntry qid 0xFFFF status f
    x.q.exec = d.q.exec ∧ x.q.order = d.q.order ∧
    ∃ l, x.out = d.out ++ [.hostWrite (headOfQid qid) (addrOf (d.pair qid).cqBase + 16 * (d.pair qid).cqTail)
      (d.cplBytes qid 0xFFFF status 0 (some f.index))] ++ l := by
  intro x
  let d1 := (d.send (.hostWrite (headOfQid qid) (addrOf (d.pair qid).cqBase + 16 * (d.pair qid).cqTail)
    (d.cplBytes qid 0xFFFF status 0 (some f.index)))).onPair qid (fun p => advanceCq (releaseSlot p))
  obtain ⟨n, a, l, rang⟩ := d1.interrupt_eq inside (false || decide (status / 256 ≠ 0))
  obtain ⟨-, -, -, state, deleter⟩ := advanceCq_releaseSlot (d.pair qid)
  let d2 := (d1.setPair qid { d1.pair qid with posted := n, oldestAt := a }).sendAll l
  have own : d2.pair qid = { d1.pair qid with posted := n, oldestAt := a } := d1.pair_setPair_same _ inside
  have first : d1.pair qid = advanceCq (releaseSlot (d.pair qid)) := Dev.pair_onPair_same _ _ inside
  have noTraces : d2.ev.traces = [] := untraced.2
  have stays : (d2.pair qid).state = .active := by rw [own, first]; exact state.trans active
  have admin : (d2.pair (64 * headNum (headOfQid qid))).deleter = none := by
    by_cases same : 64 * headNum (headOfQid qid) = qid
    · rw [same] at alone ⊢
      rw [own, first]
      exact deleter.trans alone
    · have other : d2.pair (64 * headNum (headOfQid qid)) = d1.pair (64 * headNum (headOfQid qid)) :=
        d1.pair_setPair_other _ inside same
      rw [other, Dev.pair_onPair_other _ _ inside same]
      exact alone
  have ended : x = d2.finishPair (adminQid (headOfQid qid)) := by
    simp only [x, Dev.endEntry, if_true]
    rw [Dev.post_of_linkUp active hostRing _ _ _ _ _ up, rang]
    rw [Dev.stageIf_of_noTraces noTraces, Dev.traceEndIf_of_noTraces noTraces, Dev.finishDelete,
      Dev.finishPair_of_active stays]
  obtain ⟨exec, order, out⟩ := Dev.finishPair_frame (qid := adminQid (headOfQid qid)) admin
  rw [ended]
  exact ⟨exec, order, l, out⟩

/-- Settles O59: both bad CIDs end the entry before it can become a command. -/
theorem rejectedEntryExecutesNothing : Obligations.RejectedEntryExecutesNothing := by
  intro d qid f e cid p x used inside untraced _ active hostRing up alone bad
  have checked : x = if cid = 0xFFFF then d.endEntry qid 0xFFFF stInvalidField f else
      d.endEntry qid 0xFFFF stCidInUse f := by
    simp only [x, Dev.entryData]
    rw [Dev.traceWho_of_noTraces untraced.2, Dev.stageIf_of_noTraces untraced.2]
    refine ite_congr rfl (fun _ => rfl) fun fresh => if_pos (bad.resolve_left fresh)
  rw [checked]
  split
  · exact Dev.endEntry_rejected inside untraced active hostRing up alone stInvalidField f
  · exact Dev.endEntry_rejected inside untraced active hostRing up alone stCidInUse f

end Sys2Proof.Machine
end

section
/-!
PROOF. Reset (19 Resets, and the tables of registers) and the throttle (17 R642).
-/

namespace Sys2Proof.Machine

/-! ### Reset -/

theorem vget_replicate {α : Type} (n : Nat) (x : α) (i : Nat) : vget x (Vector.replicate n x) i = x := by
  rw [vget, Vector.getElem?_replicate]
  split <;> rfl

theorem Reset.rail_eq (r : Nat) : State.reset.dev.rail r = Reset.rail := vget_replicate 12 Reset.rail r

theorem Reset.pair_eq (q : Nat) : State.reset.dev.pair q = Reset.qpair := vget_replicate 128 Reset.qpair q

/-- Settles O4: at reset the counter stands at 0, and every table is the empty one or a short list. -/
theorem resetIsWellFormed : Obligations.ResetIsWellFormed :=
  ⟨⟨rfl, rfl⟩, by decide +kernel, by decide +kernel, rfl⟩

/-- Settles O60: each field as the reset state has it. -/
theorem resetValuesAreTheSpecs : Obligations.ResetValuesAreTheSpecs := by
  unfold Obligations.ResetValuesAreTheSpecs
  intro d
  refine ⟨rfl, rfl, rfl, rfl, fun r => ?_, fun h => ?_, fun q _ => ?_, ?_⟩
  · rw [Reset.rail_eq]; exact ⟨rfl, rfl⟩
  · cases h <;> exact ⟨rfl, rfl, rfl, rfl, rfl⟩
  · rw [Reset.pair_eq]; rfl
  · exact ⟨rfl, rfl, rfl, rfl, rfl, rfl, rfl, rfl, rfl, rfl, rfl, rfl, rfl, rfl, rfl, rfl, rfl, rfl, rfl, rfl, rfl, rfl,
      rfl, rfl, rfl, rfl, rfl, rfl, rfl, rfl, rfl, rfl, rfl, rfl, rfl, rfl, rfl, rfl, rfl⟩

/-! ### The throttle -/

theorem factorOf_hot {readable : Nat} {tmax : Int} (h : readable < 8 ∨ degC 120 ≤ tmax) (kp kr : Nat) (rate : Int) :
    factorOf kp kr readable tmax rate = 0 := if_pos h

theorem factorOf_cool {readable : Nat} {tmax rate : Int} (read : 8 ≤ readable) (cool : tmax ≤ degC 110)
    (slow : rate ≤ 6 * rateDeg) (kp kr : Nat) : factorOf kp kr readable tmax rate = factorOne := by
  have below : ¬ (readable < 8 ∨ degC 120 ≤ tmax) := by
    simp only [degC] at *
    omega
  have eT : max 0 (tmax - degC 110) = 0 := by omega
  have eR : max 0 (rate - 6 * rateDeg) = 0 := by omega
  rw [factorOf, if_neg below]
  simp only [eT, eR, Int.mul_zero, Int.zero_mul, Int.sub_zero]
  rfl

/-- The throttle's outputs for a factor f (of factorOne). -/
theorem Dev.throttle_of_factor {d : Dev} {f : Nat}
    (h : factorOf d.therm.kp.toNat d.therm.kr.toNat ((d.therm.sensors.toList.take 16).filter Sensor.valid).length
      d.therm.tmax d.therm.rateMax = f) :
    d.throttle.therm.budget0 = max d.therm.progFloor.toNat (200 * f / factorOne) ∧
    d.throttle.therm.budgetE = max d.therm.engFloor.toNat (140 * f / factorOne) ∧
    d.throttle.therm.factor = 256 * f / factorOne := by
  subst h
  exact ⟨rfl, rfl, rfl⟩

/-- Settles O53: the factor is 0 where it is hot or unread, and one where it is cool and slow. -/
theorem throttleFollowsTemperature : Obligations.ThrottleFollowsTemperature := by
  intro d t n x
  refine ⟨rfl, Nat.le_max_left _ _, Nat.le_max_left _ _, fun hot => ?_, fun read cool slow => ?_, rfl⟩
  · obtain ⟨prog, eng, factor⟩ := Dev.throttle_of_factor (factorOf_hot hot t.kp.toNat t.kr.toNat t.rateMax)
    exact ⟨prog.trans (Nat.max_zero _), eng.trans (Nat.max_zero _), factor⟩
  · exact Dev.throttle_of_factor (factorOf_cool read cool slow t.kp.toNat t.kr.toNat)

end Sys2Proof.Machine
end

section
/-!
PROOF. Queues (11 Queue pairs; Doorbells, phase and queue errors; Command IDs and the order of commands; MSI-X;
Registers): doorbells, fetches and the entries that arrive, the start of commands, interrupts held back, and the admin pair.
-/

namespace Sys2Proof.Machine

/-! ### What the queue commands run -/

theorem exec_sqTailDb (t : Nat) (h : Head) (q : Fin 64) (v : BitVec 32) (s : State) :
    exec (.sqTailDb t h q v) s = s.after t (fun d => d.sqTail h q.val (fld v.toNat 0 12)) := rfl

theorem exec_cqHeadDb (t : Nat) (h : Head) (q : Fin 64) (v : BitVec 32) (s : State) :
    exec (.cqHeadDb t h q v) s = s.after t (fun d => d.cqHead h q.val (fld v.toNat 0 12)) := rfl

theorem exec_sqFetch (t : Nat) (h : Head) (s : State) : exec (.sqFetch t h) s = s.after t (fun d => d.sqFetch h) := rfl

theorem exec_sqEntryArrive (t : Nat) (qid : BitVec 7) (ending : FetchEnd) (s : State) :
    exec (.sqEntryArrive t qid ending) s = s.after t (fun d =>
      if d.life.running && d.queuesServed then d.entryArrive qid.toNat ending else d) := rfl

theorem exec_orderedStart (t : Nat) (qid : BitVec 7) (cid : BitVec 16) (s : State) :
    exec (.orderedStart t qid cid) s = s.after t (fun d =>
      if d.life.running then d.orderedStart qid.toNat cid.toNat else d) := rfl

theorem exec_msixItimeExpire (t : Nat) (qid : BitVec 7) (s : State) :
    exec (.msixItimeExpire t qid) s = s.after t (fun d => d.itimeExpire qid.toNat) := rfl

theorem exec_admqEn (t : Nat) (h : Head) (v : BitVec 32) (s : State) :
    exec (.admqEn t h v) s = s.after t (fun d => d.admqEn h (v.toNat.testBit 0)) := rfl

theorem exec_admqRdy (t : Nat) (h : Head) (s : State) : exec (.admqRdy t h) s = s.after t (fun d => d.admqRdy h) := rfl

/-! ### Doorbells -/

theorem Dev.doorbell_of_active {d : Dev} {h : Head} {q : Nat} (on : d.headOn h = true)
    (active : (d.pair (qidOf h q)).state = .active) (f : Dev → QPair → Dev) :
    d.doorbell h q f = f d (d.pair (qidOf h q)) := by
  simp only [Dev.doorbell, on, active, Bool.true_eq_false, if_false]

/-- Settles O15: a doorbell of an ACTIVE queue is its own work, and a pair's error is one change of that pair. -/
theorem doorbellsMoveTheRing : Obligations.DoorbellsMoveTheRing := by
  constructor
  · intro s t h q v d qid p n on active
    rw [exec_sqTailDb, exec_cqHeadDb]
    exact ⟨State.after_eq (Dev.doorbell_of_active on active _), State.after_eq (Dev.doorbell_of_active on active _)⟩
  · exact fun d qid cause inside active => ⟨Dev.pair_pairError_same inside active cause,
      fun _ ne => Dev.pair_pairError_other inside active cause ne⟩

/-! ### Fetches -/

section

variable {d : Dev} {h : Head}

theorem Dev.draw_of_off (off : d.ev.trEn = false) (kind who : Nat) : d.draw kind h who = (d, none) := by
  simp only [Dev.draw, off, Bool.false_and, Bool.false_eq_true, if_false]

theorem Dev.fetchFrom_of_untraced (untraced : d.untraced) (q : Nat) :
    d.fetchFrom h q =
      let qid := qidOf h q
      let p := d.pair qid
      ((d.setPair qid { p with
        sqHead := (p.sqHead + 1) % p.sqDepth, slots := p.slots + 1,
        fetching := p.fetching ++ [{ index := p.sqHead, start := d.now, seq := d.ev.headSeq,
                                     toggle := d.ev.toggle, tag := none }] }).setRr h ((q + 1) % 64)).send
        (.fetch qid p.sqHead) := by
  simp only [Dev.fetchFrom, Dev.draw_of_off untraced.1]

theorem Dev.sqFetch_of_turn {q : Nat} (on : d.headOn h = true) (served : d.queuesServed = true)
    (calm : d.ev.attnLevel (.head h) ≠ 7) (few : d.inFlight h < 1024) (turn : d.nextQueue h = some q) :
    d.sqFetch h = d.fetchFrom h q := by
  have may : (d.headOn h && d.queuesServed && decide (d.ev.attnLevel (.head h) ≠ 7) && decide (d.inFlight h < 1024)) = true := by
    simp only [on, served, calm, few, ne_eq, not_false_eq_true, decide_true, Bool.and_self]
  simp only [Dev.sqFetch, may, if_true, turn]

/-- R391, R525: no fetch at ATTN 7, nor with 1,024 commands in flight. -/
theorem Dev.sqFetch_of_held (held : d.ev.attnLevel (.head h) = 7 ∨ 1024 ≤ d.inFlight h) : d.sqFetch h = d := by
  refine if_neg ?_
  rw [Bool.and_eq_true, Bool.and_eq_true, decide_eq_true_eq, decide_eq_true_eq]
  rintro ⟨⟨_, calm⟩, few⟩
  exact held.elim calm (Nat.not_le.mpr few)

end

/-! ### The entry that arrives -/

section

variable {d : Dev} {qid : Nat} {f : Fetch} {rest : List Fetch} (oldest : (d.pair qid).fetching = f :: rest)
  (hostRing : mtype (d.pair qid).sqBase = 0)

theorem Dev.ringEntry_of_host {base : Word} (hostRing : mtype base = 0) (d : Dev) (h : Head) (i : Nat) (ending : FetchEnd) :
    d.ringEntry h base i ending = (d, ending) := by
  rw [Dev.ringEntry, if_neg (by rw [hostRing]; exact Nat.zero_ne_one)]

include oldest hostRing

theorem Dev.entryArrive_data (e : Sector) :
    d.entryArrive qid (.data e) = (d.setPair qid { d.pair qid with fetching := rest }).entryData qid f e := by
  simp only [Dev.entryArrive, oldest, Dev.ringEntry_of_host hostRing]

theorem Dev.entryArrive_poison :
    d.entryArrive qid .poison = (d.setPair qid { d.pair qid with fetching := rest }).endEntry qid 0xFFFF stPoisonConsumed f := by
  simp only [Dev.entryArrive, oldest, Dev.ringEntry_of_host hostRing]

theorem Dev.entryArrive_linkError :
    d.entryArrive qid .linkError = ((((d.setPair qid { d.pair qid with fetching := rest }).pairError qid 3).onPair qid
      releaseSlot).traceEndIf (traceTag f.tag)) := by
  simp only [Dev.entryArrive, oldest, Dev.ringEntry_of_host hostRing]

end

theorem State.after_entryArrive_eq {s : State} {t qid : Nat} {ending : FetchEnd} {d : Dev}
    (run : (s.before t).life.running = true) (served : (s.before t).queuesServed = true)
    (work : (s.before t).entryArrive qid ending = d) :
    s.after t (fun d => if d.life.running && d.queuesServed then d.entryArrive qid ending else d) = .next (s.leave t d) := by
  refine State.after_eq ((if_pos ?_).trans work)
  rw [run, served, Bool.and_self]

/-- Settles O16: a fetch in its turn and one held back, and the three ways in which the oldest fetch ends. -/
theorem fetchesReserveAndEnd : Obligations.FetchesReserveAndEnd := by
  constructor
  · intro s t h q d qid p
    rw [State.idle, exec_sqFetch]
    refine ⟨fun held => State.after_eq (Dev.sqFetch_of_held held), fun on served untraced few calm turn => ?_⟩
    exact State.after_eq ((Dev.sqFetch_of_turn on served calm few turn).trans (Dev.fetchFrom_of_untraced untraced q))
  · intro s t qid f rest d n d1 run served oldest hostRing
    rw [exec_sqEntryArrive, exec_sqEntryArrive]
    refine ⟨fun e => ?_, ?_, ?_⟩
    · rw [exec_sqEntryArrive]
      exact State.after_entryArrive_eq run served (Dev.entryArrive_data oldest hostRing e)
    · exact State.after_entryArrive_eq run served (Dev.entryArrive_poison oldest hostRing)
    · exact State.after_entryArrive_eq run served (Dev.entryArrive_linkError oldest hostRing)

/-! ### Commands start -/

theorem startExec_append_self (c : Nat) {x : Exec} {l : List Exec} (new : x ∉ l) :
    startExec c x (l ++ [x]) = l ++ [{ x with started := true, cluster := c }] := by
  have keeps : startExec c x l = l := by
    refine (List.map_congr_left fun y hy => if_neg ?_).trans (List.map_id l)
    rintro rfl
    exact new hy
  rw [startExec, List.map_append, ← startExec, keeps, List.map_singleton, if_pos rfl]

theorem Dev.mayStart_of_unordered {d : Dev} {x : Exec} (free : x.ordered = false) : d.mayStart x = true := by
  rw [Dev.mayStart, free, Bool.not_false, Bool.true_or]

/-- Every other command of the queue was fetched later, and no completion of it waits (R405). -/
theorem Dev.mayStart_of_first {d : Dev} {x : Exec} (first : ∀ y ∈ d.q.exec, y.qid = x.qid → x.order ≤ y.order)
    (posted : d.postPending x.qid = false) : d.mayStart x = true := by
  have none : d.q.exec.any (fun y => y.qid == x.qid && y.orphan == x.orphan && decide (y.order < x.order)) = false := by
    refine Bool.eq_false_iff.mpr fun found => ?_
    obtain ⟨y, hy, earlier⟩ := List.any_eq_true.mp found
    simp only [Bool.and_eq_true, beq_iff_eq, decide_eq_true_eq] at earlier
    exact Nat.not_le.mpr earlier.2 (first y hy earlier.1.1)
  rw [Dev.mayStart, none, posted, Bool.not_false, Bool.and_self, Bool.or_true]

theorem Dev.mayStart_of_earlier {d : Dev} {x : Exec} (ordered : x.ordered = true)
    (waits : ∃ y ∈ d.q.exec, y.qid = x.qid ∧ y.orphan = x.orphan ∧ y.order < x.order) : d.mayStart x = false := by
  obtain ⟨y, hy, own, orphan, earlier⟩ := waits
  have found : d.q.exec.any (fun y => y.qid == x.qid && y.orphan == x.orphan && decide (y.order < x.order)) = true := by
    refine List.any_eq_true.mpr ⟨y, hy, ?_⟩
    simp only [own, orphan, earlier, beq_self_eq_true, decide_true, Bool.and_self]
  rw [Dev.mayStart, ordered, found]; rfl

theorem Dev.entryData_of_good {d : Dev} {qid : Nat} {f : Fetch} {e : Sector} (noTraces : d.ev.traces = [])
    (own : fld e.toNat 16 16 ≠ 0xFFFF)
    (free : d.q.exec.any (fun y => y.qid == qid && y.cid == fld e.toNat 16 16 && !y.orphan) = false)
    (good : d.rejects qid (fld e.toNat 0 8) (fld e.toNat 8 8) (fld e.toNat 32 32)
      ((upTo 7).map (fun i => BitVec.ofNat 64 (fld e.toNat (64 + 64 * i) 64))) = none) :
    d.entryData qid f e = d.dispatch qid (fld e.toNat 16 16) (fld e.toNat 0 8) (fld e.toNat 8 8)
      ((upTo 7).map (fun i => BitVec.ofNat 64 (fld e.toNat (64 + 64 * i) 64))) f := by
  simp only [Dev.entryData]
  rw [Dev.traceWho_of_noTraces noTraces, Dev.stageIf_of_noTraces noTraces, if_neg own, free, if_neg Bool.false_ne_true, good]

theorem Dev.start_exec (d : Dev) (x : Exec) : (d.start x).q.exec = startExec (d.servedBy x.qid) x d.q.exec := rfl

theorem Dev.orderedStart_of_found {d : Dev} {qid cid : Nat} {x : Exec}
    (found : d.q.exec.find? (fun y => y.qid == qid && y.cid == cid && !y.started) = some x) :
    d.orderedStart qid cid = if d.mayStart x then d.start x else d := by
  simp only [Dev.orderedStart, found]

/-- Settles O17: a good entry is dispatched, and an ORDERED command starts when mayStart lets it. -/
theorem commandsStartInOrder : Obligations.CommandsStartInOrder := by
  constructor
  · intro d qid f e op flags cid ps x untraced tag own free good
    rw [Dev.entryData_of_good untraced.2 own free good]
    let d1 : Dev := { d with q := { d.q with exec := d.q.exec ++ [x], order := d.q.order + 1 } }
    have taken : d.dispatch qid cid op flags ps f = if d1.mayStart x then d1.start x else d1 := by
      simp only [Dev.dispatch, tag]; rfl
    rw [taken]
    constructor
    · split <;> rfl
    · intro unordered new
      rw [Dev.mayStart_of_unordered unordered, if_pos rfl, Dev.start_exec]
      exact startExec_append_self _ new
  · intro s t qid cid x d run found
    rw [State.idle, exec_orderedStart]
    have runs {d' : Dev} (h : d.orderedStart qid.toNat cid.toNat = d') :
        s.after t (fun d => if d.life.running then d.orderedStart qid.toNat cid.toNat else d) = .next (s.leave t d') :=
      State.after_eq ((if_pos run).trans h)
    rw [Dev.orderedStart_of_found found] at runs
    refine ⟨fun ready => ?_, fun ordered earlier => ?_⟩
    · have may : d.mayStart x = true :=
        ready.elim Dev.mayStart_of_unordered fun first => Dev.mayStart_of_first first.1 first.2
      exact runs (by rw [may, if_pos rfl])
    · exact runs (by rw [Dev.mayStart_of_earlier ordered earlier, if_neg Bool.false_ne_true])

/-! ### Interrupts held back, and the admin pair -/

theorem Dev.itimeExpire_of_due {d : Dev} {qid : Nat} (ien : (d.pair qid).ien = true) (posted : 0 < (d.pair qid).posted)
    (timed : (d.pair qid).itime ≠ 0) (due : (d.pair qid).oldestAt + (d.pair qid).itime * 1000 ≤ d.now) :
    d.itimeExpire qid =
      (d.setPair qid { d.pair qid with posted := 0 }).send (.msix (headOfQid qid) (d.pair qid).vector) := by
  simp only [Dev.itimeExpire, ien, posted, timed, ne_eq, not_false_eq_true, Dev.due, usNs, due, decide_true, Bool.and_self, if_true]

section

variable {d : Dev} {h : Head} (on : d.headOn h = true)

include on

theorem Dev.admqEn_on (off : (d.adm h).en = false) :
    d.admqEn h true = (d.setAdm h { d.adm h with en := true, rdy := false, enAt := d.now }).noteCfg h := by
  simp only [Dev.admqEn, on, off, Bool.true_eq_false, Bool.false_eq_true, or_self, if_true, if_false]

theorem Dev.admqEn_off (was : (d.adm h).en = true) :
    d.admqEn h false = (d.setAdm h { d.adm h with en := false, rdy := false }).deletePair (64 * headNum h) none := by
  simp only [Dev.admqEn, on, was, Bool.true_eq_false, Bool.false_eq_true, or_self, if_false, adminQid]

theorem Dev.admqRdy_of_enabled (en : (d.adm h).en = true) (rdy : (d.adm h).rdy = false)
    (good : cfgOk (d.adm h).cfg.toNat = true) (absent : (d.pair (64 * headNum h)).state = .absent) :
    d.admqRdy h = (d.setAdm h { d.adm h with rdy := true }).setPair (64 * headNum h)
      { Reset.qpair with
        state := .active, sqBase := (d.adm h).sqBase, cqBase := (d.adm h).cqBase,
        sqDepth := fld (d.adm h).cfg.toNat 0 12 + 1, cqDepth := fld (d.adm h).cfg.toNat 12 12 + 1,
        vector := fld (d.adm h).cfg.toNat 24 6, ien := (d.adm h).cfg.toNat.testBit 30, icount := 1, itime := 0 } := by
  simp only [Dev.admqRdy, en, rdy, good, on, adminQid, absent, Bool.not_false, Bool.and_self, decide_true, if_true, newPair]

end

theorem Dev.adm_setAdm (d : Dev) (h : Head) (x : AdmQ) : (d.setAdm h x).adm h = x := by cases h <;> rfl

/-- R419: the enable of a pair with a good ADMQ_CFG, and with a reserved value in it. -/
theorem Dev.noteCfg_of_enabled {d : Dev} {h : Head} (en : (d.adm h).en = true) (rdy : (d.adm h).rdy = false) :
    d.noteCfg h = if cfgOk (d.adm h).cfg.toNat = true then d else
      d.onPair (64 * headNum h) (fun p => { p with errCause := 1 }) := by
  simp only [Dev.noteCfg, en, rdy, Bool.not_false, Bool.and_self, Bool.true_and]
  cases cfgOk (d.adm h).cfg.toNat <;> rfl

/-- Settles O18: each command has its equation. -/
theorem coalescedInterruptAndAdminPair : Obligations.CoalescedInterruptAndAdminPair := by
  intro s t d
  refine ⟨fun qid ien posted timed due => ?_, fun h v on => ⟨fun set off good => ?_, fun set off bad => ?_,
    fun clear was => ?_, fun en rdy good absent => ?_⟩⟩
  · rw [exec_msixItimeExpire]
    exact State.after_eq (Dev.itimeExpire_of_due ien posted timed due)
  · rw [exec_admqEn, set]
    refine State.after_eq ((Dev.admqEn_on on off).trans ?_)
    rw [Dev.noteCfg_of_enabled (by rw [Dev.adm_setAdm]) (by rw [Dev.adm_setAdm]), Dev.adm_setAdm, if_pos good]
  · rw [exec_admqEn, set]
    refine State.after_eq ((Dev.admqEn_on on off).trans ?_)
    rw [Dev.noteCfg_of_enabled (by rw [Dev.adm_setAdm]) (by rw [Dev.adm_setAdm]), Dev.adm_setAdm,
      if_neg (Bool.eq_false_iff.mp bad)]
  · rw [exec_admqEn, clear]
    exact State.after_eq (Dev.admqEn_off on was)
  · rw [exec_admqRdy]
    exact State.after_eq (Dev.admqRdy_of_enabled on en rdy good absent)

end Sys2Proof.Machine
end

section
/-!
PROOF. Host reads and writes (05 Organisation; 09 From host address to line; 04 Acceptance, The EXPOSED state): which of its
paths a read or a write takes.
-/

namespace Sys2Proof.Machine

theorem exec_memrd (t : Nat) (h : Head) (tag : Nat) (hpa : Word) (s : State) :
    exec (.memrd t h tag hpa) s = s.after t (fun d => d.memrd h tag hpa.toNat) := rfl

theorem exec_memwr (t : Nat) (h : Head) (tag : Nat) (hpa : Word) (data : Sector) (poison : Bool) (s : State) :
    exec (.memwr t h tag hpa data poison) s = s.after t (fun d => d.memwr h tag hpa.toNat data poison) := rfl

/-! ### The paths of a read -/

section

variable {d : Dev} {h : Head} {hpa : Nat} (tag : Nat) (linked : d.linked h = true)

include linked

theorem Dev.memrd_of_live (ready : d.memoryReady = true) {id off : Nat} {r : Region}
    (live : (d.count (cntHead h 0) 1).resolve h (d.dpaOf h hpa) = some (id, r, off))
    (unlocked : ((d.count (cntHead h 0) 1).depthCount h r id (off / 256)).readLocked r (off / 256) = false) :
    d.memrd h tag hpa =
      ((d.count (cntHead h 0) 1).depthCount h r id (off / 256)).readLine h tag r id (off / 256) (off % 256 / 64) := by
  have ready0 : (d.count (cntHead h 0) 1).memoryReady = true := ready
  simp only [Dev.memrd, linked, Bool.true_eq_false, if_false, ready0, if_true, live, unlocked, Bool.false_eq_true]

theorem Dev.memrd_of_dead
    (dead : d.memoryReady = false ∨ (d.count (cntHead h 0) 1).resolve h (d.dpaOf h hpa) = none) :
    d.memrd h tag hpa = ((d.count (cntHead h 0) 1).returnData h tag 0 true).mediaRecord h .failure
      (d.dpaOf h hpa / 256 * 256) 6 0 ((d.count (cntHead h 0) 1).lineAt (d.dpaOf h hpa)).1
      ((d.count (cntHead h 0) 1).lineAt (d.dpaOf h hpa)).2 := by
  have nothing : (if (d.count (cntHead h 0) 1).memoryReady then
      (d.count (cntHead h 0) 1).resolve h (d.dpaOf h hpa) else none) = none := by
    split
    · next ready => exact dead.resolve_left fun notReady => Bool.false_ne_true (notReady.symm.trans ready)
    · rfl
  simp only [Dev.memrd, linked, Bool.true_eq_false, if_false, nothing]

end

section

variable {d : Dev} {h : Head} {region line sector : Nat} {r : Region} (tag : Nat) (untraced : d.untraced)

/-- The device as a read finds it once it is counted and its line is checked. -/
def Dev.readDev (d : Dev) (r : Region) (region line : Nat) : Dev :=
  (((d.regionCount region 0 1).readStage region line 0).readStage region line 1).checkLine r region line

include untraced

theorem Dev.readLine_of_copy {x : Copy} (copy : (d.readDev r region line).sectorCopy r region line sector = some x)
    (noWay : (d.readDev r region line).findWay r region line = none) :
    d.readLine h tag r region line sector = (d.readDev r region line).hit h tag region line sector x := by
  simp only [Dev.readDev] at *
  simp only [Dev.readLine, Dev.draw_of_off untraced.1, copy, noWay]

theorem Dev.readLine_of_copy_way {x : Copy} {k : Nat} {w : Way}
    (copy : (d.readDev r region line).sectorCopy r region line sector = some x)
    (way : (d.readDev r region line).findWay r region line = some (k, w)) :
    d.readLine h tag r region line sector = ((d.readDev r region line).touch k).hit h tag region line sector x := by
  simp only [Dev.readDev] at *
  simp only [Dev.readLine, Dev.draw_of_off untraced.1, copy, way]

theorem Dev.readLine_of_miss (copy : (d.readDev r region line).sectorCopy r region line sector = none)
    (side : (d.readDev r region line).cache.sideConfirmed region line = none) :
    d.readLine h tag r region line sector = (d.readDev r region line).miss h tag r region line sector := by
  simp only [Dev.readDev] at *
  simp only [Dev.readLine, Dev.draw_of_off untraced.1, copy, side]

end

/-! ### The response of a hit -/

theorem sectorOf_setSector_zero (x : Sector) {s : Nat} (h : s < 4) : sectorOf (setSector 0 s x) s = x := by
  refine BitVec.eq_of_getLsbD_eq fun i hi => ?_
  have inside : 512 * s + i < 2048 := by omega
  simp [sectorOf, setSector, hi, inside]

theorem hasSec_addSec_zero {s : Nat} (h : s < 4) : hasSec (addSec 0 s) s = true := by
  have small : ∀ s : Fin 4, hasSec (addSec 0 s.val) s.val = true := by decide
  exact small ⟨s, h⟩

theorem hasSec_zero (s : Nat) : hasSec 0 s = false := Nat.zero_testBit s

theorem Dev.when_out {d : Dev} {f : Dev → Dev} (h : (f d).out = d.out) (c : Bool) : (d.when c f).out = d.out := by
  cases c
  · rfl
  · exact h

theorem Dev.bwHead_out (d : Dev) (h : Head) (rd wr : Nat) : (d.bwHead h rd wr).out = d.out := by
  rw [Dev.bwHead]; split <;> rfl

theorem Dev.returnData_out (d : Dev) (h : Head) (tag : Nat) (data : Sector) (poison : Bool) :
    (d.returnData h tag data poison).out = d.out ++ [.readData h tag (if poison then 0 else data) poison] := by
  simp only [Dev.returnData]
  rw [Dev.when_out rfl, Dev.bwHead_out]; rfl

theorem Dev.answer_out (d : Dev) (h : Head) (tag region sector : Nat) (x : Loaded) :
    (d.answer h tag region sector x).out = d.out ++
      [.readData h tag (if hasSec x.poison sector then 0 else sectorOf x.data sector) (hasSec x.poison sector)] := by
  simp only [Dev.answer]
  rw [Dev.when_out rfl]
  exact d.returnData_out h tag _ _

theorem Dev.bwHead_traces (d : Dev) (h : Head) (rd wr : Nat) : (d.bwHead h rd wr).ev.traces = d.ev.traces := by
  rw [Dev.bwHead]; split <;> rfl

theorem Dev.count_trEn (d : Dev) (n k : Nat) : (d.count n k).ev.trEn = d.ev.trEn := rfl

theorem Dev.bwHead_trEn (d : Dev) (h : Head) (rd wr : Nat) : (d.bwHead h rd wr).ev.trEn = d.ev.trEn := by
  rw [Dev.bwHead]; split <;> rfl

theorem Dev.when_traces {d : Dev} {f : Dev → Dev} (h : (f d).ev.traces = d.ev.traces) (c : Bool) :
    (d.when c f).ev.traces = d.ev.traces := by
  cases c
  · rfl
  · exact h

theorem Dev.answer_traces (d : Dev) (h : Head) (tag region sector : Nat) (x : Loaded) :
    (d.answer h tag region sector x).ev.traces = d.ev.traces := by
  simp only [Dev.answer, Dev.returnData]
  rw [Dev.when_traces rfl]
  show (Dev.when _ _ _).ev.traces = _
  rw [Dev.when_traces rfl, Dev.bwHead_traces]; rfl

/-- With no request traced a hit sends its sector, and zeros where it is poisoned. -/
theorem Dev.hit_out {d : Dev} {sector : Nat} (untraced : d.untraced) (inside : sector < 4) (h : Head) (tag region line : Nat)
    (x : Copy) : (d.hit h tag region line sector x).out =
      d.out ++ [.readData h tag (if x.poison then 0 else x.data) x.poison] := by
  have traces (l : Loaded) : ((d.count (cntCache 0) 1).answer h tag region sector l).ev.traces = [] :=
    (Dev.answer_traces _ _ _ _ _ _).trans untraced.2
  simp only [Dev.hit, Dev.readStage]
  rw [Dev.stageIf_of_noTraces (traces _), Dev.traceEndIf_of_noTraces (traces _), Dev.answer_out]
  cases x.poison with
  | true => simp only [if_true, hasSec_addSec_zero inside, Dev.count_out]
  | false => simp only [Bool.false_eq_true, if_false, hasSec_zero, sectorOf_setSector_zero _ inside, Dev.count_out]

/-- Settles O7: the paths of a read, and the response of a hit. -/
theorem hostReadAnswers : Obligations.HostReadAnswers := by
  constructor
  · intro s t h tag hpa d dpa d0 linked
    rw [exec_memrd]
    refine ⟨?_, fun dead => State.after_eq (Dev.memrd_of_dead tag linked dead)⟩
    intro ready id r off live d1 unlocked untraced d2
    have runs {d' : Dev} (work : d1.readLine h tag r id (off / 256) (off % 256 / 64) = d') :
        s.after t (fun d => d.memrd h tag hpa.toNat) = .next (s.leave t d') :=
      State.after_eq ((Dev.memrd_of_live tag linked ready live unlocked).trans work)
    exact ⟨fun x copy noWay => runs (Dev.readLine_of_copy tag untraced copy noWay),
      fun x k w copy way => runs (Dev.readLine_of_copy_way tag untraced copy way),
      fun copy side => runs (Dev.readLine_of_miss tag untraced copy side)⟩
  · exact fun d h tag region line sector x untraced inside => Dev.hit_out untraced inside h tag region line x

/-! ### Writes -/

section

variable {d : Dev} {h : Head} {hpa : Nat} (tag : Nat) (data : Sector) (poison : Bool) (linked : d.linked h = true)
  (ready : d.memoryReady = true) (credit : 0 < (d.head h).credits)

/-- A write that a head has a credit for, counted (R134). -/
def Dev.writeDev (d : Dev) (h : Head) : Dev :=
  (((d.onHead h (fun x => { x with credits := x.credits - 1 })).count (cntHead h 1) 1).count (cntHead h 3) 64).bwHead h 0 64

include linked ready credit

theorem Dev.memwr_of_live {id off : Nat} {r : Region}
    (live : (d.writeDev h).resolve h ((d.writeDev h).dpaOf h hpa) = some (id, r, off))
    (unlocked : (d.writeDev h).writeLocked r (off / 256) = false)
    (taken : (d.writeDev h).writeRefused r id (off / 256) = false) :
    d.memwr h tag hpa data poison = (d.writeDev h).acceptWrite h tag r id (off / 256) (off % 256 / 64) data poison := by
  simp only [Dev.writeDev] at *
  simp only [Dev.memwr, linked, ready, Bool.true_eq_false, if_false, credit.ne', live, unlocked, taken, Bool.false_eq_true]

theorem Dev.memwr_of_dead (dead : (d.writeDev h).resolve h ((d.writeDev h).dpaOf h hpa) = none) :
    d.memwr h tag hpa data poison =
      ((d.writeDev h).deadWrite h ((d.writeDev h).dpaOf h hpa)).send (.writeDone h tag) := by
  simp only [Dev.writeDev] at *
  simp only [Dev.memwr, linked, ready, Bool.true_eq_false, if_false, credit.ne', dead]

end

theorem Dev.writeDev_trEn (d : Dev) (h : Head) : (d.writeDev h).ev.trEn = d.ev.trEn := by
  rw [Dev.writeDev, Dev.bwHead_trEn, Dev.count_trEn, Dev.count_trEn, Dev.onHead, Dev.setHead_ev]

theorem Dev.acceptWrite_of_off {d : Dev} (off : d.ev.trEn = false) (h : Head) (tag : Nat) (r : Region)
    (region line sector : Nat) (data : Sector) (poison : Bool) :
    d.acceptWrite h tag r region line sector data poison =
      (((((d.regionCount region 1 1).regionCount region 3 64).writeStage region line 0).accept r region line sector
        ⟨data, poison, 1⟩).writeStage region line 1).finishWrite h tag region line := by
  simp only [Dev.acceptWrite, Dev.draw_of_off off]

/-- Outside EXPOSED a write is complete at once (R134). -/
theorem Dev.finishWrite_of_open {d : Dev} (open_ : d.bench.exposed = false) (h : Head) (tag region line : Nat) :
    d.finishWrite h tag region line = (d.send (.writeDone h tag)).writeStage region line 2 := by
  simp only [Dev.finishWrite, open_, Bool.false_eq_true, if_false]

/-- Settles O8: the paths of a write, and its end outside EXPOSED. -/
theorem hostWriteCompletes : Obligations.HostWriteCompletes := by
  constructor
  · intro s t h tag hpa data poison d d1 dpa linked ready credit
    rw [exec_memwr]
    refine ⟨?_, fun dead => State.after_eq (Dev.memwr_of_dead tag data poison linked ready credit dead)⟩
    intro id r off live unlocked taken off'
    exact State.after_eq ((Dev.memwr_of_live tag data poison linked ready credit live unlocked taken).trans
      (Dev.acceptWrite_of_off ((d.writeDev_trEn h).trans off') _ _ _ _ _ _ _ _))
  · intro d h tag region line open_
    rw [Dev.finishWrite_of_open open_]
    exact ⟨rfl, rfl⟩

end Sys2Proof.Machine
end

section
/-!
PROOF. The mailbox and firmware commits (09 CXL support; 19 Firmware slots and live update): each command on a mailbox that
is reached is its own work and one reply; the checks of a commit; the reload of a held cluster.
-/

namespace Sys2Proof.Machine

/-! ### The mailbox -/

section

variable {d : Dev} {h : Head} (on : d.boxOn h = true)

include on

theorem Dev.mailbox_of_on (f : Dev → Dev × Reply) : d.mailbox h f = (f d).1.send (.mailbox h .success (f d).2) :=
  if_pos on

theorem Dev.report_of_on (r : Dev → Reply) : d.report h r = d.send (.mailbox h .success (r d)) := if_pos on

theorem Dev.unsupported_of_on : d.unsupported h = d.send (.mailbox h .unsupported .none) := if_pos on

theorem Dev.setTimestamp_of_on {ns : Nat} (some_ : ns ≠ 0) :
    d.setTimestamp h ns = (d.takeTime ns).send (.mailbox h .success .none) := by
  rw [Dev.setTimestamp, if_pos on, if_neg some_]

end

/-- Settles O12: each reporting command is one reply over a mailbox that is reached. -/
theorem mailboxReports : Obligations.MailboxReports := by
  intro s t h d reply on
  have reported (r : Dev → Reply) : s.after t (fun d => d.report h r) = reply (r d) :=
    State.after_eq (Dev.report_of_on on r)
  exact ⟨fun _ => reported _, reported _, reported _, reported _, reported _, reported _, reported _, reported _,
    reported _, reported _, fun _ _ => reported _, reported _⟩

/-- Settles O13: each setting command is its own work and one reply over a mailbox that is reached. -/
theorem mailboxSets : Obligations.MailboxSets := by
  constructor
  · intro s t h d done on
    have sets (f : Dev → Dev) : s.after t (fun d => d.mailbox h (fun d => (f d, .none))) = done (f d) :=
      State.after_eq (Dev.mailbox_of_on on _)
    refine ⟨fun _ => sets _, fun _ => sets _, fun log handles => sets (fun d => d.onHead h (clearRecords log handles)),
      fun off bytes => State.after_eq (f := fun d => if d.boxOn h then d.transferFw h off.toNat bytes else d) (if_pos on),
      fun _ _ => sets _, fun ns set => ?_⟩
    have some_ : ns.toNat ≠ 0 := fun zero => set (BitVec.eq_of_toNat_eq zero)
    exact State.after_eq (f := fun d => d.setTimestamp h ns.toNat) (Dev.setTimestamp_of_on on some_)
  · exact fun s t h on => ⟨State.after_eq (Dev.unsupported_of_on on), fun _ => State.after_eq (Dev.unsupported_of_on on)⟩

/-! ### Firmware -/

theorem Dev.fwCommit_of_none {d : Dev} (none_ : d.sec.commit = none) (x : Exec) :
    d.fwCommit x = d.commitFw (.cmd x.qid x.cid) ((x.p 0).toNat.testBit 0) (BitVec.ofNat 4 (x.pn 0 4 4))
      ((x.p 0).toNat.testBit 8) := by
  simp only [Dev.fwCommit, none_]

theorem Dev.reloadDone_of_held {d : Dev} {c : Nat} (held : d.sec.held.toNat.testBit c = true)
    (loads : d.loadable (d.sec.active.toNat.testBit c) c = true) :
    d.reloadDone c = d.runOn c (d.sec.active.toNat.testBit c) := by
  rw [Dev.reloadDone, if_pos held, Dev.heldLoaded, if_pos loads]

/-- Settles O14: the checks of a commit, the two ways to ask for one, and the reload of a held cluster. -/
theorem firmwareCommits : Obligations.FirmwareCommits := by
  refine ⟨fun _ _ _ _ _ => rfl, fun s t => ⟨fun h slot mask activate on => ?_, fun qid cid x performs none_ => ?_,
    fun c running held loads => ?_⟩⟩
  · exact State.after_eq (f := fun d => if d.boxOn h then d.commitFw (.box h) slot mask activate else d) (if_pos on)
  · exact State.after_command_eq performs (Dev.fwCommit_of_none none_ x)
  · exact State.after_eq (f := fun d => if d.life.running then d.reloadDone c.val else d)
      ((if_pos running).trans (Dev.reloadDone_of_held held loads))

end Sys2Proof.Machine
end

section
/-!
PROOF. What queue commands deliver (11 Submission entries, IDENTIFY, The log's reading) and how pairs are made and deleted
(11 Queue pairs).
-/

namespace Sys2Proof.Machine

/-! ### Where a result goes -/

section

variable {d : Dev} {x : Exec} {w : Word} (ans : Answers) (bs : List Byte) (result : Nat)

theorem Dev.saveRefused_of_mtype_ne {h : Head} {n : Nat} (other : mtype w ≠ 1) : d.saveRefused h w n = false := by
  rw [Dev.saveRefused]
  split
  · next one => exact absurd one other
  · rfl

theorem Dev.deliver_of_refused (refused : d.saveRefused (issuer x) w bs.length = true) :
    d.deliver ans x w bs result = d.refuse x := if_pos refused

theorem Dev.deliver_of_taken (taken : d.saveRefused (issuer x) w bs.length = false) :
    d.deliver ans x w bs result = (d.saveCmd ans x w bs).1.complete x (lostStatus (d.saveCmd ans x w bs).2)
      (if (d.saveCmd ans x w bs).2 then 0 else result) :=
  if_neg (ne_true_of_eq_false taken)

theorem Dev.deliver_to_host (host : mtype w = 0) : d.deliver ans x w bs result =
    (d.send (.hostWrite (issuer x) (addrOf w) bs)).complete x stSuccess result := by
  have taken : d.saveRefused (issuer x) w bs.length = false :=
    Dev.saveRefused_of_mtype_ne (by rw [host]; exact Nat.zero_ne_one)
  rw [Dev.deliver_of_taken ans bs result taken]
  simp only [Dev.saveCmd, host, lostStatus, Bool.false_eq_true, if_false]

theorem Dev.deliver_to_scratch (scratch : mtype w = 2) : d.deliver ans x w bs result =
    (d.scratchStore (addrOf w) bs).complete x stSuccess result := by
  have taken : d.saveRefused (issuer x) w bs.length = false :=
    Dev.saveRefused_of_mtype_ne (by rw [scratch]; decide)
  rw [Dev.deliver_of_taken ans bs result taken]
  simp only [Dev.saveCmd, scratch, lostStatus, Bool.false_eq_true, if_false]

theorem Dev.saveCmd_of_live {id off : Nat} {r : Region} (device : mtype w = 1)
    (live : d.liveRange (issuer x) (addrOf w) bs.length = some (id, r, off)) :
    d.saveCmd ans x w bs = d.storeAll ans (.cmd x.order) (issuer x) id off bs := by
  simp only [Dev.saveCmd, device, live]

theorem Dev.saveCmd_of_lost (device : mtype w = 1) (lost : d.liveRange (issuer x) (addrOf w) bs.length = none) :
    d.saveCmd ans x w bs = (d.lostStore (issuer x) (linePieces (addrOf w % 256) bs.length).length, true) := by
  simp only [Dev.saveCmd, device, lost]

theorem Dev.saveRefused_of_lost {h : Head} {n : Nat} (lost : d.liveRange h (addrOf w) n = none) :
    d.saveRefused h w n = false := by
  simp only [Dev.saveRefused, lost]
  split <;> rfl

theorem Dev.complete_of_waits (waits : d.waits x = true) (status : Nat) :
    d.complete x status result = d.addLater (.ends x.order status result) := if_pos waits

end

/-- Settles O20: the three places a result goes to, the two that refuse it, and the completion that waits. -/
theorem resultsAreDelivered : Obligations.ResultsAreDelivered := by
  intro d ans x w bs result
  refine ⟨Dev.deliver_to_host ans bs result, Dev.deliver_to_scratch ans bs result, Dev.deliver_of_refused ans bs result,
    fun id r off device taken live => ?_, fun device lost => ?_, fun status waits => Dev.complete_of_waits result waits status⟩
  · rw [Dev.deliver_of_taken ans bs result taken, Dev.saveCmd_of_live ans bs device live]
    rfl
  · rw [Dev.deliver_of_taken ans bs result (Dev.saveRefused_of_lost lost), Dev.saveCmd_of_lost ans bs device lost]
    rfl

/-! ### Queries -/

section

variable {d : Dev} {x : Exec}

theorem Dev.regionQuery_of_region {r : Region} (low : x.pn 0 0 10 < 1008) (found : d.region (x.pn 0 0 10) = some r)
    (buffer : d.bufferOk (issuer x) (x.p 1) 64 = true) :
    (if d.life.formatted && decide (1008 ≤ x.pn 0 0 10) then d.querySystem x (x.pn 0 0 10)
      else d.onRegion x (fun d id r => d.queryRegion x id r)) =
    d.deliver noAnswers x (x.p 1) (queryBytes (x.pn 0 0 10) r) 0 := by
  have user : decide (1008 ≤ x.pn 0 0 10) = false := decide_eq_false (Nat.not_le.mpr low)
  simp only [user, Bool.and_false, Bool.false_eq_true, if_false, Dev.onRegion, found, Dev.queryRegion, buffer, if_true]

theorem Dev.regionQuery_of_system (high : 1008 ≤ x.pn 0 0 10) (formatted : d.life.formatted = true)
    (buffer : d.bufferOk (issuer x) (x.p 1) 64 = true) :
    (if d.life.formatted && decide (1008 ≤ x.pn 0 0 10) then d.querySystem x (x.pn 0 0 10)
      else d.onRegion x (fun d id r => d.queryRegion x id r)) =
    d.deliver noAnswers x (x.p 1) (systemBytes (x.pn 0 0 10)) 0 := by
  simp only [formatted, high, decide_true, Bool.and_self, if_true, Dev.querySystem, buffer]

/-- R419: EVENT_READ of 1 to 4,096 records delivers those from the sequence it names on. -/
theorem Dev.eventRead_of_ok (some_ : 1 ≤ x.pn 0 32 16) (most : x.pn 0 32 16 ≤ 4096)
    (known : seqLater (BitVec.ofNat 32 (x.pn 0 0 32)) (d.ev.headSeq + 1) = false)
    (buffer : d.bufferOk (issuer x) (x.p 1) (64 * x.pn 0 32 16) = true) :
    d.eventRead x = d.deliver noAnswers x (x.p 1)
      ((d.ev.from (BitVec.ofNat 32 (x.pn 0 0 32)) (x.pn 0 32 16)).flatMap logBytes)
      ((d.ev.from (BitVec.ofNat 32 (x.pn 0 0 32)) (x.pn 0 32 16)).length + 65536 *
        (match (d.ev.from (BitVec.ofNat 32 (x.pn 0 0 32)) (x.pn 0 32 16)).getLast? with
          | some r => (r.seq + 1).toNat
          | none => (BitVec.ofNat 32 (x.pn 0 0 32)).toNat)) := by
  have good : ¬ (x.pn 0 32 16 = 0 ∨ 4096 < x.pn 0 32 16 ∨
      seqLater (BitVec.ofNat 32 (x.pn 0 0 32)) (d.ev.headSeq + 1) = true) := by
    rintro (none_ | many | late)
    · omega
    · omega
    · exact Bool.false_ne_true (known.symm.trans late)
  exact (if_neg good).trans (if_pos buffer)

end

/-- Settles O21: each query with a buffer it can use delivers its bytes. -/
theorem queriesDeliverTheirData : Obligations.QueriesDeliverTheirData := by
  intro s t qid cid x d
  refine ⟨fun performs buffer => State.after_command_eq performs (if_pos buffer),
    fun r performs low found buffer => ?_, fun performs high formatted buffer => ?_,
    fun performs some_ most known buffer => ?_⟩
  · exact State.after_command_eq performs (Dev.regionQuery_of_region low found buffer)
  · exact State.after_command_eq performs (Dev.regionQuery_of_system high formatted buffer)
  · exact State.after_command_eq performs (Dev.eventRead_of_ok some_ most known buffer)

/-! ### Pairs made and deleted -/

section

variable {d : Dev} {x : Exec}

theorem ioPair_of_own (own : x.pn 0 0 7 / 64 = x.qid / 64) (io : x.pn 0 0 7 % 64 ≠ 0) : ioPair x (x.pn 0 0 7) = true := by
  rw [ioPair, decide_eq_true own, decide_eq_true io, Bool.and_self]

theorem Dev.createQpair_of_ok (io : ioPair x (x.pn 0 0 7) = true) (absent : (d.pair (x.pn 0 0 7)).state = .absent)
    (sq : x.pn 0 8 12 ≠ 0) (cq : x.pn 0 20 12 ≠ 0) (sqRing : ringField (x.p 1) = true) (cqRing : ringField (x.p 2) = true)
    (sqBuffer : d.bufferOk (issuer x) (x.p 1) (64 * (x.pn 0 8 12 + 1)) = true)
    (cqBuffer : d.bufferOk (issuer x) (x.p 2) (16 * (x.pn 0 20 12 + 1)) = true) :
    d.createQpair x = (d.setPair (x.pn 0 0 7) (newPair (x.p 1) (x.p 2) (x.pn 0 8 12 + 1) (x.pn 0 20 12 + 1) (x.pn 0 32 6)
      ((x.p 0).toNat.testBit 38) (x.pn 0 40 8) (x.pn 0 48 8))).complete x stSuccess 0 := by
  simp only [Dev.createQpair, io, absent, sq, cq, sqRing, cqRing, sqBuffer, cqBuffer, Bool.true_eq_false, ne_eq,
    not_true_eq_false, or_self, if_false, Bool.and_self, if_true]

theorem Dev.deleteQpair_of_active (io : ioPair x (x.pn 0 0 7) = true) (active : (d.pair (x.pn 0 0 7)).state = .active)
    (other : (d.pair (x.pn 0 0 7)).deleter ≠ some (x.qid, x.cid)) :
    d.deleteQpair x = d.deletePair (x.pn 0 0 7) (some (x.qid, x.cid)) := by
  have deletable : ¬ (ioPair x (x.pn 0 0 7) = false ∨ (d.pair (x.pn 0 0 7)).state = .absent ∨
      (d.pair (x.pn 0 0 7)).state = .deleting) := by
    rw [io, active]; decide
  rw [Dev.deleteQpair, if_neg other, if_neg deletable]

end

/-- Settles O22: a pair that is made, and one that is deleted. -/
theorem queuePairsAreMadeAndDeleted : Obligations.QueuePairsAreMadeAndDeleted := by
  intro s t qid cid x d q own io
  have mine := ioPair_of_own own io
  refine ⟨fun performs absent sq cq sqRing cqRing sqBuffer cqBuffer => ?_, fun performs active other => ?_⟩
  · exact State.after_command_eq performs
      (Dev.createQpair_of_ok mine absent sq cq sqRing cqRing sqBuffer cqBuffer)
  · exact State.after_command_eq performs (Dev.deleteQpair_of_active mine active other)

end Sys2Proof.Machine
end

section
/-!
PROOF. Region commands and DISCARD (09 Regions, Ownership; 11 Region attributes and descriptor; 06 DISCARD and
SECURE_DISCARD): who may use a region, and an equation per change of one.
-/

namespace Sys2Proof.Machine

/-! ### Commands that may meet a die's time-out -/

theorem State.afterMedia_eq {s : State} {t : Nat} {f : Dev → Dev} {d : Dev} (h : f (s.before t) = d) :
    s.afterMedia t f = .next (s.leave t d.countMissed) :=
  State.after_eq (congrArg Dev.countMissed h)

theorem State.afterMedia_command_eq {s : State} {t op : Nat} {qid : BitVec 7} {cid : BitVec 16} {x : Exec} {d : Dev}
    {f : Dev → Exec → Dev} (h : (s.before t).performs op qid cid x) (work : f (s.before t) x = d) :
    s.afterMedia t (fun d => d.command op qid cid f) = .next (s.leave t d.countMissed) :=
  State.afterMedia_eq ((Dev.command_of_performs h f).trans work)

/-! ### Who may use a region -/

section

variable {d : Dev} {x : Exec} {r : Region} (f : Dev → Nat → Region → Dev)

theorem Dev.onRegion_of_absent (absent : d.region (x.pn 0 0 10) = none) : d.onRegion x f = d.complete x stInvalidRegion 0 := by
  simp only [Dev.onRegion, absent]

theorem Dev.onRegion_of_some (found : d.region (x.pn 0 0 10) = some r) : d.onRegion x f = f d (x.pn 0 0 10) r := by
  simp only [Dev.onRegion, found]

theorem Dev.onOwned_of_owner (found : d.region (x.pn 0 0 10) = some r) (owner : ownsRegion (issuer x) r = true) :
    d.onOwned x f = f d (x.pn 0 0 10) r := by
  rw [Dev.onOwned, Dev.onRegion_of_some _ found, if_pos owner]

theorem Dev.onOwned_of_other (found : d.region (x.pn 0 0 10) = some r) (other : ownsRegion (issuer x) r = false) :
    d.onOwned x f = d.complete x stNotOwner 0 := by
  rw [Dev.onOwned, Dev.onRegion_of_some _ found, other]
  rfl

theorem Dev.regionBlock_of_locked (locked : r.locked = true) : d.regionBlock r = some stRegionLocked := if_pos locked

theorem Dev.regionBlock_of_noKey (unlocked : r.locked = false) (noKey : d.regionKeyed r = false) :
    d.regionBlock r = some stKeyNotLoaded := by
  simp only [Dev.regionBlock, unlocked, noKey, Bool.false_eq_true, if_false, if_true]

theorem Dev.regionBlock_of_usable (unlocked : r.locked = false) (keyed : d.regionKeyed r = true) :
    d.regionBlock r = none := by
  simp only [Dev.regionBlock, unlocked, keyed, Bool.false_eq_true, Bool.true_eq_false, if_false]

theorem Dev.onUsable_of_absent (absent : d.region (x.pn 0 0 10) = none) : d.onUsable x f = d.complete x stInvalidRegion 0 := by
  rw [Dev.onUsable, Dev.onOwned, Dev.onRegion_of_absent _ absent]

theorem Dev.onUsable_of_blocked {st : Nat} (found : d.region (x.pn 0 0 10) = some r)
    (owner : ownsRegion (issuer x) r = true) (blocked : d.regionBlock r = some st) :
    d.onUsable x f = d.complete x st 0 := by
  rw [Dev.onUsable, Dev.onOwned_of_owner _ found owner, blocked]

theorem Dev.onUsable_of_usable (found : d.region (x.pn 0 0 10) = some r) (owner : ownsRegion (issuer x) r = true)
    (unlocked : r.locked = false) (keyed : d.regionKeyed r = true) : d.onUsable x f = f d (x.pn 0 0 10) r := by
  rw [Dev.onUsable, Dev.onOwned_of_owner _ found owner, Dev.regionBlock_of_usable unlocked keyed]

end

/-! ### A region is created -/

theorem Dev.createRegion_of_ok {d : Dev} {x : Exec} {r : Region} {zones dpa id base : Nat} {ext : List (Nat × Nat)}
    (free : d.pickId (x.p 0).toNat = some id) (plain : r.keyId = 0 → d.sec.plaintext = true)
    (key : d.keyLoaded r.keyId = true) (spare : d.spareRefuses zones = false)
    (picked : pickZones zones d.freeExtents = some ext) (window : d.windowFor r dpa = some base) (few : ext.length ≤ 16) :
    d.createRegion x r zones dpa = ((d.sysPut (.region id (some
      { r with extents := ext, dpaBase := base, dpaSize := dpa }))).updateCapacities).complete x stSuccess
        (id + base / mib256 * 1024) := by
  have allowed : ¬ (r.keyId = 0 ∧ d.sec.plaintext = false) := fun ⟨zero, off⟩ =>
    Bool.false_ne_true (off.symm.trans (plain zero))
  simp only [Dev.createRegion, free, if_neg allowed, key, spare, picked, window, if_neg (Nat.not_lt.mpr few),
    Bool.true_eq_false, Bool.false_eq_true, if_false]

theorem Dev.regionCreate_of_fields {d : Dev} {x : Exec} {r : Region} (fields : regionOf (x.p 0).toNat = some r)
    (size : (x.p 1).toNat ≠ 0)
    (fits : r.typ = .direct → ceilDiv (x.p 1).toNat (zoneBytes r.prot) * zoneBytes r.prot ≤ roundUp (x.p 2).toNat mib256)
    (noWindow : r.typ ≠ .direct → (x.p 2).toNat = 0) :
    d.regionCreate x = d.createRegion x r (ceilDiv (x.p 1).toNat (zoneBytes r.prot))
      (if r.typ = .direct then roundUp (x.p 2).toNat mib256 else 0) := by
  have good : ¬ ((x.p 1).toNat = 0 ∨ (r.typ ≠ .direct ∧ (x.p 2).toNat ≠ 0) ∨
      (r.typ = .direct ∧ (if r.typ = .direct then roundUp (x.p 2).toNat mib256 else 0) <
        ceilDiv (x.p 1).toNat (zoneBytes r.prot) * zoneBytes r.prot)) := by
    rintro (zero | ⟨other, window⟩ | ⟨direct, small⟩)
    · exact size zero
    · exact window (noWindow other)
    · rw [if_pos direct] at small
      exact absurd small (Nat.not_lt.mpr (fits direct))
  simp only [Dev.regionCreate, fields, if_neg good]

/-- Settles O25: the checks of a creation, and the region that results. -/
theorem regionIsCreated : Obligations.RegionIsCreated := by
  intro s t qid cid x r id base ext d zones dpa performs fields size fits noWindow free plain key spare picked window few
  have fits' (direct : r.typ = .direct) : zones * zoneBytes r.prot ≤ roundUp (x.p 2).toNat mib256 :=
    (fits direct).trans_eq (if_pos direct)
  exact State.after_command_eq performs ((Dev.regionCreate_of_fields fields size fits' noWindow).trans
    (Dev.createRegion_of_ok free plain key spare picked window few))

/-! ### Changes of a region -/

section

variable {d : Dev} {x : Exec} {r : Region} (id : Nat)

theorem Dev.growRegion_of_ok {l : List (Nat × Nat)} (noIndex : r.typ ≠ .index) (still : r.rekey = none)
    (more : r.zones < ceilDiv (x.p 1).toNat (zoneBytes r.prot))
    (fits : r.typ = .direct → ceilDiv (x.p 1).toNat (zoneBytes r.prot) * zoneBytes r.prot ≤ r.dpaSize)
    (spare : d.spareRefuses (ceilDiv (x.p 1).toNat (zoneBytes r.prot) - r.zones) = false)
    (picked : d.growZones r.extents (ceilDiv (x.p 1).toNat (zoneBytes r.prot) - r.zones) = some l)
    (few : (joinExts r.extents l).length ≤ 16) :
    d.growRegion x id r = (d.sysPut (.region id (some { r with extents := joinExts r.extents l }))).complete x stSuccess
      (ceilDiv (x.p 1).toNat (zoneBytes r.prot)) := by
  have good : ¬ (ceilDiv (x.p 1).toNat (zoneBytes r.prot) < r.zones ∨
      (r.typ = .direct ∧ r.dpaSize < ceilDiv (x.p 1).toNat (zoneBytes r.prot) * zoneBytes r.prot)) := by
    rintro (fewer | ⟨direct, small⟩)
    · exact absurd fewer more.asymm
    · exact absurd small (Nat.not_lt.mpr (fits direct))
  simp only [Dev.growRegion, if_neg noIndex, still, Option.isSome_none, Bool.false_eq_true, if_false, if_neg good,
    if_neg more.ne', spare, picked, if_neg (Nat.not_lt.mpr few)]

theorem Dev.setAttr_of_ok (some_ : x.pn 0 16 4 ≠ 0) (ok : attrsOk (setAttrs (x.pn 0 16 4) (x.p 1).toNat r) = true) :
    d.setAttr x id r =
      ((d.sysPut (.region id (some (setAttrs (x.pn 0 16 4) (x.p 1).toNat r)))).profileMoves
        (setAttrs (x.pn 0 16 4) (x.p 1).toNat r)).complete x stSuccess 0 := by
  simp only [Dev.setAttr, some_, ok, Bool.true_eq_false, or_self, if_false]

theorem Dev.deleteRegion_of_ok (unlocked : r.locked = false) (empty : d.holdsObjects id r = false)
    (fits : d.journalFits r.zones = true) (still : ∀ lz ∈ r.zoneList, d.zoneStill lz = true) :
    d.deleteRegion x id r = (d.dropRegion id r).complete x stSuccess 0 := by
  have stills : r.zoneList.all d.zoneStill = true := List.all_eq_true.mpr still
  simp only [Dev.deleteRegion, unlocked, empty, fits, stills, Bool.false_eq_true, if_false, Bool.and_self, if_true]

theorem Dev.unlockRegion_of_locked (locked : r.locked = true) (keyed : d.regionKeyed r = true) :
    d.unlockRegion x id r = (((d.sysPut (.region id (some { r with locked := false }))).event
      (evSecurity 2)).moduleEventBoth .warning).complete x stSuccess 0 := by
  simp only [Dev.unlockRegion, locked, keyed, Bool.true_eq_false, if_false, if_true]

end

/-- Settles O26: the four changes of a region that its owner asks for, and the shared check. -/
theorem regionsChange : Obligations.RegionsChange := by
  constructor
  · intro s t qid cid x r d id found owner
    refine ⟨?_, ?_, ?_, ?_⟩
    · intro l zones performs unlocked keyed noIndex still more fits spare picked few
      exact State.after_command_eq performs ((Dev.onUsable_of_usable _ found owner unlocked keyed).trans
        (Dev.growRegion_of_ok id noIndex still more fits spare picked few))
    · intro r' performs unlocked keyed some_ ok
      exact State.after_command_eq performs ((Dev.onUsable_of_usable _ found owner unlocked keyed).trans
        (Dev.setAttr_of_ok id some_ ok))
    · intro performs unlocked empty fits still
      exact State.after_command_eq performs ((Dev.onOwned_of_owner _ found owner).trans
        (Dev.deleteRegion_of_ok id unlocked empty fits still))
    · intro performs locked keyed
      exact State.after_command_eq performs ((Dev.onOwned_of_owner _ found owner).trans
        (Dev.unlockRegion_of_locked id locked keyed))
  · intro d x f
    refine ⟨Dev.onUsable_of_absent f, fun r found => ⟨fun other => Dev.onOwned_of_other _ found other,
      fun owner locked => ?_, fun owner unlocked noKey => ?_, fun owner unlocked keyed => ?_⟩⟩
    · exact Dev.onUsable_of_blocked f found owner (Dev.regionBlock_of_locked locked)
    · exact Dev.onUsable_of_blocked f found owner (Dev.regionBlock_of_noKey unlocked noKey)
    · exact Dev.onUsable_of_usable f found owner unlocked keyed

/-! ### DISCARD -/

section

variable {d : Dev} {x : Exec} {r : Region} {lo hi : Nat} (id : Nat)

theorem Dev.discardCheck_of_ok (direct : r.typ = .direct) (range : discardRange x r = some (lo, hi))
    (taken : ∀ l ∈ partLines r lo hi, d.writeRefused r id l = false) : d.discardCheck x id r = .inr (lo, hi) := by
  have none_ : (partLines r lo hi).any (fun l => d.writeRefused r id l) = false :=
    List.any_eq_false.mpr fun l hl => ne_true_of_eq_false (taken l hl)
  simp only [Dev.discardCheck, direct, ne_eq, not_true_eq_false, if_false, range, none_, Bool.false_eq_true]

variable (check : d.discardCheck x id r = .inr (lo, hi)) (ready : (x.parked || d.discardOk r lo hi) = true)

include check ready

theorem Dev.discard_of_goes : d.discard x id r =
    if (d.discardGoes x id r lo hi).2 = [] then (d.discardGoes x id r lo hi).1.complete x stSuccess 0
    else (d.discardGoes x id r lo hi).1.keep x (d.discardGoes x id r lo hi).2 := by
  simp only [Dev.discard, check, ready, if_true]
  rcases d.discardGoes x id r lo hi with ⟨d', _ | ⟨l, rest⟩⟩
  · rfl
  · rfl

/-- The device as a SECURE_DISCARD leaves it once its zero writes are made. -/
def Dev.secureZeroed (y : Dev × List Nat) (x : Exec) (id : Nat) (r : Region) (lo hi : Nat) : Dev :=
  (y.1.each (partLines r lo hi) (fun d l => d.selectLine r id l)).keep x y.2

theorem Dev.secureDiscard_of_goes (ans : Answers) : d.secureDiscard ans x id r =
    if (d.discardGoes x id r lo hi).2 = [] then
      (Dev.secureZeroed (d.discardGoes x id r lo hi) x id r lo hi).secureNext ans (x.kept []) id r lo hi
    else Dev.secureZeroed (d.discardGoes x id r lo hi) x id r lo hi := by
  simp only [Dev.secureDiscard, check, ready, if_true, Dev.secureZeroed]
  rcases d.discardGoes x id r lo hi with ⟨d', _ | ⟨l, rest⟩⟩
  · simp only [List.isEmpty_nil, if_true]
  · simp only [List.isEmpty_cons, Bool.false_eq_true, if_false, reduceCtorEq]

end

theorem zeroLines_cons_of_room {d : Dev} (room : d.roomForLine = true) (r : Region) (id l : Nat) (rest : List Nat) :
    zeroLines r id (l :: rest) d = zeroLines r id rest (d.zeroWrite r id l) := if_pos room

theorem zeroLines_cons_of_full {d : Dev} (full : d.roomForLine = false) (r : Region) (id l : Nat) (rest : List Nat) :
    zeroLines r id (l :: rest) d = (d, l :: rest) := if_neg (ne_true_of_eq_false full)

/-- Settles O28: the unbinds and zero writes that DISCARD and SECURE_DISCARD share, and how each goes on from them. -/
theorem discardZeroesTheRange : Obligations.DiscardZeroesTheRange := by
  intro s t qid cid x r lo hi d id y found owner unlocked keyed direct range taken may
  have check := Dev.discardCheck_of_ok id direct range taken
  have ready : (x.parked || d.discardOk r lo hi) = true := by rw [Bool.or_eq_true]; exact may
  have usable (f : Dev → Nat → Region → Dev) : d.onUsable x f = f d id r :=
    Dev.onUsable_of_usable f found owner unlocked keyed
  refine ⟨fun performs => ?_, ?_, fun d l rest =>
    ⟨fun room => zeroLines_cons_of_room room r id l rest, fun full => zeroLines_cons_of_full full r id l rest⟩⟩
  · exact State.after_command_eq performs ((usable _).trans (Dev.discard_of_goes id check ready))
  · intro media performs d1
    exact State.afterMedia_command_eq performs ((usable _).trans (Dev.secureDiscard_of_goes id check ready media))

end Sys2Proof.Machine
end

section
/-!
PROOF. Keys, range rekey, password partitions and SEC_CFG (15 Key slots, Range rekey, Password partitions; 18 Writing and
selecting a copy): an equation per case of each.
-/

namespace Sys2Proof.Machine

/-! ### A source that a command reads whole -/

theorem Dev.source_of_read {d d' : Dev} {b : Buf} {host : List HostBytes} {x : Exec} {w : Word} {n : Nat}
    (buffer : d.bufferOk (issuer x) w n = true) (read : d.load host noAnswers (issuer x) w n = (d', b))
    (mac : b.macFail = false) (good : b.bad = []) (what : Option (Nat × Nat)) (f : Dev → List Byte → Dev) :
    d.source host x w n what f = f d' b.bytes := by
  have usable : d.usable x w n = true := by rw [Dev.usable, Bool.or_eq_true]; exact .inr buffer
  simp only [Dev.source, usable, Bool.true_eq_false, if_false, read, mac, good, List.isEmpty_nil, Bool.false_eq_true]

/-! ### KEY_LOAD -/

/-- What R564 does with an unwrapped key. -/
def Dev.keyGoes (d : Dev) (x : Exec) (key : List Byte) : Dev :=
  if key.take 32 = (key.drop 32).take 32 then d.complete x stInvalidField 0
  else if (x.p 0).toNat.testBit 7 then
    match d.freeKeySlot with
    | none => d.complete x stNoKeySlot 0
    | some k => d.loadSlot x k key
  else d.loadSlot x (x.pn 0 0 7) key

theorem Dev.unwrapped_eq (d : Dev) (x : Exec) (bs : List Byte) : d.unwrapped x bs =
    match d.sec.kwk.bind (fun w => keyUnwrap (leBytes 32 w.toNat) bs) with
    | none => (d.event (evSecurity 3)).complete x stAuthFail 0
    | some key => d.keyGoes x key := by
  cases noKwk : d.sec.kwk with
  | none => simp only [Dev.unwrapped, noKwk, Option.bind_none]
  | some kwk =>
    cases wrong : keyUnwrap (leBytes 32 kwk.toNat) bs with
    | none => simp only [Dev.unwrapped, noKwk, Option.bind_some, wrong]
    | some key => simp only [Dev.unwrapped, noKwk, Option.bind_some, wrong]; rfl

theorem Dev.keyLoad_of_read {d d' : Dev} {b : Buf} {host : List HostBytes} {x : Exec}
    (read : d.load host noAnswers (issuer x) (x.p 1) 104 = (d', b)) (still : d.cabWaits x = false)
    (whole : x.pn 2 0 16 = 104) (names : x.pn 0 0 7 ≠ 0 ∨ (x.p 0).toNat.testBit 7 = true)
    (buffer : d.bufferOk (issuer x) (x.p 1) 104 = true) (mac : b.macFail = false) (good : b.bad = []) :
    d.keyLoad x host = d'.unwrapped x b.bytes := by
  have fields : ¬ (x.pn 2 0 16 ≠ 104 ∨ (x.pn 0 0 7 = 0 ∧ (x.p 0).toNat.testBit 7 = false)) := by
    rintro (short | ⟨zero, noPick⟩)
    · exact short whole
    · exact names.elim (fun named => named zero) (fun pick => Bool.false_ne_true (noPick.symm.trans pick))
  simp only [Dev.keyLoad, still, Bool.false_eq_true, if_false, if_neg fields]
  exact Dev.source_of_read buffer read mac good _ _

section

variable {d : Dev} (x : Exec) {k : Nat} (key : List Byte)

theorem Dev.loadSlot_of_free (free : (d.slot k).state = .free) (first : d.slotsAsked.contains k = false) :
    d.loadSlot x k key = d.loadFree x k key := by
  simp only [Dev.loadSlot, free, first, Bool.false_eq_true, if_false]

theorem Dev.loadSlot_of_used (used : (d.slot k).state = .loaded ∨ (d.slot k).state = .absent) :
    d.loadSlot x k key = if (d.slot k).check = checkValue key then (d.putSlot k (loadedSlot key)).keyLoads x k
      else d.complete x stKeyInUse 0 := by
  rcases used with loaded | absent
  · simp only [Dev.loadSlot, loaded]
  · simp only [Dev.loadSlot, absent]

theorem Dev.loadSlot_of_closing (closing : (d.slot k).state = .closing) :
    d.loadSlot x k key = d.complete x stKeyInUse 0 := by
  simp only [Dev.loadSlot, closing]

end

/-! ### KEY_RETIRE and ZEROISE -/

section

variable {d : Dev} {x : Exec} (fresh : x.parked = false) (named : x.pn 0 0 7 ≠ 0)

include fresh named

theorem Dev.keyRetire_of_loaded (loaded : (d.slot (x.pn 0 0 7)).state = .loaded) :
    d.keyRetire x = if d.rekeying (x.pn 0 0 7) then d.complete x stKeyInUse 0
      else (d.startClosing (x.pn 0 0 7) true).park x := by
  simp only [Dev.keyRetire, fresh, named, loaded, ne_eq, not_true_eq_false, Bool.false_eq_true, if_false]

theorem Dev.keyRetire_of_notLoaded (other : (d.slot (x.pn 0 0 7)).state ≠ .loaded) :
    d.keyRetire x = d.complete x stKeyNotLoaded 0 := by
  simp only [Dev.keyRetire, fresh, named, Bool.false_eq_true, if_false, if_pos other]

end

theorem Dev.zeroise_of_owner {d : Dev} {h : Head} (on : d.portOn (.head h) = true)
    (owner : d.session (.head h) 1 = true) : d.zeroise (.head h) = d.zeroiseKeys := by
  simp only [Dev.zeroise, on, owner, Bool.true_eq_false, if_false, if_true]

theorem Dev.zeroise_of_other {d : Dev} {p : Port} (on : d.portOn p = true)
    (other : ∀ h, p = .head h → d.session p 1 = false) : d.zeroise p = d.event (evSecurity 8) := by
  cases p with
  | head h => simp only [Dev.zeroise, on, other h rfl, Bool.true_eq_false, Bool.false_eq_true, if_false]
  | sideband => simp only [Dev.zeroise, on, Bool.true_eq_false, Bool.false_eq_true, if_false]

/-- Settles O29: the rows of R564, and the closing of slots by KEY_RETIRE and ZEROISE. -/
theorem keysAreLoadedAndClosed : Obligations.KeysAreLoadedAndClosed := by
  refine ⟨⟨?_, fun d x k key => ⟨Dev.loadSlot_of_free x key, Dev.loadSlot_of_used x key, Dev.loadSlot_of_closing x key⟩⟩, ?_⟩
  · intro s t qid cid host x d
    rcases read : d.load host noAnswers (issuer x) (x.p 1) 104 with ⟨d', b⟩
    intro performs still whole names buffer mac good
    exact State.after_command_eq performs ((Dev.keyLoad_of_read read still whole names buffer mac good).trans
      (Dev.unwrapped_eq d' x b.bytes))
  · intro s t d
    refine ⟨fun qid cid x performs fresh named => ⟨fun loaded alone => ?_, fun loaded rekeys => ?_, fun other => ?_⟩,
      fun h on owner => State.after_eq (Dev.zeroise_of_owner on owner),
      fun p on other => State.after_eq (Dev.zeroise_of_other on other)⟩
    · exact State.after_command_eq performs ((Dev.keyRetire_of_loaded fresh named loaded).trans
        (if_neg (ne_true_of_eq_false alone)))
    · exact State.after_command_eq performs ((Dev.keyRetire_of_loaded fresh named loaded).trans (if_pos rekeys))
    · exact State.after_command_eq performs (Dev.keyRetire_of_notLoaded fresh named other)

/-! ### Range rekey -/

/-- A rekey to key n as it starts (R571): its boundary at 0, its LIMIT one zone on. -/
def Region.startRekey (r : Region) (n : Nat) : Rekey :=
  { oldKey := r.keyId, newKey := n, persist := 0, limit := min r.lines (zoneLines r.prot), boundary := 0,
    resumed := false }

theorem Dev.rangeRekey_of_ok {d : Dev} {x : Exec} {r : Region} (id : Nat) (unlocked : r.locked = false)
    (other : x.pn 0 16 7 ≠ r.keyId) (key : x.pn 0 16 7 ≠ 0) (old : d.keyLoaded r.keyId = true)
    (new : d.keyLoaded (x.pn 0 16 7) = true) (none_ : r.rekey = none) :
    d.rangeRekey x id r = (d.sysPut (.region id (some { r with rekey := some (r.startRekey (x.pn 0 16 7)) }))).complete x
      stSuccess 0 := by
  simp only [Dev.rangeRekey, Region.startRekey, other, key, old, new, unlocked, none_, and_false, false_and, or_self, Bool.true_eq_false,
    Option.isSome_none, Bool.false_eq_true, if_false]

section

variable {d : Dev} {r : Region} {q : Rekey} {id : Nat} (media : Answers)

theorem Dev.rekeyStep_of_runs (found : d.region id = some r) (unlocked : r.locked = false) (works : d.background = true)
    (clear : d.clearFirst = false) (runs : r.rekey = some q) (old : d.keyLoaded q.oldKey = true)
    (new : d.keyLoaded q.newKey = true) : d.rekeyStep media id = d.rekeyUnit media id r q := by
  simp only [Dev.rekeyStep, found, runs, works, clear, unlocked, old, new, Bool.not_false, Bool.and_self, if_true]

theorem Dev.rekeyUnit_of_end (done : r.lines ≤ q.boundary) : d.rekeyUnit media id r q = d.endRekey id r q := if_pos done

theorem Dev.rekeyUnit_of_limit (more : q.boundary < r.lines) (limit : q.limit ≤ q.boundary) :
    d.rekeyUnit media id r q = d.putRekey id r
      { q with persist := q.limit, limit := min r.lines (q.limit + zoneLines r.prot), resumed := false } := by
  rw [Dev.rekeyUnit, if_neg (Nat.not_le.mpr more), if_pos limit]

variable {u : StripeCtx} {c : LineCtx} (more : q.boundary < r.lines) (inside : q.boundary < q.limit)
  (stripe : d.lineStripe id r q.boundary = some (u, c))

include more inside stripe

theorem Dev.rekeyUnit_of_unbound (unbound : zMapped u.e = false) : d.rekeyUnit media id r q =
    d.setBoundary id r q (min q.limit ((q.boundary / zoneLines r.prot + 1) * zoneLines r.prot)) := by
  simp only [Dev.rekeyUnit, if_neg (Nat.not_le.mpr more), if_neg (Nat.not_le.mpr inside), stripe, if_pos unbound]

variable (bound : zMapped u.e = true)

include bound

theorem Dev.rekeyUnit_of_waits (waits : d.rekeyOk media u = false) : d.rekeyUnit media id r q = d := by
  simp only [Dev.rekeyUnit, if_neg (Nat.not_le.mpr more), if_neg (Nat.not_le.mpr inside), stripe, bound, waits,
    Bool.true_eq_false, if_false, if_true]

variable (ready : d.rekeyOk media u = true)

include ready

theorem Dev.rekeyUnit_of_macStops {y : LineCtx} {pass : Nat} (stops : d.macStops media u = some (y, pass)) :
    d.rekeyUnit media id r q = d.siblingMac u.r y pass := by
  simp only [Dev.rekeyUnit, if_neg (Nat.not_le.mpr more), if_neg (Nat.not_le.mpr inside), stripe, bound, ready,
    Bool.true_eq_false, if_false, stops]

theorem Dev.rekeyUnit_of_stripe (goes : d.macStops media u = none) :
    d.rekeyUnit media id r q = if (d.rekeyStripe media u q).2 then
      ((d.rekeyStripe media u q).1.forgetMac (fun x => x.1 == id && u.data.any (fun c => c.lineNo == x.2))).setBoundary id r q
        (q.boundary + stripeLines r.prot) else (d.rekeyStripe media u q).1 := by
  simp only [Dev.rekeyUnit, if_neg (Nat.not_le.mpr more), if_neg (Nat.not_le.mpr inside), stripe, bound, ready,
    Bool.true_eq_false, if_false, goes]

end

/-- Settles O30: the start of a rekey, and each thing that one of its steps can do. -/
theorem rekeyMovesByStripes : Obligations.RekeyMovesByStripes := by
  intro s t id r d found unlocked
  constructor
  · intro qid cid x performs names owner other key old new none_ q
    have mine : d.region (x.pn 0 0 10) = some r := by rw [names]; exact found
    have work := Dev.onOwned_of_owner (fun d id r => d.rangeRekey x id r) mine owner
    rw [names] at work
    exact State.after_command_eq performs (work.trans (Dev.rangeRekey_of_ok _ unlocked other key old new none_))
  · intro media q works clear runs old new
    have step {d' : Dev} (work : d.rekeyUnit media id.toNat r q = d') :
        exec (.rekeyStripe t id media) s = .next (s.leave t d'.countMissed) :=
      State.afterMedia_eq ((Dev.rekeyStep_of_runs media found unlocked works clear runs old new).trans work)
    refine ⟨fun done => step (Dev.rekeyUnit_of_end media done), fun more limit => step (Dev.rekeyUnit_of_limit media more limit),
      fun u c more inside stripe => ⟨fun unbound => step (Dev.rekeyUnit_of_unbound media more inside stripe unbound),
        fun bound waits => step (Dev.rekeyUnit_of_waits media more inside stripe bound waits),
        fun y pass bound ready stops => step (Dev.rekeyUnit_of_macStops media more inside stripe bound ready stops),
        fun bound ready goes => step (Dev.rekeyUnit_of_stripe media more inside stripe bound ready goes)⟩⟩

/-! ### CABINET_AUTH -/

/-- The operation of a CABINET_AUTH on the block it has read. -/
def Dev.authGoes (d : Dev) (x : Exec) (block : List Byte) : Dev :=
  match x.pn 0 2 2 with
  | 0 => d.authOpen x (x.pn 0 0 2) block
  | 1 => d.authClose x (x.pn 0 0 2) block
  | 2 => d.authChange x (x.pn 0 0 2) block
  | _ => d.authKwk x (x.pn 0 0 2) block

theorem Dev.cabinetAuth_of_read {d d' : Dev} {b : Buf} {host : List HostBytes} {x : Exec}
    (read : d.load host noAnswers (issuer x) (x.p 1) 32 = (d', b)) (still : d.cabWaits x = false)
    (part : x.pn 0 0 2 ≠ 3) (buffer : d.bufferOk (issuer x) (x.p 1) 32 = true) (mac : b.macFail = false)
    (good : b.bad = []) : d.cabinetAuth x host = d'.authGoes x b.bytes := by
  simp only [Dev.cabinetAuth, still, Bool.false_eq_true, if_false, part]
  exact Dev.source_of_read buffer read mac good _ _

section

variable {d : Dev} {x : Exec} {part : Nat} {block : List Byte}

theorem Dev.authOpen_of_locked (locked : d.partitionLocked part = true) :
    d.authOpen x part block = d.complete x stPartitionLocked 0 := if_pos locked

theorem Dev.authOpen_of_unlocked (unlocked : d.partitionLocked part = false) :
    d.authOpen x part block = if d.secretMatches part block then
      ({ (d.putSession (.head (issuer x)) part true) with
        sec := { (d.putSession (.head (issuer x)) part true).sec with fails := d.sec.fails.set part 0 } }).complete
        x stSuccess 0
    else (d.openFails part).complete x stAuthFail 0 := if_neg (ne_true_of_eq_false unlocked)

theorem Dev.authClose_of_zero (zero : leNat block = 0) :
    d.authClose x part block = (d.putSession (.head (issuer x)) part false).complete x stSuccess 0 :=
  if_neg (not_not_intro zero)

theorem Dev.authChange_of_session (session : d.session (.head (issuer x)) part = true) (some_ : leNat block ≠ 0) :
    d.authChange x part block = { d with draws := d.draws + 1 }.cabWrite cabPassword part 48
      (cabPayload [(0, 16, (Config.freeSalt d.draws).toNat),
        (16, 32, leNat (sha256 (leBytes 16 (Config.freeSalt d.draws).toNat ++ block)))]) (.change x.qid x.cid part) := by
  simp only [Dev.authChange, session, some_, Bool.true_eq_false, false_and, if_false]

theorem Dev.authKwk_of_session (session : d.session (.head (issuer x)) 1 = true) :
    d.authKwk x 1 block = d.cabWrite cabKwk 0 40 (cabPayload [(0, 40, leNat (keyWrap d.rootKey block))])
      (.setKwk x.qid x.cid (BitVec.ofNat 256 (leNat block))) := by
  simp only [Dev.authKwk, session, ne_eq, not_true_eq_false, Bool.true_eq_false, if_false]

end

/-! ### The end of a Cabinet write -/

section

variable {d : Dev} {r : CabReq} {n : Nat} (busy : d.cab.busy = some (r, n))

include busy

theorem Dev.cabDone_of_keyLoad {q c k : Nat} {key : BitVec 768} {x : Exec} (load : r.after = .keyLoad q c k key)
    (waits : d.q.exec.find? (fun y => y.qid == q && y.cid == c && y.opcode == 0x20) = some x) :
    d.cabDone true = ({ d with cab := d.cab.done r }.putSlot k
      { state := .loaded, key := key, check := checkValue (leBytes 96 key.toNat) }).keyLoads x k := by
  simp only [Dev.cabDone, busy, if_true, load, Dev.cabAfter, Dev.cabAnswer, Dev.putSlot, waits]

theorem Dev.cabDone_of_first (first : n = 0) :
    d.cabDone false = { d with cab := { d.cab.put r true with busy := some (r, 1) } } := by
  simp only [Dev.cabDone, busy, Bool.false_eq_true, if_false, if_pos first]

theorem Dev.cabDone_of_second (second : n ≠ 0) (alone : r.after = .nothing) :
    d.cabDone false = { d with cab := ({ d.cab.put r true with busy := none }).startNext }.event (evPlatform 23)
      (cabDetail r.pair (d.cab.target r.pair).1 r.typ.toNat r.id.toNat) := by
  simp only [Dev.cabDone, busy, Bool.false_eq_true, if_false, if_neg second, alone, Dev.cabAfter]

end

/-! ### SEC_CFG -/

section

variable {d : Dev} {p : Port} {v : Nat}

theorem Dev.writeSecCfg_of_noSession (closed : d.session p 1 = false) : d.writeSecCfg p v = d.event (evSecurity 3) :=
  if_pos closed

theorem Dev.writeSecCfg_of_ok (open_ : d.session p 1 = true) (unlocked : d.sec.secLock = false)
    (plain : v.testBit 0 = true ∨ d.plainRegion = false) :
    d.writeSecCfg p v = { d with sec := { d.sec with plaintext := v.testBit 0, secLock := v.testBit 31 } } := by
  have keeps : ¬ (v.testBit 0 = false ∧ d.plainRegion = true) := fun ⟨off, used⟩ =>
    plain.elim (fun on => Bool.false_ne_true (off.symm.trans on)) (fun none_ => Bool.false_ne_true (none_.symm.trans used))
  simp only [Dev.writeSecCfg, open_, unlocked, Bool.true_eq_false, Bool.false_eq_true, if_false, if_neg keeps]

theorem Dev.writeSecCfg_of_reserved (open_ : d.session p 1 = true)
    (refused : d.sec.secLock = true ∨ (v.testBit 0 = false ∧ d.plainRegion = true)) :
    d.writeSecCfg p v = d.regReserved p offSecCfg := by
  rw [Dev.writeSecCfg, if_neg (by rw [open_]; decide)]
  split
  · rfl
  · next unlocked => exact if_pos (refused.resolve_left unlocked)

end

/-- Settles O31: the operations of CABINET_AUTH, the ends of a Cabinet write, and SEC_CFG. -/
theorem partitionsAreOpenedBySecrets : Obligations.PartitionsAreOpenedBySecrets := by
  refine ⟨?_, ?_, ?_⟩
  · intro s t qid cid host x d part
    rcases read : d.load host noAnswers (issuer x) (x.p 1) 32 with ⟨d', b⟩
    intro performs still known buffer mac good
    have runs {e : Dev} (work : d'.authGoes x b.bytes = e) :
        exec (.cabinetAuth t qid cid host) s = .next (s.leave t e) :=
      State.after_command_eq performs ((Dev.cabinetAuth_of_read read still known buffer mac good).trans work)
    refine ⟨fun opens => ?_, fun closes zero => ?_, fun changes session some_ => ?_, fun sets owner session => ?_⟩
    · have goes : d'.authGoes x b.bytes = d'.authOpen x part b.bytes := by simp only [Dev.authGoes, opens]; rfl
      exact ⟨fun locked => runs (goes.trans (Dev.authOpen_of_locked locked)),
        fun unlocked => runs (goes.trans (Dev.authOpen_of_unlocked unlocked))⟩
    · have goes : d'.authGoes x b.bytes = d'.authClose x part b.bytes := by simp only [Dev.authGoes, closes]; rfl
      exact runs (goes.trans (Dev.authClose_of_zero zero))
    · have goes : d'.authGoes x b.bytes = d'.authChange x part b.bytes := by simp only [Dev.authGoes, changes]; rfl
      exact runs (goes.trans (Dev.authChange_of_session session some_))
    · have goes : d'.authGoes x b.bytes = d'.authKwk x part b.bytes := by simp only [Dev.authGoes, sets]; rfl
      rw [owner] at goes
      exact runs (goes.trans (Dev.authKwk_of_session session))
  · intro s t r n d vaux busy
    have runs (ok : Bool) {e : Dev} (work : d.cabDone ok = e) :
        exec (.cabinetWriteDone t ok) s = .next (s.leave t e) :=
      State.after_eq (f := fun d => if d.pwr.vaux then d.cabDone ok else d) ((if_pos vaux).trans work)
    exact ⟨fun q c k key x load waits => runs true (Dev.cabDone_of_keyLoad busy load waits),
      fun first => runs false (Dev.cabDone_of_first busy first),
      fun second alone => runs false (Dev.cabDone_of_second busy second alone)⟩
  · intro s t p v d on
    have runs {e : Dev} (work : d.writeSecCfg p v.toNat = e) : exec (.secCfgWrite t p v) s = .next (s.leave t e) :=
      State.after_eq (f := fun d => if d.portOn p then d.writeSecCfg p v.toNat else d) ((if_pos on).trans work)
    exact ⟨fun closed => runs (Dev.writeSecCfg_of_noSession closed),
      fun open_ unlocked plain => runs (Dev.writeSecCfg_of_ok open_ unlocked plain),
      fun open_ refused => runs (Dev.writeSecCfg_of_reserved open_ refused)⟩

end Sys2Proof.Machine
end

section
/-!
PROOF. Objects (12 Commands, Records in the heap, The index, Collection): an equation per case of OBJ_PUT, OBJ_GET,
OBJ_DELETE, OBJ_STAT, OBJ_SECURE_DELETE, COLLECT and STRIPE_SEAL.
-/

namespace Sys2Proof.Machine

/-! ### Commands that hold ENGINE tokens and let what waits go on -/

theorem State.afterOn_command_eq {s : State} {t op : Nat} {qid : BitVec 7} {cid : BitVec 16} {x : Exec} {d : Dev}
    {f : Dev → Exec → Dev} (h : (s.before t).performs op qid cid x) (work : f (s.before t) x = d) :
    s.afterOn t (fun d => d.command op qid cid f) = .next (s.leave t (d.countMissed.goOn)) :=
  State.afterOn_eq (congrArg (fun d : Dev => d.countMissed.goOn) ((Dev.command_of_performs h f).trans work))

theorem Dev.withTokens_of_granted {d d0 : Dev} {l : List Nat} (granted : d.granted l d0) (f : Dev → Dev) :
    d.withTokens l f = f d0 := by
  obtain ⟨rfl, held⟩ := granted
  exact if_pos (List.all_eq_true.mpr fun c hc => decide_eq_true (held c hc))

theorem Dev.onIndex_of_named {d : Dev} {x : Exec} {ri : Region} (named : d.named x .index (indexId x) = .inr ri)
    (f : Dev → Nat → Region → Dev) : d.onIndex x f = f d (indexId x) ri := by
  simp only [Dev.onIndex, named]

theorem Dev.usable_of_bufferOk {d : Dev} {x : Exec} {w : Word} {n : Nat} (buffer : d.bufferOk (issuer x) w n = true) :
    d.usable x w n = true := by
  rw [Dev.usable, Bool.or_eq_true]; exact .inr buffer

/-! ### OBJ_PUT -/

section

variable {d : Dev} {x : Exec} {ri rh : Region} (host : List HostBytes) (media : Answers)
  (index : d.named x .index (indexId x) = .inr ri) (heap : d.named x .heap (heapId x) = .inr rh)

include index heap

theorem Dev.objPut_of_parked (parked : x.parked = true) : d.objPut host media x = d.putNext media x ri rh := by
  simp only [Dev.objPut, index, heap, parked, if_true]

theorem Dev.objPut_of_ready (fresh : x.parked = false) (good : putBad x rh = false)
    (buffer : d.bufferOk (issuer x) (x.p 3) (putLen x) = true) (keyTaken : d.keyRefused (indexId x) ri (objKey x) = false)
    (taken : d.recordRefused x rh = false) (free : d.keyFree (indexId x) ri (objKey x) = true)
    (room : d.roomFor (stripeLines rh.prot + 12) = true) : d.objPut host media x = d.putStart host media x ri rh := by
  simp only [Dev.objPut, index, heap, fresh, good, Dev.usable_of_bufferOk buffer, keyTaken, taken, free, room,
    Bool.false_eq_true, Bool.true_eq_false, Bool.or_self, Bool.and_self, if_false, if_true]

end

section

variable {d d1 d2 : Dev} {x : Exec} {ri rh : Region} (host : List HostBytes) {media : Answers}

theorem Dev.putStart_of_new {b i k unit : Nat} {new : Bool}
    (absent : d.lookup media (indexId x) ri (objKey x) = (d1, .inr none))
    (slot : d1.makeSlot media (indexId x) ri (objKey x) = (d2, .slot (b, i)))
    (place : d1.placeRecord (heapId x) rh (putUnits x) = some (k, unit, new)) :
    d.putStart host media x ri rh = d2.putRecord host media x ri rh k unit new ⟨b, i, 0⟩ := by
  simp only [Dev.putStart, absent, Option.isSome_none, Bool.false_and, Bool.false_eq_true, if_false, slot, place]

theorem Dev.putStart_of_full (absent : d.lookup media (indexId x) ri (objKey x) = (d1, .inr none))
    (full : d1.makeSlot media (indexId x) ri (objKey x) = (d2, .full)) :
    d.putStart host media x ri rh = (d2.indexFull (indexId x)).complete x stIndexFull 0 := by
  simp only [Dev.putStart, absent, Option.isSome_none, Bool.false_and, Bool.false_eq_true, if_false, full]

theorem Dev.putStart_of_noPlace {b i : Nat} (absent : d.lookup media (indexId x) ri (objKey x) = (d1, .inr none))
    (slot : d1.makeSlot media (indexId x) ri (objKey x) = (d2, .slot (b, i)))
    (noPlace : d1.placeRecord (heapId x) rh (putUnits x) = none) :
    d.putStart host media x ri rh = d1.complete x stHeapFull 0 := by
  simp only [Dev.putStart, absent, Option.isSome_none, Bool.false_and, Bool.false_eq_true, if_false, slot, noPlace]

theorem Dev.putStart_of_exists {o : Slot} (found : d.lookup media (indexId x) ri (objKey x) = (d1, .inr (some o)))
    (keeps : putReplace x = false) : d.putStart host media x ri rh = d1.complete x stObjExists 0 := by
  simp only [Dev.putStart, found, Option.isSome_some, keeps, Bool.not_false, Bool.and_self, if_true]

theorem Dev.putStart_of_replace {o : Slot} {k unit : Nat} {new : Bool}
    (found : d.lookup media (indexId x) ri (objKey x) = (d1, .inr (some o))) (replaces : putReplace x = true)
    (place : d1.placeRecord (heapId x) rh (putUnits x) = some (k, unit, new)) :
    d.putStart host media x ri rh = d1.putRecord host media x ri rh k unit new o := by
  simp only [Dev.putStart, found, replaces, Bool.not_true, Bool.and_false, Bool.false_eq_true, if_false, place]

end

/-- The device with a record's units staged, its source read whole (R446 steps 3 and 4). -/
def Dev.recordStaged (y : Dev × Buf) (x : Exec) (loc : Nat) : Dev :=
  ((y.1.digestBytes (putDigest x) (putLen x)).codeBytes (putK x * shardLen (putLen x) (putK x))).saveUnits x
    (heapId x) loc (BitVec.ofNat 512 (putHead x y.2.bytes).bits :: payloadUnits y.2.bytes (putK x) (putM x))

theorem Dev.putRecord_of_read {d : Dev} {x : Exec} {ri rh : Region} {host : List HostBytes} {media : Answers} {k unit : Nat}
    {new : Bool} {o : Slot} {y : Dev × Buf}
    (read : (d.reserveRecord (heapId x) rh k unit (putUnits x) (objKey x) new).load host media (issuer x) (x.p 3)
      (putLen x) = y) (mac : y.2.macFail = false) (good : y.2.firstBad = none) :
    d.putRecord host media x ri rh k unit new o =
      if (Dev.recordStaged y x (k * rh.units + unit)).bench.exposed || (Dev.recordStaged y x (k * rh.units + unit)).waits x then
        (Dev.recordStaged y x (k * rh.units + unit)).keep x [1, k * rh.units + unit, o.bucket, o.slot]
      else (Dev.recordStaged y x (k * rh.units + unit)).putEnd media x ri (k * rh.units + unit) o := by
  simp only [Dev.putRecord, read, mac, good, Bool.false_eq_true, if_false]
  rfl

/-- Settles O32: the checks of OBJ_PUT, the ways its lookup ends, and the record it stages. -/
theorem objectPutWritesRecordThenEntry : Obligations.ObjectPutWritesRecordThenEntry := by
  intro s t qid cid host media x ri rh d0 d1 d ends entered puts performs granted index heap
  have runs {e : Dev} (work : d0.objPut host media x = e) :
      exec (.objPut t qid cid host media) s = .next (s.leave t (e.countMissed.goOn)) :=
    State.afterOn_command_eq performs ((Dev.withTokens_of_granted granted _).trans work)
  refine ⟨fun parked => runs (Dev.objPut_of_parked host media index heap parked), ?_⟩
  intro fresh good buffer keyTaken taken free room
  have starts := Dev.objPut_of_ready host media index heap fresh good buffer keyTaken taken free room
  constructor
  · intro absent
    refine ⟨fun d2 b i k unit new slot place mac good => ?_, fun d2 full => ?_, fun d2 b i slot noPlace => ?_⟩
    · exact runs (starts.trans ((Dev.putStart_of_new host absent slot place).trans (Dev.putRecord_of_read rfl mac good)))
    · exact runs (starts.trans (Dev.putStart_of_full host absent full))
    · exact runs (starts.trans (Dev.putStart_of_noPlace host absent slot noPlace))
  · intro o found
    refine ⟨fun keeps => ?_, fun k unit new replaces place mac good => ?_⟩
    · exact runs (starts.trans (Dev.putStart_of_exists host found keeps))
    · exact runs (starts.trans ((Dev.putStart_of_replace host found replaces place).trans
        (Dev.putRecord_of_read rfl mac good)))

/-! ### OBJ_GET, OBJ_DELETE and OBJ_STAT -/

section

variable {d d1 : Dev} {x : Exec} {id : Nat} {ri : Region} {media : Answers}
  (free : d.keyFree id ri (objKey x) = true)

include free

section

variable (buffer : d.bufferOk (issuer x) (x.p 3) (x.pn 4 0 32) = true) (room : d.pairWaits media id ri (objKey x) = false)

include buffer room

theorem Dev.objGet_of_absent (absent : d.lookup media id ri (objKey x) = (d1, .inr none)) :
    d.objGet media x id ri = d1.complete x stObjNotFound 0 := by
  simp only [Dev.objGet, Dev.usable_of_bufferOk buffer, free, room, absent, Bool.true_eq_false, Bool.not_true,
    Bool.or_self, Bool.false_eq_true, if_false]

theorem Dev.objGet_of_found {o : Slot} {rh : Region} (found : d.lookup media id ri (objKey x) = (d1, .inr (some o)))
    (heap : d1.heapOf (entryOf o.entry) = .inr rh) :
    d.objGet media x id ri = d1.getObject media x rh (entryOf o.entry) := by
  simp only [Dev.objGet, Dev.usable_of_bufferOk buffer, free, room, found, heap, Bool.true_eq_false, Bool.not_true,
    Bool.or_self, Bool.false_eq_true, if_false]

end

section

variable (taken : d.keyRefused id ri (objKey x) = false) (room : d.roomFor 2 = true)

include taken room

theorem Dev.objDelete_of_absent (absent : d.lookup media id ri (objKey x) = (d1, .inr none)) :
    d.objDelete media x id ri = d1.complete x stObjNotFound 0 := by
  simp only [Dev.objDelete, taken, room, free, absent, Bool.true_eq_false, decide_false, Bool.not_true, Bool.or_self,
    Bool.false_eq_true, if_false]

theorem Dev.objDelete_of_found {o : Slot} (found : d.lookup media id ri (objKey x) = (d1, .inr (some o))) :
    d.objDelete media x id ri = (d1.deleteEntry media id ri o).complete x stSuccess 0 := by
  simp only [Dev.objDelete, taken, room, free, found, Bool.true_eq_false, decide_false, Bool.not_true, Bool.or_self,
    Bool.false_eq_true, if_false]

end

section

variable (buffer : d.bufferOk (issuer x) (x.p 3) 32 = true) (room : d.pairWaits media id ri (objKey x) = false)

include buffer room

theorem Dev.objStat_of_absent (absent : d.lookup media id ri (objKey x) = (d1, .inr none)) :
    d.objStat media x id ri = d1.complete x stObjNotFound 0 := by
  simp only [Dev.objStat, Dev.usable_of_bufferOk buffer, free, room, absent, Bool.true_eq_false, Bool.not_true,
    Bool.or_self, Bool.false_eq_true, if_false]

theorem Dev.objStat_of_found {o : Slot} (found : d.lookup media id ri (objKey x) = (d1, .inr (some o))) :
    d.objStat media x id ri = d1.getEnd media x (leBytes 32 o.entry) (stSuccess, (entryOf o.entry).len) := by
  simp only [Dev.objStat, Dev.usable_of_bufferOk buffer, free, room, found, Bool.true_eq_false, Bool.not_true,
    Bool.or_self, Bool.false_eq_true, if_false]

end

end

theorem Dev.getObject_of_read {d d2 d3 : Dev} {x : Exec} {rh : Region} {e : IdxEntry} {media : Answers} {bs : List Byte}
    (inside : x.pn 4 32 32 ≤ e.len)
    (read : d.objBytes media rh e (x.pn 4 32 32) (min (x.pn 4 0 32) (e.len - x.pn 4 32 32)) = (d2, bs, none))
    (digest : d2.digestStop media rh e (x.pn 4 32 32) (min (x.pn 4 0 32) (e.len - x.pn 4 32 32)) bs = (d3, none)) :
    d.getObject media x rh e = d3.getEnd media x bs
      (if x.pn 4 0 32 < e.len - x.pn 4 32 32 then stObjTruncated else stSuccess, e.len) := by
  simp only [Dev.getObject, if_neg (Nat.not_lt.mpr inside), read, digest]

/-- Settles O33: the lookup of each command, and what it does with the object it finds. -/
theorem objectsAreFoundByKey : Obligations.ObjectsAreFoundByKey := by
  intro s t qid cid media x ri d0 d1 d id index free
  refine ⟨fun performs granted buffer room => ?_, fun performs granted taken room => ?_,
    fun performs granted buffer room => ?_⟩
  · have runs {e : Dev} (work : d0.objGet media x id ri = e) :
        exec (.objGet t qid cid media) s = .next (s.leave t (e.countMissed.goOn)) :=
      State.afterOn_command_eq performs ((Dev.withTokens_of_granted granted _).trans
        ((Dev.onIndex_of_named index _).trans work))
    refine ⟨fun absent => runs (Dev.objGet_of_absent free buffer room absent), ?_⟩
    intro o rh d2 d3 bs found e n heap inside read digest
    exact runs ((Dev.objGet_of_found free buffer room found heap).trans (Dev.getObject_of_read inside read digest))
  · have runs {e : Dev} (work : d0.objDelete media x id ri = e) :
        exec (.objDelete t qid cid media) s = .next (s.leave t (e.countMissed.goOn)) :=
      State.afterOn_command_eq performs ((Dev.withTokens_of_granted granted _).trans
        ((Dev.onIndex_of_named index _).trans work))
    exact ⟨fun absent => runs (Dev.objDelete_of_absent free taken room absent),
      fun o found => runs (Dev.objDelete_of_found free taken room found)⟩
  · have runs {e : Dev} (work : d0.objStat media x id ri = e) :
        exec (.objStat t qid cid media) s = .next (s.leave t (e.countMissed.goOn)) :=
      State.afterOn_command_eq performs ((Dev.withTokens_of_granted granted _).trans
        ((Dev.onIndex_of_named index _).trans work))
    exact ⟨fun absent => runs (Dev.objStat_of_absent free buffer room absent),
      fun o found => runs (Dev.objStat_of_found free buffer room found)⟩

/-! ### COLLECT -/

section

variable {d d2 : Dev} {media : Answers} {region : Nat} {r : Region} {k : Nat}

theorem Dev.collectSource_of_dead (dead : (d.heapZone region k).validUnits = 0) (durable : d.entriesDurable = true) :
    d.collectSource media region r k = (d.releaseSource region r k).1 := by
  rw [Dev.collectSource, if_pos dead, if_pos durable]

theorem Dev.collectSource_of_emptied (live : (d.heapZone region k).validUnits ≠ 0)
    (emptied : d.collectZone media region r k = (d2, .emptied)) (durable : d2.entriesDurable = true) :
    d.collectSource media region r k = (d2.releaseSource region r k).1 := by
  simp only [Dev.collectSource, if_neg live, emptied, durable, if_true]

theorem Dev.collect_of_source {lz : Nat} (found : d.region region = some r) (heap : r.typ = .heap)
    (counted : d.obj.recount = false) (journal : d.journalOk = true) (unlocked : d.noLocks = true)
    (source : (d.noteRunning region r).sourceZone region r = some k) (zone : r.zoneAt k = some lz)
    (still : (d.noteRunning region r).zoneStill lz = true) (target : (d.noteRunning region r).targetFree region r = true)
    (room : (d.noteRunning region r).roomFor 64 = true) :
    d.collect media region = ((d.noteRunning region r).collectSource media region r k).noteRunning region r := by
  simp only [Dev.collect, found, heap, counted, journal, unlocked, and_self, if_true, source, zone, still, target, room,
    Bool.and_self]

end

/-! ### OBJ_SECURE_DELETE and STRIPE_SEAL -/

section

variable {d d1 : Dev} {x : Exec} {id : Nat} {ri : Region} {media : Answers}

theorem Dev.objSecureDelete_of_parked (parked : x.parked = true) :
    d.objSecureDelete media x id ri = d.secureObject media x (x.p 7).toNat := if_pos parked

theorem Dev.objSecureDelete_of_found {o : Slot} (fresh : x.parked = false)
    (taken : d.keyRefused id ri (objKey x) = false) (room : d.roomFor 2 = true)
    (free : d.keyFree id ri (objKey x) = true) (found : d.lookup media id ri (objKey x) = (d1, .inr (some o))) :
    d.objSecureDelete media x id ri = (d1.deleteEntry media id ri o).secureObject media x 1 := by
  simp only [Dev.objSecureDelete, fresh, taken, room, free, found, Bool.true_eq_false, decide_false, Bool.not_true,
    Bool.or_self, Bool.false_eq_true, if_false]

/-- R453, R454: an OBJ_SECURE_DELETE whose zones are all done ends. -/
theorem Dev.secureObject_of_noZone {flags : Nat} {whole : Bool} (done : d.notedZones media (objKey x) = (d1, [], whole))
    (journal : d1.journalOk = true) (unlocked : d1.noLocks = true) (durable : d1.entriesDurable = true)
    (room : d1.roomFor 64 = true) : d.secureObject media x flags = d1.complete x
      (if flags.testBit 0 = false then stObjNotFound else if flags.testBit 1 || !whole then stMediaResidue else stSuccess)
      0 := by
  simp only [Dev.secureObject, done, journal, unlocked, durable, room, List.all_nil, List.isEmpty_nil, List.foldl_nil,
    Bool.and_self, Bool.true_eq_false, Bool.false_eq_true, Bool.not_true, Bool.or_false, if_false]

theorem Dev.stripeSeal_of_due {region k : Nat} {target : Bool} {r : Region} (found : d.region region = some r)
    (heap : r.typ = .heap) (open_ : d.bench.exposed = false) (still : d.bench.draining = false)
    (due : d.sealDue region r target = some k) (room : d.roomFor (stripeLines r.prot) = true) :
    d.stripeSeal region target = d.sealStripe region r k := by
  simp only [Dev.stripeSeal, found, heap, open_, still, due, room, and_self, if_true]

end

/-- Settles O34: the source that COLLECT takes and releases, the parts of OBJ_SECURE_DELETE, and STRIPE_SEAL. -/
theorem heapZonesAreCollectedAndSealed : Obligations.HeapZonesAreCollectedAndSealed := by
  refine ⟨?_, fun d d1 media x flags whole done journal unlocked durable room =>
    Dev.secureObject_of_noZone done journal unlocked durable room⟩
  intro s t d
  refine ⟨?_, ?_, ?_⟩
  · intro region media r k lz d0 d1 works granted counted found heap journal unlocked source zone still target room
    have runs {e : Dev} (work : d1.collectSource media region.toNat r k = e) : exec (.collect t region media) s =
        .next (s.leave t ((e.noteRunning region.toNat r).countMissed.goOn)) := by
      subst work
      refine State.afterOn_eq (congrArg (fun d : Dev => d.countMissed.goOn) ?_)
      refine (if_pos works).trans ((Dev.withTokens_of_granted granted _).trans ?_)
      simp only [counted, Bool.false_eq_true, if_false]
      exact Dev.collect_of_source found heap counted journal unlocked source zone still target room
    exact ⟨fun dead durable => runs (Dev.collectSource_of_dead dead durable),
      fun d2 live emptied durable => runs (Dev.collectSource_of_emptied live emptied durable)⟩
  · intro qid cid media x ri d0 d1 performs granted index
    have runs {e : Dev} (work : d0.objSecureDelete media x (indexId x) ri = e) :
        exec (.objSecureDelete t qid cid media) s = .next (s.leave t (e.countMissed.goOn)) :=
      State.afterOn_command_eq performs ((Dev.withTokens_of_granted granted _).trans
        ((Dev.onIndex_of_named index _).trans work))
    exact ⟨fun parked => runs (Dev.objSecureDelete_of_parked parked),
      fun o fresh taken room free found => runs (Dev.objSecureDelete_of_found fresh taken room free found)⟩
  · intro region target r k running found heap open_ still due room
    exact State.after_eq (f := fun d => if d.life.running then d.stripeSeal region.toNat target else d)
      ((if_pos running).trans (Dev.stripeSeal_of_due found heap open_ still due room))

end Sys2Proof.Machine
end

section
/-!
PROOF. The compute commands in their engines (13 Commands, The Reed-Solomon code): how each enters its engine, what a turn
of EC_ENCODE consumes, and how each ends.
-/

namespace Sys2Proof.Machine

/-! ### A turn -/

section

variable {d : Dev} {x : Exec} (host : List HostBytes) (media : Answers)

theorem Dev.engineRow_of_job {j : EngJob} (job : d.job x.order = some j) (enter : Dev → Dev) :
    d.engineRow host media x enter = d.engineTurn host media x := by
  rw [Dev.engineRow, job, if_pos Option.isSome_some]

theorem Dev.engineRow_of_none (noJob : d.job x.order = none) (enter : Dev → Dev) :
    d.engineRow host media x enter = (enter d).engineTurn host media x := by
  rw [Dev.engineRow, noJob, if_neg (by decide)]

end

/-! ### How a command enters its engine -/

section

variable {d d1 : Dev} {x : Exec} {host : List HostBytes} {media : Answers} {l : List Word}

theorem Dev.enterEncode_of_ok (shards : d.shards host media x = (d1, .inr l)) (streams : ecK x ≤ d1.freeStreams.length)
    (taken : d1.storesRefused x (l.drop (ecK x)) (ecLen x) = false) :
    d.enterEncode host media x = d1.openJob x.order 0 0 (ecLen x) ((upTo (ecK x)).zip l) []
      ((upTo (ecM x)).zip (l.drop (ecK x))) := by
  simp only [Dev.enterEncode, shards, taken, if_neg (Nat.not_lt.mpr streams), Bool.false_eq_true, if_false]

theorem Dev.enterReconstruct_of_ok (good : ecBad x = false) (mask : ecMask x < 2 ^ (ecK x + ecM x))
    (shards : d.shards host media x = (d1, .inr l)) (streams : ecK x ≤ d1.freeStreams.length)
    (some_ : erased x (ecK x + ecM x) ≠ []) (few : (erased x (ecK x + ecM x)).length ≤ ecM x)
    (taken : d1.storesRefused x ((erased x (ecK x + ecM x)).map (fun i => (l[i]?).getD 0)) (ecLen x) = false) :
    d.enterReconstruct host media x = d1.openJob x.order 0 0 (ecLen x)
      ((((upTo (ecK x + ecM x)).zip l).filter (fun p => !(erased x (ecK x + ecM x)).contains p.1)).take (ecK x))
      ((((upTo (ecK x + ecM x)).zip l).filter (fun p => !(erased x (ecK x + ecM x)).contains p.1)).drop (ecK x))
      ((erased x (ecK x + ecM x)).zip ((erased x (ecK x + ecM x)).map (fun i => (l[i]?).getD 0))) := by
  have fields : ¬ (ecBad x = true ∨ 2 ^ (ecK x + ecM x) ≤ ecMask x) := by
    rintro (bad | big)
    · exact Bool.false_ne_true (good.symm.trans bad)
    · exact absurd mask (Nat.not_lt.mpr big)
  have any : ¬ (erased x (ecK x + ecM x)).isEmpty = true := fun empty => some_ (List.isEmpty_iff.mp empty)
  simp only [Dev.enterReconstruct, if_neg fields, shards, if_neg any, if_neg (Nat.not_lt.mpr few), taken,
    if_neg (Nat.not_lt.mpr streams), Bool.false_eq_true, if_false]

theorem Dev.enterSum_of_free {dig n e : Nat} {ins : List Word} (engine : d.engineFor dig = some e)
    (streams : ins.length ≤ d.freeStreams.length) :
    d.enterSum x dig n ins = d.openJob x.order e dig n ((upTo ins.length).zip ins) [] [] := by
  simp only [Dev.enterSum, engine, if_neg (Nat.not_lt.mpr streams)]

theorem Dev.enterVerify_of_ok (some_ : x.pn 3 0 32 ≠ 0) (digest : x.pn 0 0 3 ≤ 3)
    (first : d.bufferOk (issuer x) (x.p 1) (x.pn 3 0 32) = true)
    (second : d.bufferOk (issuer x) (x.p 2)
      (if x.pn 0 0 3 = 0 then x.pn 3 0 32 else digestLen (x.pn 0 0 3)) = true) :
    d.enterVerify x = d.enterSum x (x.pn 0 0 3) (x.pn 3 0 32) (if x.pn 0 0 3 = 0 then [x.p 1, x.p 2] else [x.p 1]) := by
  have fields : ¬ (x.pn 3 0 32 = 0 ∨ 3 < x.pn 0 0 3) := by omega
  simp only [Dev.enterVerify, if_neg fields, Dev.usable_of_bufferOk first, Dev.usable_of_bufferOk second, Bool.and_self,
    if_true]

theorem Dev.enterChecksum_of_ok (some_ : x.pn 2 0 32 ≠ 0) (hasDigest : x.pn 0 0 3 ≠ 0) (digest : x.pn 0 0 3 ≤ 3)
    (apart : overlaps (x.p 3) (digestLen (x.pn 0 0 3)) (x.p 1) (x.pn 2 0 32) = false)
    (source : d.bufferOk (issuer x) (x.p 1) (x.pn 2 0 32) = true)
    (dest : d.bufferOk (issuer x) (x.p 3) (digestLen (x.pn 0 0 3)) = true)
    (taken : d.saveRefused (issuer x) (x.p 3) (digestLen (x.pn 0 0 3)) = false) :
    d.enterChecksum x = d.enterSum x (x.pn 0 0 3) (x.pn 2 0 32) [x.p 1] := by
  have fields : ¬ (x.pn 2 0 32 = 0 ∨ x.pn 0 0 3 = 0 ∨ 3 < x.pn 0 0 3 ∨
      overlaps (x.p 3) (digestLen (x.pn 0 0 3)) (x.p 1) (x.pn 2 0 32) = true) := by
    rw [apart]; simp only [Bool.false_eq_true, or_false]; omega
  simp only [Dev.enterChecksum, if_neg fields, Dev.usable_of_bufferOk source, Dev.usable_of_bufferOk dest, taken,
    Bool.and_self, Bool.true_eq_false, Bool.false_eq_true, if_false]

end

/-! ### What EC_ENCODE consumes -/

theorem Dev.onStream_jobs (d : Dev) (s : Nat) (f : Stream → Stream) : (d.onStream s f).eng.jobs = d.eng.jobs := rfl

theorem Dev.each_onStream_jobs {α : Type} (l : List α) (s : α → Nat) (f : Stream → Stream) (d : Dev) :
    (d.each l (fun d i => d.onStream (s i) f)).eng.jobs = d.eng.jobs := by
  induction l generalizing d with
  | nil => rfl
  | cons i l ih => exact (ih (d.onStream (s i) f)).trans (d.onStream_jobs (s i) f)

theorem Dev.engineBytes_jobs (d : Dev) (engine n : Nat) : (d.engineBytes engine n).eng.jobs = d.eng.jobs := by
  rw [Dev.engineBytes]; split <;> rfl

theorem Dev.computeBlock_of_encode {d : Dev} {x : Exec} (encodes : rebuilds x = false) (host : List HostBytes)
    (media : Answers) (j : EngJob) (n : Nat) : d.computeBlock host media x j n =
      (d, { outs := j.outs.map (fun o => rsShard o.1 n (d.jobBytes j j.pos n)), n := n, cut := none, macFail := false }) :=
  if_neg (ne_true_of_eq_false encodes)

theorem Dev.consume_jobs_of_encode {d : Dev} {x : Exec} (encodes : rebuilds x = false) (host : List HostBytes)
    (media : Answers) (j : EngJob) (n : Nat) : (d.consume host media x j n).eng.jobs =
      d.eng.jobs.filter (fun y => y.order != j.order) ++ [{ j with
        pos := j.pos + n, sum := sumStep j.dig j.sum j.pos (d.jobBytes j j.pos n), cut := none, stalled := false,
        held := List.zipWith (· ++ ·) j.held (j.outs.map (fun o => rsShard o.1 n (d.jobBytes j j.pos n))) }] := by
  simp only [Dev.consume, Dev.computeBlock_of_encode encodes, Dev.engineBytes_jobs, Bool.or_false]
  rw [Dev.each_onStream_jobs j.inputs EngInput.stream]

/-! ### The end of a command -/

section

variable {d : Dev} {x : Exec} {j : EngJob} (host : List HostBytes) (media : Answers)

theorem Dev.endStored_eq (d : Dev) (x : Exec) (dead : Bool) (st : Stop) :
    d.endStored x dead st = d.complete x (if dead then stBarrierLostStore else st.1) (if dead then 0 else st.2) := by
  cases dead <;> rfl

theorem Dev.tryEnd_of_done (job : d.job x.order = some j) (mac : j.macFail = false) (done : j.sure = j.stop x) :
    d.tryEnd host media x = (d.dropJob j.order).endJob host media x j := by
  simp only [Dev.tryEnd, job, mac, Bool.false_eq_true, if_false, if_pos done]

theorem Dev.endVerify_of_compare (compares : j.dig = 0) : d.endVerify host media x j =
    d.complete x (if j.sum.diff = none then stSuccess else stVerifyMismatch) (j.sum.diff.getD 0xFFFFFFFF) := by
  simp only [Dev.endVerify, if_pos compares]
  cases j.sum.diff with
  | none => rfl
  | some o => simp only [verifyStop, reduceCtorEq, if_false, Option.getD_some]

theorem Dev.endChecksum_of_taken (taken : d.saveRefused (issuer x) (x.p 3) (digestLen j.dig) = false) :
    d.endChecksum media x j =
      (d.saveCmd media x (x.p 3) (sumEnd j.dig j.len j.sum)).1.complete x
        (if (d.saveCmd media x (x.p 3) (sumEnd j.dig j.len j.sum)).2 then stBarrierLostStore else stSuccess)
        (if (d.saveCmd media x (x.p 3) (sumEnd j.dig j.len j.sum)).2 then 0
          else if j.dig = 1 then leNat (sumEnd j.dig j.len j.sum) else 0) := by
  simp only [Dev.endChecksum, taken, Bool.false_eq_true, if_false, Dev.endStored_eq]

variable (clean : j.poisoned x = none) (whole : j.cut = none)

include clean whole

theorem Dev.endJob_of_encode (encode : x.opcode = 0x38) :
    d.endJob host media x j = d.complete x (if j.dead then stBarrierLostStore else stSuccess) 0 := by
  simp only [Dev.endJob, clean, whole, encode, Dev.endStored_eq, ite_self]

theorem Dev.endJob_of_reconstruct (rebuild : x.opcode = 0x39) : d.endJob host media x j =
    d.complete x (if j.dead then stBarrierLostStore else stSuccess) (if j.dead then 0 else ecMask x) := by
  simp only [Dev.endJob, clean, whole, rebuild, Dev.endStored_eq]

theorem Dev.endJob_of_verify (verify : x.opcode = 0x3A) : d.endJob host media x j = d.endVerify host media x j := by
  simp only [Dev.endJob, clean, whole, verify]

theorem Dev.endJob_of_checksum (checksum : x.opcode = 0x3B) : d.endJob host media x j = d.endChecksum media x j := by
  simp only [Dev.endJob, clean, whole, checksum]

end

/-- Settles O35: the turns, the ways into the engines, a turn of EC_ENCODE, and the ends. -/
theorem enginesComputeOverBuffers : Obligations.EnginesComputeOverBuffers := by
  refine ⟨?_, ?_, ?_⟩
  · intro s t qid cid host media x d turn
    constructor
    · intro j job
      have again (enter : Dev → Dev) : d.engineRow host media x enter = d.engineTurn host media x :=
        Dev.engineRow_of_job host media job enter
      exact ⟨fun performs => State.afterOn_command_eq performs (again _),
        fun performs => State.afterOn_command_eq performs (again _),
        fun performs => State.afterOn_command_eq performs (again _),
        fun performs => State.afterOn_command_eq performs (again _)⟩
    · intro noJob
      have enters {enter : Dev → Dev} {e : Dev} (work : enter d = e) :
          d.engineRow host media x enter = e.engineTurn host media x :=
        (Dev.engineRow_of_none host media noJob enter).trans (congrArg (fun d : Dev => d.engineTurn host media x) work)
      refine ⟨?_, ?_, ?_, ?_⟩
      · intro d1 l performs shards streams taken
        exact State.afterOn_command_eq performs (enters (Dev.enterEncode_of_ok shards streams taken))
      · intro d1 l performs good mask shards streams gone out rest some_ few taken
        exact State.afterOn_command_eq performs
          (enters (Dev.enterReconstruct_of_ok good mask shards streams some_ few taken))
      · intro performs some_ digest m ins first second e engine streams
        exact State.afterOn_command_eq performs (enters ((Dev.enterVerify_of_ok some_ digest first second).trans
          (Dev.enterSum_of_free engine streams)))
      · intro performs some_ hasDigest digest dl apart source dest taken e engine streams
        exact State.afterOn_command_eq performs (enters ((Dev.enterChecksum_of_ok some_ hasDigest digest apart source dest
          taken).trans (Dev.enterSum_of_free engine streams)))
  · intro d host media x j n encode
    exact Dev.consume_jobs_of_encode (by rw [rebuilds, encode]; decide) host media j n
  · intro d host media x j job mac done clean whole d1
    have ends {e : Dev} (work : d1.endJob host media x j = e) : d.tryEnd host media x = e :=
      (Dev.tryEnd_of_done host media job mac done).trans work
    refine ⟨fun encode => ends (Dev.endJob_of_encode host media clean whole encode),
      fun rebuild => ends (Dev.endJob_of_reconstruct host media clean whole rebuild), fun verify compares => ?_,
      fun checksum taken => ?_⟩
    · exact ends ((Dev.endJob_of_verify host media clean whole verify).trans (Dev.endVerify_of_compare host media compares))
    · exact ends ((Dev.endJob_of_checksum host media clean whole checksum).trans (Dev.endChecksum_of_taken media taken))

end Sys2Proof.Machine
end

section
/-!
PROOF. The read path's starts and timers, and write-back (03 Lane queue and link slots, The 2.5 µs bound, The Verge; 05
Prefetch side buffer, Write-back; 04 From the Bench to the medium): an equation per case of each.
-/

namespace Sys2Proof.Machine

/-- A command that runs while the controller does, and then lets what waits go on. -/
theorem State.afterOn_running {s : State} {t : Nat} {f : Dev → Dev} {d : Dev} (running : (s.before t).life.running = true)
    (work : f (s.before t) = d) :
    s.afterOn t (fun d => if d.life.running then f d else d) = .next (s.leave t (d.countMissed.goOn)) :=
  State.afterOn_eq (congrArg (fun d : Dev => d.countMissed.goOn) ((if_pos running).trans work))

/-! ### The sense in turn -/

section

variable {d : Dev} {lane : Nat}

/-- The NORMAL sense that is due, where there is one. -/
def Dev.startNormal (d0 : Dev) (lane : Nat) (d : Dev) : Dev :=
  match firstSense (((d0.lane1 lane).queue.filter isQueued).filter (fun s => !s.recovery)) with
  | some s => d.launchIf lane s
  | none => d

theorem Dev.senseStart_of_normal
    (noRecovery : firstSense (((d.lane1 lane).queue.filter isQueued).filter (fun s => s.recovery)) = none) :
    d.senseStart lane = d.startNormal lane d := by
  simp only [Dev.senseStart, noRecovery]; rfl

theorem Dev.senseStart_of_recovery {y : Sense}
    (recovery : firstSense (((d.lane1 lane).queue.filter isQueued).filter (fun s => s.recovery)) = some y)
    (allowed : (recentStarts d.now (d.lane1 lane)).length < 12) : d.senseStart lane = d.launchIf lane y := by
  simp only [Dev.senseStart, recovery, allowed, if_true]

theorem Dev.senseStart_of_allowance {y : Sense}
    (recovery : firstSense (((d.lane1 lane).queue.filter isQueued).filter (fun s => s.recovery)) = some y)
    (spent : 12 ≤ (recentStarts d.now (d.lane1 lane)).length) :
    d.senseStart lane = d.startNormal lane (d.noteAllowance lane) := by
  simp only [Dev.senseStart, recovery, if_neg (Nat.not_lt.mpr spent)]; rfl

end

/-- Settles O36: which sense is due, with and without allowance. -/
theorem laneStartsTheSenseInTurn : Obligations.LaneStartsTheSenseInTurn := by
  intro s t lane d q normal rec_ goes first running
  exact ⟨fun noRecovery => State.afterOn_running running (Dev.senseStart_of_normal noRecovery),
    fun y recovery allowed => State.afterOn_running running (Dev.senseStart_of_recovery recovery allowed),
    fun y recovery spent => State.afterOn_running running (Dev.senseStart_of_allowance recovery spent)⟩

/-! ### Timers -/

section

variable {d : Dev}

theorem Dev.readDeadline_of_read {h : Head} {tag : Nat} {x : ReadTx}
    (waits : d.lane.reads.find? (fun x => x.waiters.any (isHost h tag d.now)) = some x) :
    d.readDeadline h tag = d.deadlineAnswer h tag x := by
  simp only [Dev.readDeadline, waits]

theorem Dev.due_of_le {at_ : Nat} (h : at_ ≤ d.now) : d.due at_ = true := decide_eq_true h

theorem Dev.vergeTimeout_of_sensed {y : Sense} {img : Image} {since : Nat} {x : ReadTx} (sensed : y.state = .sensed img since)
    (late : since + 64 ≤ d.now) (read : d.readTx y.read = some x) : d.vergeTimeout y = d.denyVerge x := by
  simp only [Dev.vergeTimeout, sensed, Dev.due_of_le late, if_true, read]

theorem Dev.prefetchIssue_of_hits {h : Head} {i : Nat} {x : Detector} {r : Region}
    (detector : vget none (d.detectors h) i = some x) (found : d.region x.region = some r) (hits : 2 ≤ x.hits)
    (reach : x.next ≤ x.last + d.cache.pfDepth.toNat) (inside : x.next < r.lines)
    (open_ : d.laneOpen r x.region x.next = true) : d.prefetchIssue h i =
      (d.setDetector h i (some { x with next := x.next + 1 })).prefetch h r x.region x.next := by
  have line : d.prefetchLine x r = some x.next := if_pos ⟨hits, reach, inside⟩
  simp only [Dev.prefetchIssue, detector, found, line, open_, if_true]

theorem Dev.strobe_of_due {lane : Nat} (trained : (d.lane1 lane).trained = true) (empty : (d.lane1 lane).queue = [])
    (late : (d.lane1 lane).strobeAt + 10 * msNs ≤ d.now) :
    d.strobe lane = d.setLane lane { d.lane1 lane with strobeAt := d.now } := by
  simp only [Dev.strobe, trained, empty, List.isEmpty_nil, Dev.due_of_le late, Bool.and_self, if_true]

theorem Dev.ztRebuild_of_lost {lz : Nat} (ready : d.ready = true) (media : d.mediaUp = true)
    (lost : d.zt.lost.contains lz = true) :
    d.ztRebuild lz = { d with zt := { d.zt with lost := d.zt.lost.filter (· != lz) } }.writeZte lz (d.zte lz) := by
  rw [Dev.ztRebuild, if_pos (by rw [ready, media, lost]; rfl)]

end

/-- Settles O38: each timer that has run out, the prefetch that is due, and the entry that is rebuilt. -/
theorem readPathTimersRun : Obligations.ReadPathTimersRun := by
  intro s t d
  refine ⟨fun running multiple => ?_, fun h tag x running waits => ?_, fun lane id y img since x running found sensed late read => ?_,
    fun h i x r serving detector found hits reach inside open_ => ?_, fun lane running trained empty late => ?_,
    fun lz ready media lost => ?_⟩
  · refine State.afterOn_eq (congrArg (fun d : Dev => d.countMissed.goOn) (if_pos ?_))
    exact Bool.and_eq_true _ _ ▸ ⟨running, decide_eq_true multiple⟩
  · exact State.afterOn_running running (Dev.readDeadline_of_read waits)
  · exact State.afterOn_onSense_eq running found (Dev.vergeTimeout_of_sensed sensed late read)
  · exact State.afterOn_eq (congrArg (fun d : Dev => d.countMissed.goOn)
      ((if_pos serving).trans (Dev.prefetchIssue_of_hits detector found hits reach inside open_)))
  · exact State.afterOn_running running (Dev.strobe_of_due trained empty late)
  · exact State.after_eq (Dev.ztRebuild_of_lost ready media lost)

/-! ### Write-back -/

section

variable {d : Dev}

theorem Dev.writebackAge_of_due {region line k : Nat} {r : Region} {w : Way} (found : d.region region = some r)
    (way : d.findWay r region line = some (k, w)) (dirty : w.dirty ≠ 0) (limit : d.cache.ageLimit ≠ 0)
    (late : w.dirtyAt + d.cache.ageLimit.toNat * 10 * msNs ≤ d.now) :
    d.writebackAge region line = d.selectLine r region line := by
  simp only [Dev.writebackAge, found, way]
  exact if_pos ⟨dirty, limit, Dev.due_of_le late⟩

theorem Dev.stagingMove_of_free {key : Nat} (free : d.stagingFree = true) (next : d.cache.nextSelected = some key) :
    d.stagingMove = d.stageWay key := by
  simp only [Dev.stagingMove, free, if_true, next]

variable {id : Nat} {e : Entry} (found : d.bench.entry id = some e) (staged : e.state = .staged)

include found staged

theorem Dev.unpin_of_staged : d.unpin id = d := by
  have notPinned : ¬ (e.state = .pinned ∧ e.image = none) := fun ⟨pinned, _⟩ => by rw [staged] at pinned; cases pinned
  simp only [Dev.unpin, found, if_neg notPinned]

variable (media : Answers)

theorem Dev.issue_of_system {recs : List SysRec} (system : e.kind = .system recs) :
    d.issue media id = if d.lineFills e.key then d else d.issueSystem media e recs := by
  simp only [Dev.issue, found, staged, ne_eq, not_true_eq_false, if_false, system]

theorem Dev.issue_of_user {region line : Nat} (user : ∀ recs, e.kind ≠ .system recs) (key : e.key = .user region line) :
    d.issue media id = d.issueUser media e region line := by
  simp only [Dev.issue, found, staged, ne_eq, not_true_eq_false, if_false]
  cases kind : e.kind with
  | system recs => exact absurd kind (user recs)
  | _ => simp only [key]

end

section

variable {d : Dev} {e : Entry} {media : Answers}

theorem Dev.issueSystem_of_room {recs : List SysRec} (room : d.stagingUsed < 8192) (free : d.journalFree e.key = true) :
    d.issueSystem media e recs =
      ({ d with nv := recs.foldl applySys d.nv, bench := d.bench.dropEntry e.id } : Dev).progJournal media recs :=
  if_pos ⟨room, free⟩

theorem Dev.checkZte_of_whole {lz : Nat} (whole : tget [] d.zt.flips lz = []) : d.checkZte lz = d := by
  simp only [Dev.checkZte, whole]

variable {region line : Nat} {r : Region} {u : StripeCtx} {c : LineCtx} (found : d.region region = some r)
  (stripe : d.lineStripe region r line = some (u, c)) (whole : tget [] d.zt.flips u.lz = [])
  (kept : d.zt.lost.contains u.lz = false)

include found stripe whole kept

theorem Dev.issueUser_of_unbound (unbound : zMapped u.e = false) : d.issueUser media e region line = d.wantBind u.lz := by
  simp only [Dev.issueUser, found, stripe, Dev.checkZte_of_whole whole, kept, Bool.false_eq_true, if_false, unbound, if_true]

theorem Dev.issueUser_of_ok (bound : zMapped u.e = true) (ok : d.issueOk u c = true) (free : d.heapHeld u e = false) :
    d.issueUser media e region line =
      if (((d.checkEntry e).1.setEntry (d.checkEntry e).2).pinnedEntry c).isSome then
        ((d.checkEntry e).1.setEntry (d.checkEntry e).2).mergePinned (d.checkEntry e).2 c
      else if ((d.checkEntry e).1.setEntry (d.checkEntry e).2).fullReady u &&
          ((d.checkEntry e).1.setEntry (d.checkEntry e).2).fullStart u then
        ((d.checkEntry e).1.setEntry (d.checkEntry e).2).issueFull u
      else ((d.checkEntry e).1.setEntry (d.checkEntry e).2).issueOne media u c (d.checkEntry e).2 := by
  simp only [Dev.issueUser, found, stripe, Dev.checkZte_of_whole whole, kept, Bool.false_eq_true, if_false, bound, ok, free,
    Bool.true_eq_false, or_self]

end

/-- Settles O39: write-back by age, the move into staging, and what becomes of a staged entry. -/
theorem writeBackMovesLinesOut : Obligations.WriteBackMovesLinesOut := by
  intro s t d running
  refine ⟨fun region line r k w found way dirty limit late => ?_, fun key free next => ?_, fun id media e found staged => ?_⟩
  · exact State.afterOn_running running (Dev.writebackAge_of_due found way dirty limit late)
  · exact State.afterOn_running running (Dev.stagingMove_of_free free next)
  · have issues {d' : Dev} (work : d.issue media id = d') :
        exec (.stagedIssue t id media) s = .next (s.leave t (d'.countMissed.goOn)) :=
      State.afterOn_running (f := fun d => (d.unpin id).issue media id) running
        ((congrArg (fun d : Dev => d.issue media id) (Dev.unpin_of_staged found staged)).trans work)
    refine ⟨fun recs system fills => ?_, fun recs system last room free => ?_,
      fun region line r u c user key region_ stripe whole kept => ⟨fun unbound => ?_, ?_⟩⟩
    · exact issues ((Dev.issue_of_system found staged media system).trans (if_pos fills))
    · exact issues ((Dev.issue_of_system found staged media system).trans
        ((if_neg (ne_true_of_eq_false last)).trans (Dev.issueSystem_of_room room free)))
    · exact issues ((Dev.issue_of_user found staged media user key).trans
        (Dev.issueUser_of_unbound region_ stripe whole kept unbound))
    · intro bound ok held
      exact issues ((Dev.issue_of_user found staged media user key).trans
        (Dev.issueUser_of_ok region_ stripe whole kept bound ok held))

end Sys2Proof.Machine
end

section
/-!
PROOF. Programs in flight and background work (04 From the Bench to the medium; 06 The Roundabout, Moves, Physical zones,
Journal and checkpoints): an equation per case of each.
-/

namespace Sys2Proof.Machine

/-! ### Programs -/

theorem Dev.onProg_of_found {d : Dev} {id : Nat} {p : Prog} (running : d.life.running = true)
    (found : d.bench.progs.find? (fun p => p.id == id) = some p) (f : Dev → Prog → Dev) : d.onProg id f = f d p := by
  simp only [Dev.onProg, running, if_true, found]

theorem State.afterOn_onProg_eq {s : State} {t id : Nat} {p : Prog} {d : Dev} {f : Dev → Prog → Dev}
    (running : (s.before t).life.running = true)
    (found : (s.before t).bench.progs.find? (fun p => p.id == id) = some p) (work : f (s.before t) p = d) :
    s.afterOn t (fun d => d.onProg id f) = .next (s.leave t (d.countMissed.goOn)) :=
  State.afterOn_eq (congrArg (fun d : Dev => d.countMissed.goOn) ((Dev.onProg_of_found running found f).trans work))

section

variable {d : Dev} {p : Prog}

theorem Dev.verifyTimeout_of_late (late : p.startAt + 260 ≤ d.now) : d.verifyTimeout p =
    (d.setProg { p with startAt := d.now }).dieTimeout (plaLane p.spec.pla) (plaDie p.spec.pla) :=
  if_pos (Dev.due_of_le late)

theorem Dev.suspLong_of_long (first : p.longDone = false) (long : 50 * usNs < suspNow d.now p) : d.suspLong p =
    ((d.setProg { p with longDone := true }).count (cntLane (plaLane p.spec.pla) 5) 1).event
      (evLane (plaLane p.spec.pla) 5) := by
  simp only [Dev.suspLong, first, long, Bool.not_false, decide_true, Bool.and_self, if_true]

theorem Dev.mergeRefuse_of_merge {media : Answers} {u : Update} {st : StripeCtx} {c : LineCtx} (merge : p.spec.role = .merge)
    (update : d.bench.update p.update = some u) (stripe : d.stripe u.lzone u.lstripe = some st)
    (check : st.check.find? (fun c => c.pla == p.spec.pla) = some c) :
    d.mergeRefuse media p =
      (let d1 := d.count (cntLane (plaLane p.spec.pla) 6) 1
       let y := (d1.dropProg p.id).mergeImage media st u c p.spec.image
       ({ y.1 with bench := { y.1.bench with progs := d1.bench.progs } } : Dev).setProg
        { p with spec := { p.spec with role := .parity, image := y.2, noise := 0 } }) := by
  simp only [Dev.mergeRefuse, if_pos merge, update, stripe, check]

end

section

variable {d : Dev} {p : Prog} {senses : List (List CellCode)} (residue : Bool)

/-- R148: how a program's last verify sense ends it. -/
theorem Dev.programEnd_of_running (goes : p.suspAt = none) : d.programEnd p senses residue =
    if outsideCount (d.progImage p.spec) (programCells (d.preCleared p.spec.pla && decide (p.attempt = 1))
        (d.progImage p.spec) senses) ≤ outsideLimit (d.profileAt p.spec.pla) then d.verified p residue
    else if p.attempt = 1 then d.setProg { p with attempt := 2, startAt := d.now }
    else d.remap p residue := by
  simp only [Dev.programEnd, goes, Option.isSome_none, Bool.false_eq_true, if_false, Dev.accepts, ne_eq, decide_not,
    Bool.not_not, decide_eq_true_eq]

end

/-- Settles O40: the ends of a program's verify senses, and its time-out, refused merge and long suspension. -/
theorem programsEndVerified : Obligations.ProgramsEndVerified := by
  intro s t id p d running found
  refine ⟨fun senses residue goes => ?_, fun late => ?_, fun media u st c merge update stripe check => ?_,
    fun first long => ?_⟩
  · exact State.afterOn_onProg_eq running found (Dev.programEnd_of_running residue goes)
  · exact State.afterOn_onProg_eq running found (Dev.verifyTimeout_of_late late)
  · exact State.afterOn_onProg_eq running found (Dev.mergeRefuse_of_merge merge update stripe check)
  · exact State.afterOn_onProg_eq running found (Dev.suspLong_of_long first long)

/-! ### Gap moves -/

/-- The zone after a gap move whose copies were all kept (R234). -/
def Dev.gapMoved (d : Dev) (lz e : Nat) : Dev :=
  (((((d.journal .gap 0 lz 0 (gapNext e)).writeZte lz (gapNext e)).resetUpdates lz).addWear (zPz e) 1).wearTriggers
    (zPz e) lz).count (cntPlace 0) 1

section

variable {d d2 d3 : Dev} {lz wseq : Nat} {media : Answers} {u : StripeCtx} {end_ : ProgEnd}

theorem Dev.gapMove_of_due
    (stripe : (d.checkZte lz).stripe lz (stripeAt ((d.checkZte lz).zte lz) (gapSource ((d.checkZte lz).zte lz))) = some u)
    (due : (d.checkZte lz).gapDue lz = true) (clear : (d.checkZte lz).clearFirst = false)
    (quiet : (d.checkZte lz).stripeBusy lz (stripeAt ((d.checkZte lz).zte lz) (gapSource ((d.checkZte lz).zte lz))) = false)
    (tiles : (d.checkZte lz).tilesFree (zPz ((d.checkZte lz).zte lz)) = true)
    (room : (d.checkZte lz).copyRoom media u = true)
    (taken : ((d.checkZte lz).markOutage (zPz ((d.checkZte lz).zte lz))).takeWseq lz = (d2, wseq))
    (copied : d2.copyStripe media u (zPz ((d.checkZte lz).zte lz)) (zGap ((d.checkZte lz).zte lz)) wseq
      (zProfile ((d.checkZte lz).zte lz)) = (d3, end_)) :
    d.gapMove lz media = if end_.kept then d3.gapMoved lz ((d.checkZte lz).zte lz) else d3 := by
  simp only [Dev.gapMove, stripe, due, clear, quiet, tiles, room, taken, copied, Bool.not_false, Bool.and_self, if_true,
    Dev.gapMoved]

end

/-! ### Moves -/

section

variable {d : Dev} {lz : Nat} {media : Answers}

theorem Dev.moveStep_of_switched {m : MoveRun} (work : MoveInputs)
    (switched : d.zt.runs.find? (fun m => m.lzone == lz && m.switched) = some m) :
    d.moveStep lz work media = d.endSource m media := by
  simp only [Dev.moveStep, switched]

section

variable (work : MoveInputs) (noSwitched : d.zt.runs.find? (fun m => m.lzone == lz && m.switched) = none)
  (kept : (d.checkZte lz).zt.lost.contains lz = false)

include noSwitched kept

theorem Dev.moveStep_of_run {m : MoveRun} (run : (d.checkZte lz).runOf lz = some m) :
    d.moveStep lz work media = moveGo media lz work.stripes (d.checkZte lz) := by
  simp only [Dev.moveStep, noSwitched, kept, Bool.false_eq_true, if_false, run, Option.isSome_some, if_true]

theorem Dev.moveStep_of_none (noRun : (d.checkZte lz).runOf lz = none) :
    d.moveStep lz work media = moveGo media lz work.stripes ((d.checkZte lz).tryStart lz work.medians) := by
  simp only [Dev.moveStep, noSwitched, kept, Bool.false_eq_true, if_false, noRun, Option.isSome_none]

end

theorem Dev.tryStart_of_ok {m : MoveReq} {u : StripeCtx} {z : Nat} (medians : List (List (BitVec 8)))
    (pick : d.movePick lz = some m) (stripe : d.stripe lz 0 = some u) (bound : zMapped u.e = true)
    (still : zState u.e = 1) (journal : d.journalOk = true) (target : d.moveTarget m = some z) :
    d.tryStart lz medians = d.moveStart m u z medians := by
  simp only [Dev.tryStart, pick, stripe, bound, still, journal, target, Bool.true_eq_false, if_false, decide_true,
    Bool.and_self, if_true]

variable {m : MoveRun} {u : StripeCtx} (n : Nat) (run : d.runOf lz = some m)
  (stripe : d.stripe lz (m.todo.getD 0) = some u)

include run stripe

theorem moveGo_succ_of_copied {i : Nat} {d1 : Dev} (todo : m.todo = some i) (quiet : d.stripeBusy lz i = false)
    (tiles : d.tilesFree m.target = true) (room : d.copyRoom media u = true) (copied : d.moveCopy m u media = (d1, true)) :
    moveGo media lz (n + 1) d = moveGo media lz n d1 := by
  rw [todo] at stripe
  simp only [moveGo, run, todo, stripe, quiet, tiles, room, copied, Bool.not_true, Bool.or_self, Bool.false_eq_true, if_false]

theorem moveGo_succ_of_done (todo : m.todo = none) (journal : d.journalOk = true) :
    moveGo media lz (n + 1) d = d.switch m u media := by
  rw [todo] at stripe
  simp only [moveGo, run, todo, stripe, journal, if_true]

end

/-! ### Pre-clear, binds and intent marks -/

section

variable {d : Dev}

theorem Dev.preclear_of_dirty {pz : Nat} {media : Answers} (works : d.background = true)
    (noReset : d.zt.resetDue.contains pz = false) (dirty : d.pstate pz = psDirty) (usable : d.zoneUsable pz = true)
    (noSource : ∀ m ∈ d.zt.runs, m.source ≠ pz) (journal : d.journalTakes .pclrDone = true) :
    d.preclear pz media = (d.preclearZone pz media).catchUp := by
  have none_ : d.zt.runs.any (fun m => m.source == pz) = false :=
    List.any_eq_false.mpr fun m hm => by simpa using noSource m hm
  simp only [Dev.preclear, works, noReset, dirty, usable, journal, none_, Bool.and_false, Bool.false_eq_true, if_false,
    decide_true, Bool.not_false, Bool.and_self, if_true]

theorem Dev.bindZone_of_ready {lz id k z : Nat} {r : Region} (waits : d.zt.binds.contains lz = true)
    (whole : tget [] d.zt.flips lz = []) (kept : d.zt.lost.contains lz = false)
    (owner : d.zoneOwner lz = some (id, r, k)) (reserve : d.reserveZone = some z) (unbound : zMapped (d.zte lz) = false)
    (journal : d.journalOk = true) (tokens0 : d.tokensHeld 0 < d.benchLimit 0) (tokens1 : d.tokensHeld 1 < d.benchLimit 1) :
    d.bindZone lz = d.bindTo lz z r := by
  simp only [Dev.bindZone, Dev.checkZte_of_whole whole, waits, kept, owner, reserve, unbound, journal, tokens0, tokens1,
    Bool.not_false, Bool.and_self, Bool.false_eq_true, if_false, decide_true, if_true]

theorem Dev.intentClear_of_idle {pz : Nat} (ready : d.ready = true) (still : d.bench.draining = false)
    (marked : d.intent pz ≠ 0) (idle : ∀ lz, d.boundTo pz = some lz → ∀ u ∈ d.bench.updates, u.lzone ≠ lz)
    (late : tget 0 d.zt.lastUpdate pz + secNs ≤ d.now) : d.intentClear pz =
      { d.sysPut (.intent pz 0) with zt := { (d.sysPut (.intent pz 0)).zt with
        lastUpdate := tset 0 (d.sysPut (.intent pz 0)).zt.lastUpdate pz 0 } } := by
  have notBusy : (match d.boundTo pz with
      | some lz => d.bench.updates.any (fun u => u.lzone == lz)
      | none => false) = false := by
    split
    · next lz bound => exact List.any_eq_false.mpr fun u hu => by simpa using idle lz bound u hu
    · rfl
  refine if_pos ?_
  simp only [Bool.and_eq_true, Bool.not_eq_true', decide_eq_true_eq]
  exact ⟨⟨⟨⟨ready, still⟩, marked⟩, notBusy⟩, Dev.due_of_le late⟩

end

/-- Settles O41: gap moves, moves, pre-clear, binds, checkpoints and intent marks, each where its conditions hold. -/
theorem backgroundWorkRuns : Obligations.BackgroundWorkRuns := by
  refine ⟨?_, fun d media lz n m u run stripe =>
    ⟨fun i d1 todo quiet tiles room copied => moveGo_succ_of_copied n run stripe todo quiet tiles room copied,
      fun todo journal => moveGo_succ_of_done n run stripe todo journal⟩⟩
  intro s t d
  refine ⟨?_, ?_, ?_, ?_, ?_, ?_, ?_⟩
  · intro lz media u d2 wseq d3 end_ d1 e stripe due clear quiet tiles room taken copied
    exact State.afterMedia_eq (Dev.gapMove_of_due stripe due clear quiet tiles room taken copied)
  · intro lz work media works clear
    have may : (d.background && !d.clearFirst) = true := by rw [works, clear]; rfl
    have runs {d' : Dev} (step : d.moveStep lz.toNat work media = d') :
        exec (.move t lz work media) s = .next (s.leave t d'.countMissed) :=
      State.afterMedia_eq (f := fun d => if d.background && !d.clearFirst then d.moveStep lz.toNat work media else d)
        ((if_pos may).trans step)
    refine ⟨fun m switched => runs (Dev.moveStep_of_switched work switched), ?_⟩
    intro noSwitched d1 kept
    refine ⟨fun m run => runs (Dev.moveStep_of_run work noSwitched kept run), ?_⟩
    intro m u z noRun pick stripe bound still journal target
    exact runs ((Dev.moveStep_of_none work noSwitched kept noRun).trans
      (congrArg (moveGo media lz.toNat work.stripes)
        (Dev.tryStart_of_ok work.medians pick stripe bound still journal target)))
  · intro pz media works noReset dirty usable noSource journal
    exact State.afterMedia_eq (Dev.preclear_of_dirty works noReset dirty usable noSource journal)
  · intro lz id r k z running waits whole kept owner reserve unbound journal tokens0 tokens1
    exact State.after_eq (f := fun d => if d.life.running then d.bindZone lz.toNat else d)
      ((if_pos running).trans (Dev.bindZone_of_ready waits whole kept owner reserve unbound journal tokens0 tokens1))
  · intro ready media
    exact State.after_eq (f := fun d => if d.ready && d.mediaUp then d.refillReserve else d)
      (if_pos (by rw [ready, media]; rfl))
  · intro media works due tiles
    exact State.afterMedia_eq
      (f := fun d => if d.background && d.ckptDue && d.ckptTiles then (d.checkpoint media).catchUp else d)
      (if_pos (by rw [works, due, tiles]; rfl))
  · intro pz ready still marked idle late
    exact State.after_eq (Dev.intentClear_of_idle ready still marked idle late)

end Sys2Proof.Machine
end

section
/-!
PROOF. LANE_CTRL, self-tests and restore (07 Taking a lane or die out of service, Self-test of a lane or die, Restore and
return to service), the maintenance engine and scratch ways (05): an equation per case of each.
-/

namespace Sys2Proof.Machine

/-! ### LANE_CTRL -/

/-- The fields that a write of LANE_CTRL keeps (R301). -/
def Dev.laneFields (d : Dev) (v : Nat) : Dev :=
  { d with lane := { d.lane with
    ctrlLane := BitVec.ofNat 4 v, ctrlDie := BitVec.ofNat 3 (v / 16), ctrlScope := v.testBit 7,
    ctrlOp := BitVec.ofNat 2 (v / 256) } }

/-- LAST_STATUS takes the status of an operation (R301). -/
def Dev.noteStatus (r : Dev × Nat) : Dev := { r.1 with lane := { r.1.lane with lastStatus := BitVec.ofNat 12 r.2 } }

/-- The die that a LANE_CTRL value names, or none for its whole lane. -/
def ctrlDieOf (v : Nat) : Option Nat := if v.testBit 7 then none else some (fld v 4 3)

section

variable {d : Dev} {lane : Nat} {die : Option Nat}

theorem Dev.writeLaneCtrl_of_go {v : Nat} (go : v.testBit 10 = true) : d.writeLaneCtrl v =
    Dev.noteStatus ((d.laneFields v).laneOp (fld v 8 2) (fld v 0 4) (ctrlDieOf v)) := if_pos go

theorem Dev.laneCtrlRow_of_op {p : Port} {op : Nat} {v : BitVec 32} (on : d.portOn p = true) (code : fld v.toNat 8 2 = op)
    (go : v.toNat.testBit 10 = true) : d.laneCtrlRow p op v =
      Dev.noteStatus ((d.laneFields v.toNat).laneOp op (fld v.toNat 0 4) (ctrlDieOf v.toNat)) := by
  rw [Dev.laneCtrlRow, on, decide_eq_true code, go, if_pos (by decide), Dev.writeLaneCtrl_of_go go, code]

variable (ok : d.scopeOk die = true)

include ok

theorem Dev.opTakeOut_of_inService (serves : d.scopeState lane die = .inService) : d.opTakeOut lane die =
    if (d.scopePositions die).any (d.otherOut lane) then (d, stLaneOpRefused) else (d.takeOut lane die 6, stSuccess) := by
  simp only [Dev.opTakeOut, ok, serves, Bool.true_eq_false, ne_eq, not_true_eq_false, if_false]

theorem Dev.opTest_of_inService (cmd : Option (Nat × Nat)) (serves : d.scopeState lane die = .inService) :
    d.opTest lane die cmd = (d, stBusyInService) := by
  simp only [Dev.opTest, ok, serves, Bool.true_eq_false, if_false]

theorem Dev.opTest_of_out (cmd : Option (Nat × Nat)) (out : d.scopeState lane die = .detour ∨
      (d.scopeState lane die = .dead ∧ ∀ r ∈ d.life.tests, r.lane = lane → r.die ≠ die)) :
    d.opTest lane die cmd = (d.startTest lane die cmd, stSuccess) := by
  rcases out with detour | ⟨dead, noTest⟩
  · simp only [Dev.opTest, ok, detour, Bool.true_eq_false, if_false]
  · have none_ : d.life.tests.any (fun r => r.lane == lane && decide (r.die = die)) = false := by
      refine List.any_eq_false.mpr fun r hr => ?_
      simpa using noTest r hr
    simp only [Dev.opTest, ok, dead, none_, Bool.true_eq_false, Bool.false_eq_true, if_false]

theorem Dev.opReturn_of_tested (low : 1 ≤ (d.lane1 lane).testResult) (high : (d.lane1 lane).testResult ≤ 3)
    (detour : d.scopeState lane die = .detour) : d.opReturn lane die = (d.startRestore lane die, stSuccess) := by
  simp only [Dev.opReturn, ok, low, high, detour, Bool.true_eq_false, and_self, if_false, if_true]

end

/-! ### The end of a test, and restore -/

theorem exec_selfTestDone (t : Nat) (l : Fin 16) (linkOk : Bool) (dieOk : BitVec 8) (bad : List (Fin 8 × BitVec 18))
    (s : State) : exec (.selfTestDone t l linkOk dieOk bad) s = s.after t (fun d =>
      if d.life.running then
        d.selfTestDone l.val linkOk dieOk.toNat (bad.map (fun b => (b.1.val, b.2.toNat)))
      else d) := rfl

section

variable {d : Dev} {lane : Nat}

theorem Dev.selfTestDone_of_found {linkOk : Bool} {dieOk : Nat} {bad : List (Nat × Nat)} {run : TestRun}
    (found : d.life.tests.find? (fun r => r.lane == lane) = some run) :
    d.selfTestDone lane linkOk dieOk bad =
      (let listed := bad.filter (fun b => (d.scopePositions run.die).contains b.1)
       let d2 : Dev := { d with life := { d.life with tests := d.life.tests.filter (fun r => r != run) } }
       let fails := d2.failingDies run.die dieOk listed
       let result := testResultOf run.die linkOk fails listed
       let d3 := d2.onLane lane (fun x => { x with testResult := result })
       (((if run.wasDead then d3 else d3.testActs lane run.die result fails listed).laneRecord lane).event
          (evLane lane 9)).answerTest run result) := by
  simp only [Dev.selfTestDone, found]
  rfl

variable {media : Answers} (works : d.background = true) (restores : d.restoreOn lane = true)

include works restores

theorem Dev.restoreStep_of_zone {pz : Nat} (next : d.restoreNext lane = some pz) (journal : d.journalOk = true)
    (quiet : d.zoneQuiet pz = true) (tiles : d.tilesFree pz = true) :
    d.restoreStep media lane = d.restoreZone media lane pz := by
  simp only [Dev.restoreStep, works, restores, next, journal, quiet, tiles, Bool.and_self, if_true]

theorem Dev.restoreStep_of_none (next : d.restoreNext lane = none) : d.restoreStep media lane = d.restoreEnd lane := by
  simp only [Dev.restoreStep, works, restores, next, Bool.and_self, if_true]

end

/-- Settles O42: the operations of LANE_CTRL, the end of a test, and a step of restore. -/
theorem laneControlTakesOutTestsAndReturns : Obligations.LaneControlTakesOutTestsAndReturns := by
  intro s t p v d lane die d1 notes
  refine ⟨?_, ?_, ?_⟩
  · intro on go ok
    have row {op : Nat} {r : Dev × Nat} (code : fld v.toNat 8 2 = op) (work : d1.laneOp op lane die = r) :
        s.after t (fun d => d.laneCtrlRow p op v) = .next (s.leave t (notes r.1 r.2)) :=
      State.after_eq ((Dev.laneCtrlRow_of_op on code go).trans (congrArg Dev.noteStatus work))
    refine ⟨fun code serves => ⟨fun other => ?_, fun alone => ?_⟩, fun code out => ?_, fun code serves => ?_,
      fun code low high detour => ?_⟩
    · exact row code ((Dev.opTakeOut_of_inService ok serves).trans (if_pos other))
    · exact row code ((Dev.opTakeOut_of_inService ok serves).trans (if_neg (ne_true_of_eq_false alone)))
    · exact row code (Dev.opTest_of_out ok none out)
    · exact row code (Dev.opTest_of_inService ok none serves)
    · exact row code (Dev.opReturn_of_tested ok low high detour)
  · intro l linkOk dieOk bad run running found listed d2 fails result d3
    rw [exec_selfTestDone]
    exact State.after_eq ((if_pos running).trans (Dev.selfTestDone_of_found found))
  · intro l media works restores
    exact ⟨fun pz next journal quiet tiles =>
        State.afterMedia_eq (Dev.restoreStep_of_zone works restores next journal quiet tiles),
      fun next => State.afterMedia_eq (Dev.restoreStep_of_none works restores next)⟩

/-! ### The maintenance engine -/

section

variable {d : Dev} {op : Nat}

theorem Dev.maintStart_of_busy (busy : d.maintBusy = true) : d.maintStart op = d.maintRefused := by
  rw [Dev.maintStart, busy, Bool.true_or, if_pos rfl]

theorem Dev.maintStart_of_outside (free : d.maintBusy = false) (outside : d.maintOp op = none) :
    d.maintStart op = d.maintRefused := by
  rw [Dev.maintStart, free, Bool.false_or, outside]
  exact ite_self _

theorem Dev.maintStart_of_ok {m : MaintOp} (some_ : op ≠ 0) (free : d.maintBusy = false) (ok : d.maintOp op = some m) :
    d.maintStart op = { d with cache := { d.cache with maint := some m } }.addWork .register := by
  simp only [Dev.maintStart, free, some_, decide_false, Bool.or_self, Bool.false_eq_true, if_false, ok]

theorem Dev.maintRow_of_op {p : Port} {v : BitVec 32} (on : d.portOn p = true) (code : fld v.toNat 0 2 = op)
    (start : v.toNat.testBit 2 = true) : d.maintRow p op v =
      ({ d with cache := { d.cache with mOp := BitVec.ofNat 2 v.toNat } } : Dev).maintStart op := by
  rw [Dev.maintRow, on, decide_eq_true code, start, if_pos (by decide), Dev.writeMaintCtrl, if_pos start, code]

theorem Dev.maintDone_of_working {m : MaintOp} (runs : d.cache.maint = some m) (works : d.working .register = true)
    (done : m.op = 2 ∨ d.maintClean m = true) : d.maintDone =
      (if m.op = 1 then ({ d with cache := { d.cache with maint := none } } : Dev)
        else ({ d with cache := { d.cache with maint := none } } : Dev).maintDrop m).nextWork := by
  have ends : (d.working .register && (decide (m.op = 2) || d.maintClean m)) = true := by
    rw [works, Bool.true_and, Bool.or_eq_true, decide_eq_true_eq]; exact done
  simp only [Dev.maintDone, runs, ends, if_true]

end

/-! ### Scratch ways -/

section

variable {d : Dev} {v : Nat}

theorem Dev.writeScratchCfg_of_busy (busy : d.maintBusy = true) : d.writeScratchCfg v = d.maintRefused := if_pos busy

theorem Dev.writeScratchCfg_of_other (free : d.maintBusy = false) (other : fld v 0 2 ≠ d.cache.steps.toNat) :
    d.writeScratchCfg v = { d with cache := { d.cache with
      cfgSteps := BitVec.ofNat 2 (fld v 0 2), conv := some { target := fld v 0 2 } } }.addWork .conversion := by
  simp only [Dev.writeScratchCfg, free, Bool.false_eq_true, if_false, if_neg other]

variable {c : Conversion} (runs : d.cache.conv = some c) (works : d.working .conversion = true)

include runs works

theorem Dev.conversionDone_of_busy (more : d.cache.steps.toNat < c.target)
    (busy : d.convBusy d.cache.steps.toNat c.target = true) :
    d.conversionDone = d.convSelect d.cache.steps.toNat c.target := by
  simp only [Dev.conversionDone, runs, works, more, busy, Bool.true_eq_false, if_false, and_self, if_true]

theorem Dev.conversionDone_of_clean
    (clean : ¬ (d.cache.steps.toNat < c.target ∧ d.convBusy d.cache.steps.toNat c.target = true)) :
    d.conversionDone = (d.endConversion d.cache.steps.toNat c.target).nextWork := by
  simp only [Dev.conversionDone, runs, works, Bool.true_eq_false, if_false, if_neg clean]

end

/-- Settles O43: the starts and ends of the maintenance engine's operations and of a conversion. -/
theorem cacheMaintenanceAndScratch : Obligations.CacheMaintenanceAndScratch := by
  have undrained {d : Dev} (running : d.life.running = true) (still : d.bench.draining = false) :
      (d.life.running && !d.bench.draining) = true := by rw [running, still]; rfl
  constructor
  · intro s t p v d op d1 refused
    refine ⟨?_, ?_⟩
    · intro on start i row
      have runs {e : Dev} (work : d1.maintStart op = e) : exec i s = .next (s.leave t e) := by
        rcases row with ⟨code, rfl⟩ | ⟨code, rfl⟩ | ⟨code, rfl⟩ <;>
          exact State.after_eq ((Dev.maintRow_of_op on code start).trans
            ((congrArg d1.maintStart code.symm).trans work))
      have some_ : op ≠ 0 := by
        rcases row with ⟨code, -⟩ | ⟨code, -⟩ | ⟨code, -⟩ <;> rw [code] <;> decide
      exact ⟨fun busy => runs (Dev.maintStart_of_busy busy), fun free outside => runs (Dev.maintStart_of_outside free outside),
        fun m free ok => runs (Dev.maintStart_of_ok some_ free ok)⟩
    · intro m running still maint works done d2
      exact State.after_eq (f := fun d => if d.life.running && !d.bench.draining then d.maintDone else d)
        ((if_pos (undrained running still)).trans (Dev.maintDone_of_working maint works done))
  · intro s t d
    refine ⟨?_, ?_⟩
    · intro p v on target
      have runs {e : Dev} (work : d.writeScratchCfg v.toNat = e) : exec (.scratchCfgWrite t p v) s = .next (s.leave t e) :=
        State.after_eq (f := fun d => if d.portOn p then d.writeScratchCfg v.toNat else d) ((if_pos on).trans work)
      exact ⟨fun busy => runs (Dev.writeScratchCfg_of_busy busy),
        fun free other => runs (Dev.writeScratchCfg_of_other free other)⟩
    · intro c running still conv works
      have runs {e : Dev} (work : d.conversionDone = e) : exec (.scratchConversionDone t) s = .next (s.leave t e) :=
        State.after_eq (f := fun d => if d.life.running && !d.bench.draining then d.conversionDone else d)
          ((if_pos (undrained running still)).trans work)
      refine ⟨fun more busy => runs (Dev.conversionDone_of_busy conv works more busy), ?_⟩
      intro clean keep
      exact runs (Dev.conversionDone_of_clean conv works clean)

end Sys2Proof.Machine
end

section
/-!
PROOF. Streams and DMA channels of the service writer (13 Stream FIFOs, DMA, Registers): what reaches them, and an equation
per case of each command.
-/

namespace Sys2Proof.Machine

/-! ### What the commands to a stream run -/

section

variable (t : Nat) (p : Port) (i : Fin 64) (s : State)

theorem exec_streamFlush : exec (.streamFlush t p i) s =
    s.after t (fun d => d.onService p i.val (fun d => d.flush i.val)) := rfl

theorem exec_streamMark : exec (.streamMark t p i) s =
    s.after t (fun d => d.onService p i.val (fun d => d.onStream i.val Stream.setMark)) := rfl

theorem exec_streamRewind : exec (.streamRewind t p i) s =
    s.after t (fun d => d.onService p i.val (fun d => d.onStream i.val Stream.rewind)) := rfl

theorem exec_streamRelease : exec (.streamRelease t p i) s =
    s.after t (fun d => d.onService p i.val (fun d => d.releaseStream i.val)) := rfl

theorem exec_streamCfgWrite (v : BitVec 32) : exec (.streamCfgWrite t p i v) s =
    s.after t (fun d => d.onService p i.val (fun d => d.writeStreamCfg i.val v.toNat)) := rfl

end

/-! ### What the commands to a channel run -/

section

variable (t : Nat) (p : Port) (c : Fin 32) (v : BitVec 32) (s : State)

theorem exec_dmaEn : exec (.dmaEn t p c v) s =
    s.after t (fun d => d.onChanPort p c.val (fun d => d.dmaEnable c.val (v.toNat.testBit 0))) := rfl

theorem exec_dmaStop : exec (.dmaStop t p c) s =
    s.after t (fun d => d.onChanPort p c.val (fun d => d.dmaStop c.val)) := rfl

theorem exec_dmaTail : exec (.dmaTail t p c v) s =
    s.after t (fun d => d.onChanPort p c.val (fun d => d.writeDmaTail c.val v.toNat)) := rfl

theorem exec_dmaCfgWrite : exec (.dmaCfgWrite t p c v) s =
    s.after t (fun d => d.onChanPort p c.val (fun d => d.writeDmaCfg p c.val v.toNat)) := rfl

end

/-! ### Who reaches a stream and a channel -/

section

variable {d : Dev} {h : Head} (on : d.headOn h = true) (f : Dev → Dev)

include on

theorem Dev.onHeadPort_of_on : d.onHeadPort (.head h) f = f d := if_pos on

theorem Dev.onService_of_on {i : Fin 64} (service : 48 ≤ i.val) : d.onService (.head h) i.val f = f d := by
  have mine : serviceStream i.val = true := by rw [serviceStream, decide_eq_true service, decide_eq_true i.isLt]; rfl
  rw [Dev.onService, Dev.onHeadPort_of_on on, if_pos mine]

theorem Dev.onChanPort_of_on {c : Nat} (service : 16 ≤ c) : d.onChanPort (.head h) c f = f d := by
  rw [Dev.onChanPort, Dev.onHeadPort_of_on on]
  exact if_pos (decide_eq_true service)

end

theorem Dev.onHeadPort_of_same (d : Dev) (p : Port) (f : Dev → Dev) (same : p = .sideband ∨ f d = d) :
    d.onHeadPort p f = d := by
  cases p with
  | sideband => rfl
  | head h =>
    rcases same with sideband | same
    · cases sideband
    · simp only [Dev.onHeadPort, same, ite_self]

theorem Dev.onService_of_other (d : Dev) {p : Port} {i : Nat} (f : Dev → Dev) (other : p = .sideband ∨ i < 48) :
    d.onService p i f = d := by
  refine d.onHeadPort_of_same p _ (other.imp_right fun low => if_neg ?_)
  rw [serviceStream, decide_eq_false (Nat.not_le.mpr low)]
  exact Bool.false_ne_true

theorem Dev.onChanPort_of_other (d : Dev) {p : Port} {c : Nat} (f : Dev → Dev) (other : p = .sideband ∨ c < 16) :
    d.onChanPort p c f = d := by
  refine d.onHeadPort_of_same p _ (other.imp_right fun low => if_neg ?_)
  rw [serviceChan, decide_eq_false (Nat.not_le.mpr low)]
  exact Bool.false_ne_true

/-! ### FLUSH -/

section

variable {d : Dev} {i : Nat}

theorem Dev.flush_of_rewindable (mode : (d.stream i).mode = false) :
    d.flush i = d.setStream i { d.stream i with err := true } := if_pos mode

theorem Dev.flush_of_atEnd (mode : (d.stream i).mode = true) (atEnd : (d.stream i).atEnd = true) :
    d.flush i = d.flushNow i := by
  simp only [Dev.flush, mode, atEnd, Bool.true_eq_false, if_false, if_true]

theorem Dev.flush_of_inside (mode : (d.stream i).mode = true) (inside : (d.stream i).atEnd = false) :
    d.flush i = d.setStream i { d.stream i with pending := true } := by
  simp only [Dev.flush, mode, inside, Bool.true_eq_false, Bool.false_eq_true, if_false]

theorem Dev.flushEffect_of_pending (pending : (d.stream i).pending = true) (atEnd : (d.stream i).atEnd = true) :
    d.flushEffect i = d.flushNow i := by
  rw [Dev.flushEffect, pending, atEnd, if_pos (by decide)]

end

/-- Settles O44: what each command does to a stream of the service writer, and that nothing else reaches one. -/
theorem streamCommandsMoveItsPointers : Obligations.StreamCommandsMoveItsPointers := by
  constructor
  · intro s t h i d x on service
    have runs {f : Dev → Dev} {e : Dev} (work : f d = e) :
        s.after t (fun d => d.onService (.head h) i.val f) = .next (s.leave t e) :=
      State.after_eq ((Dev.onService_of_on on f service).trans work)
    rw [exec_streamFlush, exec_streamMark, exec_streamRewind, exec_streamRelease]
    refine ⟨fun mode => runs (Dev.flush_of_rewindable mode), fun mode atEnd => runs (Dev.flush_of_atEnd mode atEnd),
      fun mode inside => runs (Dev.flush_of_inside mode inside), fun running pending atEnd => ?_, runs rfl, runs rfl,
      runs rfl, fun v => ?_⟩
    · exact State.after_eq (f := fun d => if d.life.running then d.flushEffect i.val else d)
        ((if_pos running).trans (Dev.flushEffect_of_pending pending atEnd))
    · rw [exec_streamCfgWrite]
      exact runs rfl
  · intro s t p i c v
    refine ⟨fun other => ?_, fun other => ?_, ?_⟩
    · have idle (f : Dev → Dev) : s.after t (fun d => d.onService p i.val f) = .next (s.leave t (s.before t)) :=
        State.after_eq (Dev.onService_of_other _ f other)
      exact ⟨idle _, idle _, idle _, idle _, idle _⟩
    · have idle (f : Dev → Dev) : s.after t (fun d => d.onChanPort p c.val f) = .next (s.leave t (s.before t)) :=
        State.after_eq (Dev.onChanPort_of_other _ f other)
      exact ⟨idle _, idle _, idle _, idle _, idle _, idle _⟩
    · exact State.after_eq (f := fun d => d.onHeadPort .sideband (fun d => d.writeDmaReq v.toNat)) rfl

/-! ### Channels -/

section

variable {d : Dev} {c : Nat}

theorem Dev.dmaStop_of_other (other : (d.chan c).state ≠ 1) : d.dmaStop c = d := if_pos other

section

variable (runs : (d.chan c).state = 1)

include runs

theorem Dev.dmaStop_of_idle (idle : ∀ r, (d.chan c).cur = some r → r.left = 0) :
    d.dmaStop c = d.dmaHalt c 8 noAnswers := by
  rw [Dev.dmaStop, if_neg (not_not_intro runs)]
  cases cur : (d.chan c).cur with
  | none => rfl
  | some r => exact if_neg (by rw [idle r cur]; exact Nat.lt_irrefl 0)

theorem Dev.dmaStop_of_burst {r : DescRun} (cur : (d.chan c).cur = some r) (left : 0 < r.left) :
    d.dmaStop c = d.setChan c { d.chan c with cur := some { r with stopping := true } } := by
  rw [Dev.dmaStop, if_neg (not_not_intro runs), cur]
  exact if_pos left

end

section

variable {v : Nat}

theorem Dev.writeDmaTail_of_inside (inside : fld v 0 12 < (d.chan c).depth) : d.writeDmaTail c v =
    (d.onChan c (fun x => { x with tail := fld v 0 12 })).refreshChan c := if_pos inside

theorem Dev.writeDmaTail_of_outside (outside : (d.chan c).depth ≤ fld v 0 12) (live : (d.chan c).state ≠ 2) :
    d.writeDmaTail c v = d.dmaHalt c 6 noAnswers := by
  simp only [Dev.writeDmaTail, if_neg (Nat.not_lt.mpr outside), if_neg live]

theorem Dev.writeDmaCfg_of_ok (p : Port) (off : (d.chan c).en = false) (deep : fld v 0 12 ≠ 0) : d.writeDmaCfg p c v =
    (d.onChan c (fun x => { x with depth := fld v 0 12 + 1, head := v.testBit 12 })).refreshChan c := by
  simp only [Dev.writeDmaCfg, off, deep, decide_false, Bool.or_self, Bool.false_eq_true, if_false]

theorem Dev.writeDmaCfg_of_refused (p : Port) (refused : (d.chan c).en = true ∨ fld v 0 12 = 0) :
    d.writeDmaCfg p c v = d.regReserved p (0x51008 + 64 * c) := by
  refine if_pos ?_
  rw [Bool.or_eq_true, decide_eq_true_eq]
  exact refused

end

section

variable {d0 : Dev} (host : List HostBytes) (link : Option Nat) (media : Answers) (service : 16 ≤ c)
  (runs : ((d.chan c).en || (d.chan c).stopping) = true) (live : (d.chan c).state ≠ 2) (still : d.bench.draining = false)
  (up : d.life.shutting = none) (granted : d.granted [12 + c] d0)

include service runs live still up

theorem Dev.dmaStep_cond : ¬ (c < 16 ∨ ((d.chan c).en || (d.chan c).stopping) = false ∨ (d.chan c).state = 2 ∨
    d.bench.draining = true ∨ d.life.shutting.isSome = true) := by
  rintro (firmware | stopped | halted | draining | down)
  · exact absurd service (Nat.not_le.mpr firmware)
  · exact Bool.false_ne_true (stopped.symm.trans runs)
  · exact live halted
  · exact Bool.false_ne_true (still.symm.trans draining)
  · rw [up] at down; exact Bool.false_ne_true down

include granted

theorem Dev.dmaStep_of_cur {r : DescRun} (cur : (d.chan c).cur = some r) :
    d.dmaStep c host link media = d0.dmaGo c host link media := by
  rw [Dev.dmaStep, if_neg (Dev.dmaStep_cond service runs live still up), cur]
  exact Dev.withTokens_of_granted granted _

theorem Dev.dmaStep_of_next (none_ : (d.chan c).cur = none) (more : (d.chan c).ringHead ≠ (d.chan c).tail) :
    d.dmaStep c host link media = (d0.dmaFetch c host link media).dmaGo c host link media := by
  rw [Dev.dmaStep, if_neg (Dev.dmaStep_cond service runs live still up), none_]
  exact (if_neg more).trans (Dev.withTokens_of_granted granted _)

end

end

/-- Settles O45: what each command does to a channel of the service writer, and its next descriptor. -/
theorem channelsRunTheirRings : Obligations.ChannelsRunTheirRings := by
  intro s t h c d x on service
  have runs {f : Dev → Dev} {e : Dev} (work : f d = e) :
      s.after t (fun d => d.onChanPort (.head h) c.val f) = .next (s.leave t e) :=
    State.after_eq ((Dev.onChanPort_of_on on f service).trans work)
  refine ⟨fun v en => ?_, fun v off => ?_, fun other => ?_, fun running => ⟨fun idle => ?_, fun r cur left => ?_⟩,
    runs rfl, runs rfl, fun v => ?_, fun v => ?_, fun v => ⟨fun off deep => ?_, fun refused => ?_⟩, ?_⟩
  · rw [exec_dmaEn]; exact runs (if_pos en)
  · rw [exec_dmaEn]; exact runs (if_neg (ne_true_of_eq_false off))
  · rw [State.idle, exec_dmaStop]; exact runs (Dev.dmaStop_of_other other)
  · rw [exec_dmaStop]; exact runs (Dev.dmaStop_of_idle running idle)
  · rw [exec_dmaStop]; exact runs (Dev.dmaStop_of_burst running cur left)
  · rw [exec_dmaTail]
    exact ⟨fun inside => runs (Dev.writeDmaTail_of_inside inside),
      fun outside live => runs (Dev.writeDmaTail_of_outside outside live)⟩
  · exact State.after_eq (f := fun d => d.onHeadPort (.head h) (fun d => d.writeDmaReq v.toNat))
      (Dev.onHeadPort_of_on on _)
  · rw [exec_dmaCfgWrite]; exact runs (Dev.writeDmaCfg_of_ok _ off deep)
  · rw [exec_dmaCfgWrite]; exact runs (Dev.writeDmaCfg_of_refused _ refused)
  · intro host link media d0 run on_ live still up granted
    have steps {e : Dev} (work : d.dmaStep c.val host link media = e) :
        exec (.dmaDescriptor t c host link media) s = .next (s.leave t e.countMissed) :=
      State.afterMedia_eq (f := fun d => if d.life.running then d.dmaStep c.val host link media else d)
        ((if_pos run).trans work)
    exact ⟨fun r cur => steps (Dev.dmaStep_of_cur host link media service on_ live still up granted cur),
      fun none_ more => steps (Dev.dmaStep_of_next host link media service on_ live still up granted none_ more)⟩

end Sys2Proof.Machine
end

section
/-!
PROOF. Event windows, the log, dumps, bandwidth windows and counter pages (14 Coalescing and storms, The log, The ATTN level,
Tracer, Dumps, Bandwidth windows, Counter pages; 21 BARs and access): an equation per case of each.
-/

namespace Sys2Proof.Machine

/-- A command that runs while the controller does. -/
theorem State.after_running {s : State} {t : Nat} {f : Dev → Dev} {d : Dev} (running : (s.before t).life.running = true)
    (work : f (s.before t) = d) :
    s.after t (fun d => if d.life.running then f d else d) = .next (s.leave t d) :=
  State.after_eq ((if_pos running).trans work)

/-- A command that a port brings that is reached. -/
theorem State.after_portOn {s : State} {t : Nat} {p : Port} {f : Dev → Dev} {d : Dev} (on : (s.before t).portOn p = true)
    (work : f (s.before t) = d) :
    s.after t (fun d => if d.portOn p then f d else d) = .next (s.leave t d) :=
  State.after_eq ((if_pos on).trans work)

theorem Dev.due_iff {d : Dev} {at_ : Nat} : d.due at_ = true ↔ at_ ≤ d.now := decide_eq_true_iff

/-! ### What the commands run -/

theorem exec_coalWindowEnd (t : Nat) (n : Fin 1024) (s : State) : exec (.coalWindowEnd t n) s =
    s.after t (fun d => if d.life.running then d.windowEnd n.val else d) := rfl

theorem exec_lostRecord (t : Nat) (s : State) : exec (.lostRecord t) s =
    s.after t (fun d => if d.life.running then d.lostRecord else d) := rfl

theorem exec_attnAck (t : Nat) (p : Port) (v : BitVec 32) (s : State) : exec (.attnAck t p v) s =
    s.after t (fun d => if d.portOn p then { d with ev := d.ev.ack p v } else d) := rfl

theorem exec_traceTimeout (t : Nat) (tag : Fin 64) (ok : Bool) (s : State) : exec (.traceTimeout t tag ok) s =
    s.after t (fun d => if d.life.running then d.traceTimeout tag.val ok else d) := rfl

theorem exec_dumpPeriod (t : Nat) (ok : Bool) (s : State) : exec (.dumpPeriod t ok) s =
    s.after t (fun d => if d.life.running then d.dumpPeriod ok else d) := rfl

theorem exec_dumpNow (t : Nat) (p : Port) (v : BitVec 32) (ok : Bool) (s : State) : exec (.dumpNow t p v ok) s =
    s.after t (fun d => if d.portOn p && v.toNat.testBit 1 then d.writeDumpCfg p v.toNat ok else d) := rfl

theorem exec_bwWindowEnd (t : Nat) (s : State) : exec (.bwWindowEnd t) s =
    s.after t (fun d => if d.life.running then d.bwWindowEnd else d) := rfl

theorem exec_bwCfgWrite (t : Nat) (p : Port) (v : BitVec 32) (s : State) : exec (.bwCfgWrite t p v) s =
    s.after t (fun d => if d.portOn p then d.writeBwCfg p v.toNat else d) := rfl

theorem exec_cpageCfgWrite (t : Nat) (h : Head) (i : Fin 16) (v : BitVec 32) (s : State) :
    exec (.cpageCfgWrite t h i v) s = s.after t (fun d => if d.headOn h then d.writeCpage h i.val v.toNat else d) := rfl

theorem exec_barUnmapped (t : Nat) (p : Port) (bar : BitVec 8) (off : BitVec 32) (isWrite : Bool) (s : State) :
    exec (.barUnmapped t p bar off isWrite) s =
      s.after t (fun d => if d.portOn p then d.barUnmapped p bar.toNat off.toNat isWrite else d) := rfl

/-! ### The log and the windows -/

theorem Dev.windowEnd_of_due {d : Dev} {n : Nat} (active : (d.ev.src n).state ≠ .quiet)
    (due : (d.ev.src n).windowEnd ≤ d.now) : d.windowEnd n = { d with ev := d.ev.windowEnds d.now n } :=
  if_pos ⟨active, Dev.due_iff.mpr due⟩

section

variable {e : EventBlock} {now : Nat}

/-- The record that stands for what was lost (R519, log entry 61). -/
def EventBlock.lostRec (e : EventBlock) (now : Nat) : LogRec :=
  { seq := 0, src := evPlatform 17, level := e.lostLevel, kind := 6, asserted := false, stamp := now, last := now,
    count := e.lostSince, detail := 0 }

theorem EventBlock.lostDue_of_few (lost : e.lostPending = true) (few : e.intake.length ≤ 128) : e.lostDue = true := by
  rw [EventBlock.lostDue, lost, decide_eq_true few]; rfl

theorem EventBlock.lostRecord_of_due (lost : e.lostPending = true) (few : e.intake.length ≤ 128) (free : e.nextLogAt ≤ now) :
    e.lostRecord now =
      { e.write (e.lostRec now) with lostPending := false, lostSince := 0, lostLevel := 0, nextLogAt := now + 20 } := by
  rw [EventBlock.lostRecord, EventBlock.lostDue_of_few lost few, decide_eq_true free, if_pos (by decide)]
  rfl

theorem EventBlock.lostRecord_of_not (early : e.lostPending = false ∨ 128 < e.intake.length ∨ now < e.nextLogAt) :
    e.lostRecord now = e := by
  refine if_neg ?_
  rw [EventBlock.lostDue, Bool.and_eq_true, Bool.and_eq_true, decide_eq_true_eq, decide_eq_true_eq]
  rintro ⟨⟨lost, few⟩, free⟩
  rcases early with none_ | many | busy
  · exact Bool.false_ne_true (none_.symm.trans lost)
  · exact absurd few (Nat.not_le.mpr many)
  · exact absurd free (Nat.not_le.mpr busy)

theorem drainIntake_succ_of_lost (n : Nat) (lost : e.lostPending = true) (few : e.intake.length ≤ 128)
    (free : e.nextLogAt ≤ now) : drainIntake now (n + 1) e = drainIntake now n (e.lostRecord e.nextLogAt) := by
  simp only [drainIntake, if_neg (Nat.not_lt.mpr free), EventBlock.lostDue_of_few lost few, if_true]

variable {n : Nat}

theorem EventBlock.windowEnds_of_none (coalesces : (e.src n).state = .coalescing) (none_ : (e.src n).count = 0) :
    e.windowEnds now n = e.setSrc n { e.src n with state := .quiet } := by
  simp only [EventBlock.windowEnds, coalesces, none_, if_true]

theorem EventBlock.windowEnds_of_some (coalesces : (e.src n).state = .coalescing) (some_ : (e.src n).count ≠ 0) :
    e.windowEnds now n = (e.offer now (mkRec n (e.levelOf n) 1 (e.src n).asserted (e.src n).first (e.src n).last
      (e.src n).count (e.src n).detail)).setSrc n
        { e.src n with count := 0, windowEnd := (e.src n).windowEnd + e.windowNs } := by
  simp only [EventBlock.windowEnds, coalesces, some_, if_false]

theorem EventBlock.windowEnds_of_calm (storms : (e.src n).state = .storm) (calm : (e.src n).wcount ≤ e.threshOf n / 4) :
    e.windowEnds now n = (e.offer now (mkRec n (e.levelOf n) 3 (e.src n).asserted (e.src n).first (e.src n).last
      (e.src n).count (e.src n).detail)).setSrc n { e.src n with state := .quiet, count := 0, wcount := 0 } := by
  simp only [EventBlock.windowEnds, storms, calm, if_true]

theorem EventBlock.windowEnds_of_storm (storms : (e.src n).state = .storm) (wild : e.threshOf n / 4 < (e.src n).wcount) :
    e.windowEnds now n =
      e.setSrc n { e.src n with wcount := 0, windowEnd := (e.src n).windowEnd + e.windowNs } := by
  simp only [EventBlock.windowEnds, storms, if_neg (Nat.not_le.mpr wild)]

end

theorem Dev.traceTimeout_of_late {d : Dev} {tag : Nat} {x : Trace} (ok : Bool)
    (found : d.ev.traces.find? (fun x => x.tag == tag) = some x) (late : x.start + 10 * msNs ≤ d.now) :
    d.traceTimeout tag ok = d.traceEnd x true ok := by
  simp only [Dev.traceTimeout, found, Dev.due_iff.mpr late, if_true]

/-- Settles O46: window ends, the LOST record, ATTN_ACK and the tracer's time-out. -/
theorem eventWindowsEnd : Obligations.EventWindowsEnd := by
  refine ⟨?_, fun e now n lost few free =>
      ⟨EventBlock.lostRecord_of_due lost few free, drainIntake_succ_of_lost n lost few free⟩,
    fun e now n => ⟨EventBlock.windowEnds_of_none, EventBlock.windowEnds_of_some, EventBlock.windowEnds_of_calm,
      EventBlock.windowEnds_of_storm⟩⟩
  intro s t d
  refine ⟨fun n running active due => ?_, fun running lost few free => ?_, fun early => ?_, fun p v on => ?_,
    fun tag ok x running found late => ?_⟩
  · rw [exec_coalWindowEnd]
    exact State.after_running running (Dev.windowEnd_of_due active due)
  · rw [exec_lostRecord]
    exact State.after_running running rfl
  · rw [State.idle, exec_lostRecord]
    have same : d.lostRecord = d := congrArg (fun e => { d with ev := e }) (EventBlock.lostRecord_of_not early)
    exact State.after_eq ((congrArg (fun e => if d.life.running then e else d) same).trans (ite_self d))
  · rw [exec_attnAck]
    refine State.after_portOn (f := fun d => { d with ev := d.ev.ack p v }) on ?_
    cases late : seqLater v d.ev.headSeq with
    | true => exact congrArg (fun e => { d with ev := e }) (if_pos late)
    | false => exact congrArg (fun e => { d with ev := e }) (if_neg (ne_true_of_eq_false late))
  · rw [exec_traceTimeout]
    exact State.after_running running (Dev.traceTimeout_of_late ok found late)

/-! ### Dumps, bandwidth windows, counter pages, unmapped accesses -/

section

variable {d : Dev}

theorem Dev.dumpPeriod_of_due (ok : Bool) (en : d.ev.dumpEn = true) (due : d.ev.nextDumpAt ≤ d.now) : d.dumpPeriod ok =
    { d with ev := { d.ev with nextDumpAt := d.ev.nextDumpAt + d.ev.periodMs.toNat * msNs } }.dump ok :=
  if_pos ⟨en, Dev.due_iff.mpr due⟩

theorem Dev.writeDumpCfg_of_running {v : Nat} (p : Port) (ok : Bool) (en : v.testBit 0 = true) (now_ : v.testBit 1 = true)
    (slots : fld v 8 8 ≠ 0) (period : fld v 16 16 ≠ 0) (runs : d.ev.dumpEn = true) : d.writeDumpCfg p v ok =
      { d with ev := { d.ev with
        dumpEn := true, dumpHead := v.testBit 2, slotsM1 := BitVec.ofNat 8 (fld v 8 8),
        periodMs := BitVec.ofNat 16 (fld v 16 16),
        nextSlot := if (BitVec.ofNat 8 (fld v 8 8)).toNat < d.ev.nextSlot then 0 else d.ev.nextSlot } }.dump ok := by
  simp only [Dev.writeDumpCfg, en, now_, slots, period, runs, Bool.not_true, Bool.and_false, Bool.false_eq_true, or_self,
    if_false, if_true]

theorem Dev.bwWindowEnd_of_due (due : d.ev.windowAt + d.ev.windowUs.toNat * usNs ≤ d.now) : d.bwWindowEnd =
    { d with ev := { d.ev with
      bwLast := d.ev.bwNow, bwNo := BitVec.ofNat 32 (d.ev.windowAt / (d.ev.windowUs.toNat * usNs)), bwNow := noBytes,
      windowAt := d.ev.windowAt + d.ev.windowUs.toNat * usNs } } :=
  if_pos (Dev.due_iff.mpr due)

theorem Dev.writeBwCfg_of_ok {v : Nat} (p : Port) (some_ : fld v 0 20 ≠ 0) (short : fld v 0 20 ≤ 1000000) :
    d.writeBwCfg p v = { d with ev := { d.ev with
      windowUs := BitVec.ofNat 20 (fld v 0 20), bwNow := noBytes,
      windowAt := (d.now / (fld v 0 20 * usNs) + 1) * (fld v 0 20 * usNs) } } :=
  if_neg (by omega)

theorem Dev.writeBwCfg_of_reserved {v : Nat} (p : Port) (bad : fld v 0 20 = 0 ∨ 1000000 < fld v 0 20) :
    d.writeBwCfg p v = d.regReserved p 0x25130 := if_pos bad

section

variable {h : Head} {page v : Nat}

theorem Dev.writeCpage_of_owned
    (owned : v.testBit 10 = false ∨ ∃ r, d.region (fld v 0 10) = some r ∧ ownsRegion h r = true) :
    d.writeCpage h page v = { d with ev := { d.ev with
      cpages := tset 0 d.ev.cpages (16 * headNum h + page) (BitVec.ofNat 32 (fld v 0 13)) } } := by
  refine if_neg ?_
  rintro ⟨region, other⟩
  rcases owned with none_ | ⟨r, found, mine⟩
  · exact Bool.false_ne_true (none_.symm.trans region)
  · rw [found] at other
    exact Bool.false_ne_true (other.symm.trans mine)

theorem Dev.writeCpage_of_absent (region : v.testBit 10 = true) (absent : d.region (fld v 0 10) = none) :
    d.writeCpage h page v = d.regReserved (.head h) (0x25400 + 4 * page) := by
  refine if_pos ⟨region, ?_⟩
  rw [absent]

end

theorem Dev.barUnmapped_of_new {h : Head} {bar off : Nat} (new : (d.head h).barSeen.contains (bar * 2 ^ 32 + off) = false)
    (room : (d.head h).barSeen.length < 256) : d.barUnmapped (.head h) bar off true =
      ((d.onHead h (fun x => { x with barSeen := (bar * 2 ^ 32 + off) :: x.barSeen })).event (evHead h 4)
        (detailOf [(32, off), (40, bar), (41, 1)])).lostStore h 1 := by
  simp only [Dev.barUnmapped, Dev.barAccess, if_true, new, Bool.false_eq_true, if_false, room]
  rfl

end

/-- Settles O47: dumps, bandwidth windows, counter pages, and a head's write that no register answers. -/
theorem dumpsWindowsAndPages : Obligations.DumpsWindowsAndPages := by
  intro s t d
  refine ⟨fun ok running en due => ?_, fun p v ok on en now_ slots period runs => ?_, fun running due => ?_,
    fun p v on => ⟨fun some_ short => ?_, fun bad => ?_⟩, fun h i v on => ⟨fun owned => ?_, fun region absent => ?_⟩,
    fun h bar off on new room => ?_⟩
  · rw [exec_dumpPeriod]
    exact State.after_running running (Dev.dumpPeriod_of_due ok en due)
  · rw [exec_dumpNow]
    have may : (d.portOn p && v.toNat.testBit 1) = true := by rw [on, now_]; rfl
    exact State.after_eq ((if_pos may).trans (Dev.writeDumpCfg_of_running p ok en now_ slots period runs))
  · rw [exec_bwWindowEnd]
    exact State.after_running running (Dev.bwWindowEnd_of_due due)
  · rw [exec_bwCfgWrite]
    exact State.after_portOn on (Dev.writeBwCfg_of_ok p some_ short)
  · rw [exec_bwCfgWrite]
    exact State.after_portOn on (Dev.writeBwCfg_of_reserved p bad)
  · rw [exec_cpageCfgWrite]
    exact State.after_eq ((if_pos on).trans (Dev.writeCpage_of_owned owned))
  · rw [exec_cpageCfgWrite]
    exact State.after_eq ((if_pos on).trans (Dev.writeCpage_of_absent region absent))
  · rw [exec_barUnmapped]
    exact State.after_portOn on (Dev.barUnmapped_of_new new room)

end Sys2Proof.Machine
end

section
/-!
PROOF. The supervisor's way up, power failures, and the hold-up bank (16 Power-up, Rail failure while ON, PWR_FLT#,
Shut-down, Charging, Energy for the drain, The daily bank test): an equation per case of each.
-/

namespace Sys2Proof.Machine

/-! ### Rails -/

@[simp] theorem Dev.cabWrite_pwr (d : Dev) (typ id len : Nat) (payload : BitVec 384) (after : CabAfter) :
    (d.cabWrite typ id len payload after).pwr = d.pwr := by
  rw [Dev.cabWrite]; split <;> rfl

theorem Dev.rail_onRail (d : Dev) {r : Nat} (inside : r < 12) (f : Rail → Rail) : (d.onRail r f).rail r = f (d.rail r) :=
  (vget_vset _ _ _ r r inside).trans (if_pos rfl)

theorem Dev.railTimeout_state (d : Dev) (r : Nat) : (d.railTimeout r).pwr.state = d.pwr.state := by
  rw [Dev.railTimeout, Dev.railRecord, Dev.cabWrite_pwr, Dev.event_pwr]; rfl

theorem Dev.each_railTimeout_state (l : List Nat) (d : Dev) : (d.each l Dev.railTimeout).pwr.state = d.pwr.state := by
  induction l generalizing d with
  | nil => rfl
  | cons r l ih => exact (ih (d.railTimeout r)).trans (d.railTimeout_state r)

/-! ### The way up -/

section

variable {d : Dev}

theorem Dev.pgStable_of_step (x : StartInputs) (up : d.pwr.state = .seqUp)
    (stable : ∀ r ∈ stepRails d.pwr.step, railStable d.aon (d.rail r) = true) : d.pgStable x =
      if d.pwr.step < 9 then
        (d.onRails (stepRails d.pwr.step) (fun r => { r with enAt := 0, trans := [] })).enableStep (d.pwr.step + 1)
      else (d.onRails (stepRails d.pwr.step) (fun r => { r with enAt := 0, trans := [] })).reachOn x := by
  have all : (stepRails d.pwr.step).all (fun r => railStable d.aon (d.rail r)) = true := List.all_eq_true.mpr stable
  simp only [Dev.pgStable, up, Dev.stepDone, all, if_true]

theorem Dev.pgTimeout_of_step {r : Nat} {l : List Nat} (up : d.pwr.state = .seqUp)
    (late : (upTo 12).filter (fun r => railLate d.aon (d.rail r) && d.inStep r) = r :: l) :
    d.pgTimeout = (d.each (r :: l) Dev.railTimeout).stepFails r 1 true := by
  simp only [Dev.pgTimeout, late]
  exact if_pos ((Dev.each_railTimeout_state _ d).trans up)

theorem Dev.pgChange_of_outside {r : Nat} (good : Bool) (outside : d.inStep r = false) : d.pgChange r good =
    d.onRail r (fun x => { x with pg := good, goodAt := if good then d.aon else 0, trans := [] }) := by
  simp only [Dev.pgChange, outside, Bool.false_and, Bool.false_eq_true, if_false]

/-- The changes of a power-good input that the step in hand counts (R601), with the one now. -/
def Dev.changes (d : Dev) (r : Nat) : List Nat :=
  (d.rail r).trans.filter (fun a => decide (d.aon < a + tPgChat)) ++ [d.aon]

theorem Dev.pgChange_of_inStep {r : Nat} (good : Bool) (inside : r < 12) (counted : d.inStep r = true) :
    d.pgChange r good =
      (let d1 := d.onRail r (fun x => { x with pg := good, goodAt := if good then d.aon else 0, trans := d.changes r })
       if 4 < (d.changes r).length then d1.chatters r else d1) := by
  simp only [Dev.pgChange, counted, Bool.true_and, if_true, decide_eq_true_eq, Dev.rail_onRail d inside]
  rfl

theorem Dev.phyAgain_of_due {h : Head} (on : d.pwr.state = .on) (off : (d.rail (phyRail h)).en = false)
    (tries : lget d.pwr.phyTries (headNum h) < d.pwr.retry.toNat)
    (late : lget d.pwr.phyAt (headNum h) + d.pwr.offMin.toNat * 10 * msNs ≤ d.aon) :
    d.phyAgain h = d.onRail (phyRail h) (railOn d.aon) := if_pos ⟨on, off, tries, late⟩

end

theorem exec_railPgChange (t : Nat) (r : Fin 12) (good : Bool) (s : State) : exec (.railPgChange t r good) s =
    s.after t (fun d => if d.pwr.vaux && good != (d.rail r.val).pg then d.pgChange r.val good else d) := rfl

/-- Settles O48: VAUX, the steps of a power-up with their failures, and the ways to try again. -/
theorem powerComesUpInSteps : Obligations.PowerComesUpInSteps := by
  intro s t d
  have changes {r : Fin 12} {good : Bool} {e : Dev} (vaux : d.pwr.vaux = true) (other : (d.rail r.val).pg ≠ good)
      (work : d.pgChange r.val good = e) : exec (.railPgChange t r good) s = .next (s.leave t e) := by
    rw [exec_railPgChange]
    refine State.after_eq ((if_pos ?_).trans work)
    rw [vaux, Bool.true_and, bne_iff_ne]
    exact fun same => other same.symm
  refine ⟨State.after_eq rfl, fun vaux => ?_, State.after_eq rfl, fun may => State.after_eq (if_pos may),
    fun x up stable => State.after_eq (Dev.pgStable_of_step x up stable),
    fun r l up late => State.after_eq (Dev.pgTimeout_of_step up late),
    fun r good vaux other outside => changes vaux other (Dev.pgChange_of_outside good outside), ?_, fun vaux failed => ?_,
    fun h on off tries late => State.after_eq (Dev.phyAgain_of_due on off tries late)⟩
  · exact State.after_eq (f := fun d => if d.pwr.vaux then d.vauxLoss else d) (if_pos vaux)
  · intro r good vaux other counted l d1
    have work := Dev.pgChange_of_inStep good r.isLt counted
    exact ⟨fun few => changes vaux other (work.trans (if_neg (Nat.not_lt.mpr few))),
      fun many => changes vaux other (work.trans (if_pos many))⟩
  · refine State.after_eq (f := fun d => if Port.sideband = .sideband ∧ d.pwr.vaux = true then d.restart else d) ?_
    rw [if_pos ⟨rfl, vaux⟩, Dev.restart, if_pos failed]

/-! ### Power failures -/

section

variable {d : Dev}

/-- A rail that fell while ON: its input is low, its fall counted and latched (R605). -/
def Dev.railFell (d : Dev) (r : Nat) : Dev :=
  ((d.onRail r (fun x => { x with pg := false })).railPgFail r).latchFail r 4

theorem Dev.railFail_of_on {r : Nat} (media : Answers) (on : d.pwr.state = .on) (en : (d.rail r).en = true)
    (done : (d.rail r).enAt = 0) : d.railFail r media =
      if r = 2 ∨ r = 3 then
        let d2 := ((d.railFell r).linkDown (headOfRail r)).onRail r railOff
        { d2 with pwr := { d2.pwr with
          phyTries := d2.pwr.phyTries.set (r - 2) 0, phyAt := d2.pwr.phyAt.set (r - 2) d2.aon } }
      else if r = 4 then ((d.railFell r).driveFlt.startDrain media).goOn
      else (d.railFell r).driveFlt.powerCut := if_pos ⟨on, en, done⟩

theorem Dev.fltLow_of_on (media : Answers) (on : d.pwr.state = .on) : d.fltLow media =
    ((({ d with pwr := { d.pwr with fltIn := true } } : Dev).event (evBank 2)).startDrain media).goOn := by
  simp only [Dev.fltLow, on]

theorem Dev.vinFall_of_seqUp (up : d.pwr.state = .seqUp) :
    d.vinFall = ({ d with pwr := { d.pwr with vinGood := false, step := 0 } } : Dev).powerDown := by
  simp only [Dev.vinFall, up]

theorem Dev.vinFall_of_failed (failed : d.pwr.state = .failed) :
    d.vinFall = { d with pwr := { d.pwr with vinGood := false, vinFell := true } } := by
  simp only [Dev.vinFall, failed]

theorem Dev.noFall_of_late {r : Nat} (off : (d.rail r).en = false) (falls : (d.rail r).enAt ≠ 0)
    (late : (d.rail r).enAt - 1 + 20 * msNs ≤ d.aon) : d.noFall r =
      (let d1 := ((d.onRail r (fun x => { x with enAt := 0 })).railPgFail r).latchFail r 5
       if d1.pwr.state = .seqDown ∧ (stepRails d1.pwr.downStep).contains r = true then d1.downFrom d1.pwr.downStep
       else d1) := if_pos ⟨off, falls, late⟩

end

theorem exec_railFail (t : Nat) (r : Fin 12) (media : Answers) (s : State) : exec (.railFail t r media) s =
    s.afterMedia t (fun d => d.railFail r.val media) := rfl

theorem exec_vinGoodFall (t : Nat) (s : State) : exec (.vinGoodFall t) s =
    s.after t (fun d => if d.pwr.state = .on then d else d.vinFall) := rfl

/-- Settles O49: what each failure of power starts, cuts or brings down. -/
theorem powerFailuresDrainOrCut : Obligations.PowerFailuresDrainOrCut := by
  intro s t d
  refine ⟨fun media on => ⟨?_, fun vaux => ?_⟩, ?_, State.after_eq rfl, fun up => ?_, fun failed => ?_, fun drains => ?_,
    fun down => ?_, ?_⟩
  · exact State.afterMedia_eq (f := fun d => if d.pwr.state = .on then d.vinLoss media else d) (if_pos on)
  · exact State.afterMedia_eq (f := fun d => if d.pwr.vaux then d.fltLow media else d)
      ((if_pos vaux).trans (Dev.fltLow_of_on media on))
  · intro r media on en done d1 drive
    rw [exec_railFail]
    have work := Dev.railFail_of_on media on en done
    refine ⟨fun medium => ?_, fun noA noB noMedium => ?_, ?_⟩
    · refine State.afterMedia_eq (work.trans ?_)
      rw [if_neg (by omega), if_pos medium]
      rfl
    · refine State.afterMedia_eq (work.trans ?_)
      rw [if_neg (by omega), if_neg noMedium]
      rfl
    · intro phy d2
      exact State.afterMedia_eq (work.trans (if_pos phy))
  · rw [exec_vinGoodFall]
    exact State.after_eq ((if_neg (by rw [up]; decide)).trans (Dev.vinFall_of_seqUp up))
  · rw [exec_vinGoodFall]
    exact State.after_eq ((if_neg (by rw [failed]; decide)).trans (Dev.vinFall_of_failed failed))
  · exact State.after_eq (f := fun d => if d.pwr.state = .draining then d.tearAll.powerDown else d) (if_pos drains)
  · exact State.after_eq (f := fun d => if d.pwr.state = .seqDown then d.fallDone else d) (if_pos down)
  · intro r vaux off falls late d1
    exact State.after_eq (f := fun d => if d.pwr.vaux then d.noFall r.val else d)
      ((if_pos vaux).trans (Dev.noFall_of_late off falls late))

/-! ### The hold-up bank -/

section

variable {d : Dev}

theorem Dev.chargerFault_of_noTest {mv : Nat} (noTest : d.pwr.test ≠ .recharging) : d.chargerFault mv =
    ({ d with pwr := { d.pwr with bankMv := BitVec.ofNat 16 mv, chgFault := true, charged := nearTarget mv } } :
      Dev).checkExposed.tryReady := by
  simp only [Dev.chargerFault, if_neg noTest]

theorem Dev.testSettled_of_charged (waits : d.pwr.test = .waitCharged) (charged : d.pwr.charged = true)
    (late : d.pwr.chargedAt + secNs ≤ d.aon) : d.testSettled =
      ({ d with pwr := { d.pwr with test := .holding, testCap := d.pwr.energyAt vTest, testAt := d.aon } } :
        Dev).testGoesOn := if_pos ⟨waits, charged, late⟩

/-! ### The result of a test -/

variable (v0 v1 v2 v3 i t3 : Nat)

theorem testResult_of_bad (bad : i < 900000 ∨ 1100000 < i ∨ v2 < v3 + 200000) : testResult v0 v1 v2 v3 i t3 = 4 :=
  if_pos bad

theorem testResult_range : testResult v0 v1 v2 v3 i t3 ≤ 4 := by
  rw [testResult]; split_ifs <;> decide

/-- What the end of a test leaves of the supervisor's registers (R623, R624). -/
def Dev.afterTest (d : Dev) : PowerBlock :=
  let r := testResult v0 v1 v2 v3 i t3
  let p : PowerBlock :=
    if r = 1 then
      { d.pwr with
        capNf := some (testCapNf v2 v3 i t3), esrUohm := some (testEsr v0 v1 i), testedAt := some d.aon }
    else d.pwr
  { p with
    result := BitVec.ofNat 3 r, test := .recharging, bankMv := BitVec.ofNat 16 (v3 / 1000),
    charged := nearTarget (v3 / 1000),
    energyNext := if r = 1 ∨ p.energy.isSome = true then p.energyAt vTarget else none }

theorem Dev.milestone_pwr (d : Dev) (k : Nat) : (d.milestone k).pwr = d.pwr := rfl

theorem Dev.testEnds_pwr (d : Dev) : (d.testEnds v0 v1 v2 v3 i t3).pwr = d.afterTest v0 v1 v2 v3 i t3 := by
  rw [Dev.testEnds, Dev.milestone_pwr, Dev.event_pwr, Dev.bankRecord, Dev.cabWrite_pwr]
  rfl

end

theorem Dev.testGoesOn_of_full {d : Dev} {c : Nat} (cap : d.pwr.testCap = some c)
    (full : c < d.occupancy + d.reservedLines) : d.testGoesOn = d := by
  simp only [Dev.testGoesOn, cap, Nat.not_le.mpr full, decide_false, Bool.and_false, Bool.false_eq_true, if_false]

theorem Dev.holdTimeout_of_full {d : Dev} {c : Nat} (holds : d.pwr.test = .holding) (cap : d.pwr.testCap = some c)
    (full : c < d.occupancy + d.reservedLines) (late : d.pwr.testAt + secNs ≤ d.aon) : d.holdTimeout =
      { d with pwr := { d.pwr with test := .postponed, testCap := none, result := 5, testAt := d.aon } }.event
        (evBank 0) := by
  simp only [Dev.holdTimeout, Dev.testGoesOn_of_full cap full]
  exact if_pos ⟨holds, late⟩

section

variable (v0 v1 v2 v3 i t3 : Nat) (d : Dev)

theorem Dev.afterTest_result : (d.afterTest v0 v1 v2 v3 i t3).result = BitVec.ofNat 3 (testResult v0 v1 v2 v3 i t3) := rfl

theorem Dev.afterTest_test : (d.afterTest v0 v1 v2 v3 i t3).test = .recharging := rfl

theorem Dev.afterTest_of_failed (failed : testResult v0 v1 v2 v3 i t3 ≠ 1) :
    (d.afterTest v0 v1 v2 v3 i t3).capNf = d.pwr.capNf ∧ (d.afterTest v0 v1 v2 v3 i t3).esrUohm = d.pwr.esrUohm ∧
    (d.afterTest v0 v1 v2 v3 i t3).testedAt = d.pwr.testedAt := by
  simp only [Dev.afterTest, if_neg failed, and_self]

theorem Dev.afterTest_of_passed (passed : testResult v0 v1 v2 v3 i t3 = 1) :
    (d.afterTest v0 v1 v2 v3 i t3).capNf = some (i * (t3 - msNs) / (v2 - v3)) ∧
    (d.afterTest v0 v1 v2 v3 i t3).testedAt = some d.aon := by
  simp only [Dev.afterTest, passed, if_true, testCapNf, and_self]

end

/-- Settles O51: readings, requests for a test, its hold, and what its result changes. -/
theorem bankIsTested : Obligations.BankIsTested := by
  constructor
  · intro s t d wanted
    have wants (may : d.pwr.test = .idle ∨ d.pwr.test = .postponed) : d.wantTest = wanted := if_pos may
    refine ⟨fun mv vaux => ?_, fun mv vaux noTest => ?_, fun mv running => ?_, fun running => ?_, fun p on may => ?_,
      fun running idle due => ?_, fun running postponed late => ?_, fun running on up waits charged late => ?_,
      fun c running holds cap full late => ?_, fun v0 v1 v2 v3 i t3 running loaded => ?_⟩
    · exact State.after_eq (f := fun d => if d.pwr.vaux then d.bankReads mv.toNat else d) (if_pos vaux)
    · exact State.after_eq (f := fun d => if d.pwr.vaux then d.chargerFault mv.toNat else d)
        ((if_pos vaux).trans (Dev.chargerFault_of_noTest noTest))
    · exact State.after_running (f := fun d => ((d.bankReads mv.toNat).recompute mv.toNat).checkExposed) running rfl
    · exact State.after_running (f := fun d => d.checkExposed.tryReady) running rfl
    · exact State.after_portOn (f := Dev.wantTest) on (wants may)
    · exact State.after_eq
        (f := fun d => if d.life.running && decide (d.pwr.test = .idle) && d.testDue then d.wantTest else d)
        ((if_pos (by rw [running, decide_eq_true idle, due]; rfl)).trans (wants (.inl idle)))
    · exact State.after_eq (f := fun d =>
          if d.life.running && decide (d.pwr.test = .postponed) && decide (d.pwr.testAt + 10 * minNs ≤ d.aon) then
            d.wantTest else d)
        ((if_pos (by rw [running, decide_eq_true postponed, decide_eq_true late]; rfl)).trans (wants (.inr postponed)))
    · exact State.after_eq (f := fun d =>
          if d.life.running && decide (d.pwr.state = .on) && d.life.shutting.isNone then d.testSettled else d)
        ((if_pos (by rw [running, decide_eq_true on, up]; rfl)).trans (Dev.testSettled_of_charged waits charged late))
    · exact State.after_running (f := Dev.holdTimeout) running (Dev.holdTimeout_of_full holds cap full late)
    · exact State.after_eq (f := fun d =>
          if d.life.running && decide (d.pwr.test = .loaded) then d.testEnds v0 v1 v2 v3 i t3 else d)
        (if_pos (by rw [running, decide_eq_true loaded]; rfl))
  · intro d v0 v1 v2 v3 i t3 r
    have few : r ≤ 4 := testResult_range v0 v1 v2 v3 i t3
    rw [Dev.testEnds_pwr]
    exact ⟨testResult_of_bad v0 v1 v2 v3 i t3, by omega, by omega, d.afterTest_result v0 v1 v2 v3 i t3,
      d.afterTest_test v0 v1 v2 v3 i t3, d.afterTest_of_failed v0 v1 v2 v3 i t3, d.afterTest_of_passed v0 v1 v2 v3 i t3⟩

end Sys2Proof.Machine
end

section
/-!
PROOF. Thermal samples and THERMTRIP# (17 Sensors and sampling, THERMTRIP#; 02 Drift clocks), orderly shut-downs and
the TAP (19 Orderly shut-down, 20 R719), and poison at the control cores (08 R307-R310).
-/

namespace Sys2Proof.Machine

/-! ### Main power off, and THERMTRIP# -/

section
variable {d : Dev}

theorem Dev.mainOff_of_off (vaux : d.pwr.vaux = true) (off : d.life.running = false) : d.mainOff = true := by
  simp only [Dev.mainOff, vaux, off, Bool.not_false, Bool.and_self]

theorem cooled_of_below {temps : List (Option Int)} {x : Int} (reading : aonReading temps = some x) (cool : x < degC 105) :
    cooled temps = true := by
  simp only [cooled, reading, cool, decide_true]

/-- The device with THERMTRIP# asserted, as Dev.trip has it before it acts on it. -/
def Dev.tripNoted (d : Dev) : Dev := { d with therm := { d.therm with tripped := true } }.milestone 5

theorem Dev.trip_of_tripped (tripped : d.therm.tripped = true) (ans : Answers) : d.trip ans = d := if_pos tripped

theorem Dev.trip_of_on (clear : d.therm.tripped = false) (on : d.pwr.state = .on) (ans : Answers) :
    d.trip ans = (d.tripNoted.startDrain ans).goOn := by
  simp only [Dev.trip, clear, Bool.false_eq_true, if_false, Dev.milestone_pwr, on, Dev.tripNoted]

theorem Dev.trip_of_seqUp (clear : d.therm.tripped = false) (up : d.pwr.state = .seqUp) (ans : Answers) :
    d.trip ans = ({ d.tripNoted with pwr := { d.tripNoted.pwr with step := 0 } } : Dev).powerDown := by
  simp only [Dev.trip, clear, Bool.false_eq_true, if_false, Dev.milestone_pwr, up, Dev.tripNoted]

theorem Dev.timeWait_of_due {a : Nat} (ready : d.therm.readyAt = some a) (worst : d.therm.offCase = 3)
    (late : a + 60 * secNs ≤ d.now) : d.timeWait = d.chargeWorst.zoneStep := by
  simp only [Dev.timeWait, ready, worst, Dev.due_of_le late, and_self, if_true]

end

/-- Settles O52: a sample, an interval and each state of the supervisor as its condition finds the device. -/
theorem samplesAdvanceTheDrift : Obligations.SamplesAdvanceTheDrift := by
  unfold Obligations.SamplesAdvanceTheDrift
  refine ⟨fun s t => ⟨?_, ?_, ?_, ?_, rfl⟩, fun s t => ⟨?_, ?_, ?_, ?_⟩⟩
  · intro temps media running
    exact State.afterOn_running running rfl
  · intro temps vaux off
    exact State.after_eq (if_pos (Dev.mainOff_of_off vaux off))
  · intro ready late
    exact State.after_eq (if_pos (Bool.and_eq_true_iff.mpr ⟨ready, Dev.due_of_le late⟩))
  · intro a ready worst late
    exact State.after_eq (Dev.timeWait_of_due ready worst late)
  · intro i media vaux clear on
    exact State.afterMedia_eq ((if_pos vaux).trans (Dev.trip_of_on clear on media))
  · intro i media vaux clear up
    exact State.afterMedia_eq ((if_pos vaux).trans (Dev.trip_of_seqUp clear up media))
  · intro i media tripped
    refine State.afterMedia_eq (f := fun d => if d.pwr.vaux then d.trip media else d) ?_
    exact (congrArg (fun d' => if (s.before t).pwr.vaux then d' else s.before t) (Dev.trip_of_tripped tripped media)).trans
      (ite_self _)
  · intro temps x vaux off reading cool
    exact State.after_eq (if_pos (Bool.and_eq_true_iff.mpr ⟨Dev.mainOff_of_off vaux off, cooled_of_below reading cool⟩))

/-! ### Orderly shut-downs -/

section
variable {d : Dev}

theorem Dev.startShut_of_on (on : d.pwr.state = .on) (none : d.life.shutting = none) (locked : d.sec.testUnlocked = false)
    (k : ShutKind) (ans : Answers) :
    d.startShut k ans = ({ d with life := { d.life with stage := .shutdown, shutting := some k, shutAt := d.now } }
      : Dev).selectAll.benchRound ans := by
  simp only [Dev.startShut, on, none, locked, decide_true, Option.isNone_none, Bool.not_false, Bool.and_self, if_true]

theorem Dev.lifeShut_of_mayLife {p : Port} (on : d.portOn p = true) (may : d.mayLife p = true) (k : ShutKind)
    (ans : Answers) : d.lifeShut p k ans = (d.startShut k ans).goOn := by
  simp only [Dev.lifeShut, on, may, Bool.true_eq_false, if_false, if_true]

theorem Dev.lifeShut_of_noSession {h : Head} (on : d.portOn (.head h) = true) (closed : d.session (.head h) 1 = false)
    (k : ShutKind) (ans : Answers) : d.lifeShut (.head h) k ans = d.denied := by
  simp only [Dev.lifeShut, on, Dev.mayLife, closed, Bool.true_eq_false, Bool.false_eq_true, if_false]

theorem Dev.testUnlock_of_session {h : Head} (on : d.portOn (.head h) = true) (opened : d.session (.head h) 0 = true)
    (ans : Answers) : d.testUnlock (.head h) ans = (d.startShut .unlock ans).goOn := by
  simp only [Dev.testUnlock, on, opened, Bool.true_eq_false, if_false, if_true]

theorem Dev.testUnlock_of_noSession {h : Head} (on : d.portOn (.head h) = true)
    (closed : d.session (.head h) 0 = false) (ans : Answers) : d.testUnlock (.head h) ans = d.denied := by
  simp only [Dev.testUnlock, on, closed, Bool.true_eq_false, Bool.false_eq_true, if_false]

theorem Dev.shutTimeout_of_due {k : ShutKind} (shutting : d.life.shutting = some k)
    (late : d.life.shutAt + 100 * msNs ≤ d.now) : d.shutTimeout = d.q.exec.foldl Dev.interruptCmd d := by
  simp only [Dev.shutTimeout, shutting, Dev.due_of_le late, Option.isSome_some, Bool.and_self, if_true]

end

/-! ### The TAP -/

theorem Dev.tapSelects_of_testMode {d : Dev} (test : d.testMode = true) : d.tapSelects = d.life.tap := by
  simp only [Dev.tapSelects, test, Bool.not_true, Bool.and_false, Bool.false_eq_true, if_false]

/-- Out of test mode no instruction that drives or isolates the pins is selected. -/
theorem Dev.testInstr_tapSelects {d : Dev} (normal : d.testMode = false) : testInstr d.tapSelects = false := by
  simp only [Dev.tapSelects, normal, Bool.not_false, Bool.and_true]
  cases drives : testInstr d.life.tap with
  | true => rfl
  | false => exact drives

theorem testInstr_iff (i : TapInstr) :
    testInstr i = true ↔ i ∈ [TapInstr.extest, .extestPulse, .extestTrain, .clamp, .highz] := by
  cases i <;> decide

/-- Settles O54: the port, its session, and the level of TEST_EN, each a case of its own. -/
theorem shutDownsNeedTheSession : Obligations.ShutDownsNeedTheSession := by
  unfold Obligations.ShutDownsNeedTheSession
  refine ⟨fun s t => ⟨?_, ?_, ?_, fun i => rfl, fun b => rfl⟩, fun d => ⟨?_, ?_⟩⟩
  · intro p on state none locked
    have begins := Dev.startShut_of_on state none locked
    refine ⟨fun bist media may => ?_, fun x may => ?_, fun h media atHead opened => ?_⟩
    · exact State.afterMedia_eq ((Dev.lifeShut_of_mayLife on may _ media).trans (congrArg Dev.goOn (begins _ media)))
    · exact State.after_eq ((Dev.lifeShut_of_mayLife on may _ _).trans (congrArg Dev.goOn (begins _ _)))
    · subst atHead
      exact State.afterMedia_eq ((Dev.testUnlock_of_session on opened media).trans (congrArg Dev.goOn (begins _ media)))
  · intro h on
    refine ⟨fun closed => ⟨fun bist media => ?_, fun x => ?_⟩, fun closed media => ?_⟩
    · exact State.afterMedia_eq (Dev.lifeShut_of_noSession on closed _ media)
    · exact State.after_eq (Dev.lifeShut_of_noSession on closed _ _)
    · exact State.afterMedia_eq (Dev.testUnlock_of_noSession on closed media)
  · intro k shutting late
    exact State.afterOn_eq (congrArg (fun d : Dev => d.countMissed.goOn) (Dev.shutTimeout_of_due shutting late))
  · intro low locked drives
    have selected := (testInstr_iff _).mpr drives
    rw [Dev.testInstr_tapSelects (by simp only [Dev.testMode, low, locked, Bool.or_self])] at selected
    exact Bool.false_ne_true selected
  · intro test
    exact Dev.tapSelects_of_testMode (Bool.or_eq_true_iff.mpr test)

/-! ### Poison at the control cores -/

section
variable {d : Dev} {core : Nat}

theorem Dev.fetchPoison_of_up (up : d.clusterDown (core / 4) = false) (addr : Nat) :
    d.fetchPoison core addr = (d.event (evCore core 0) (detailOf
      [(32, core / 4), (33, bool01 (d.sec.runSlot.toNat.testBit (core / 4))), (40, addr)])).failCluster (core / 4)
        (d.sec.runSlot.toNat.testBit (core / 4)) := by
  simp only [Dev.fetchPoison, up, Bool.false_eq_true, if_false]

theorem Dev.dataAbort_of_up (up : d.clusterDown (core / 4) = false) :
    d.dataAbort core = ({ d with sec := { d.sec with aborts := setBit d.sec.aborts core true } }.event
      (evCore core 1)).send (.dataAbort core) := by
  simp only [Dev.dataAbort, up, Bool.false_eq_true, if_false]

end

/-- Settles O55: a running core's fetch and load, each by its own effect. -/
theorem poisonReachesTheCores : Obligations.PoisonReachesTheCores := by
  unfold Obligations.PoisonReachesTheCores
  intro s t core d c slot running up
  exact ⟨fun addr => State.after_running running (Dev.fetchPoison_of_up up addr.toNat),
    State.after_running running (Dev.dataAbort_of_up up)⟩

end Sys2Proof.Machine
end

section
/-!
PROOF. Register writes by offset (21 BARs and access, Access codes), the commit of an HDM decoder (09 R335, R336), and
the writes of PWR_CFG and TOLL_CFG (16 and 17 Registers).
-/

namespace Sys2Proof.Machine

/-! ### A write to the register map -/

section
variable {d : Dev} {p : Port} {off : Nat}

theorem Dev.registerWrite_narrow (above : 0x20000 ≤ off) (mapped : unassigned p off false = false) (v : Nat) :
    d.registerWrite p off false v = d.write4 p off (fld v 0 32) := by
  simp only [Dev.registerWrite, Nat.not_lt.mpr above, mapped, Bool.false_eq_true, if_false]

theorem Dev.registerWrite_wide (above : 0x20000 ≤ off) (mapped : unassigned p off true = false) (v : Nat) :
    d.registerWrite p off true v = d.write8 p off v := by
  simp only [Dev.registerWrite, Nat.not_lt.mpr above, mapped, Bool.false_eq_true, if_false, if_true]

theorem Dev.registerWrite_unassigned {wide : Bool} (above : 0x20000 ≤ off) (unmapped : unassigned p off wide = true)
    (on : d.portOn p = true) (v : Nat) : d.registerWrite p off wide v = d.barUnmapped p 0 off true := by
  simp only [Dev.registerWrite, Nat.not_lt.mpr above, unmapped, on, if_false, if_true]

theorem Dev.registerWrite_cxl (below : off < 0x20000) (wide : Bool) (v : Nat) :
    d.registerWrite p off wide v = d.cxlWrite p off wide v := if_pos below

theorem Dev.cxlWrite_of_head {h : Head} (on : d.portOn (.head h) = true) (aligned : off % 4 = 0) (v : Nat) :
    d.cxlWrite (.head h) off false v = d.onHead h (fun x => x.hdmWrite off (fld v 0 32)) := by
  simp only [Dev.cxlWrite, on, aligned, Bool.true_eq_false, Bool.false_eq_true, if_false, ne_eq, not_true_eq_false, or_self]

theorem Dev.write4_of_reg4 {r : Reg} {k : Nat} (reg : regAt off = some (r, 4, k)) (may : d.canWrite p r = true) (v : Nat) :
    d.write4 p off v = d.writeReg p off 0 v r := by
  simp only [Dev.write4, reg, may, Bool.true_eq_false, if_false, if_true]

theorem Dev.write4_of_noWrite {r : Reg} {n k : Nat} (reg : regAt off = some (r, n, k)) (may : d.canWrite p r = false)
    (v : Nat) : d.write4 p off v = d := by
  simp only [Dev.write4, reg, may, if_true]

theorem Dev.write8_of_wideReg {r : Reg} {n k : Nat} (reg : regAt off = some (r, n, k)) (wide : n ≠ 4)
    (may : d.canWrite p r = true) (v : Nat) :
    d.write8 p off v = d.writeReg p (off - k) (k / 8) (fld v 0 64) r := by
  simp only [Dev.write8, reg, wide, may, if_false, if_true]

theorem Dev.write8_of_noWrite {r : Reg} {n k : Nat} (reg : regAt off = some (r, n, k)) (wide : n ≠ 4)
    (may : d.canWrite p r = false) (v : Nat) : d.write8 p off v = d := by
  simp only [Dev.write8, reg, wide, may, Bool.false_eq_true, if_false]

end

/-! ### The commit of a decoder -/

section
variable {x : Hdm} {prev next : Option Hdm}

/-- The decoder with the control fields that a write to it names. -/
def Hdm.controlled (x : Hdm) (v : Nat) : Hdm := { x with ig := fld v 0 4, iw := fld v 4 4, lock := v.testBit 8 }

theorem Hdm.write_control {v : Nat} (off : x.on = false) (commits : v.testBit 9 = true) :
    x.write prev next 0x10 v = (x.controlled v).commit prev next true := by
  simp only [Hdm.write, off, commits, Bool.false_eq_true, if_false, Hdm.controlled]

theorem Hdm.commit_of_ok (off : x.on = false) (ok : commitOk prev x (hdmStart prev x) = true) :
    x.commit prev next true = { x with on := true, err := false, dpa := hdmStart prev x } := by
  simp only [Hdm.commit, off, ok, Bool.false_eq_true, if_false, if_true]

theorem Hdm.commit_of_bad (off : x.on = false) (bad : commitOk prev x (hdmStart prev x) = false) :
    x.commit prev next true = { x with err := true } := by
  simp only [Hdm.commit, off, bad, Bool.false_eq_true, if_false, if_true]

theorem commitOk_bounds {dpa : Nat} (ok : commitOk prev x dpa = true) :
    x.iw ≤ 4 ∧ x.ig ≤ 6 ∧ 0 < x.size ∧ x.size % (x.ways * 2 ^ 28) = 0 := by
  simp only [commitOk, Bool.and_eq_true, decide_eq_true_eq] at ok
  obtain ⟨⟨⟨⟨⟨ways, gran⟩, size⟩, whole⟩, -⟩, -⟩ := ok
  exact ⟨ways, gran, size, whole⟩

/-- A decoder that a commit takes on passed its checks, and keeps its fields. -/
theorem Hdm.commit_on (off : x.on = false) (taken : (x.commit prev next true).on = true) :
    commitOk prev x (hdmStart prev x) = true ∧
      x.commit prev next true = { x with on := true, err := false, dpa := hdmStart prev x } := by
  cases ok : commitOk prev x (hdmStart prev x) with
  | true => exact ⟨rfl, Hdm.commit_of_ok off ok⟩
  | false =>
    rw [Hdm.commit_of_bad off ok] at taken
    exact absurd (off.symm.trans taken) Bool.false_ne_true

theorem Hdm.ways_allowed (small : x.iw ≤ 4) : x.ways ∈ [1, 2, 4, 8, 16] := by
  rw [Hdm.ways]
  interval_cases x.iw <;> decide

theorem Hdm.gran_allowed (small : x.ig ≤ 6) : x.gran ∈ [256, 512, 1024, 2048, 4096, 8192, 16384] := by
  rw [Hdm.gran]
  interval_cases x.ig <;> decide

end

/-! ### PWR_CFG and TOLL_CFG -/

section
variable {d : Dev} {p : Port} {off v : Nat}

theorem inRange_of_between {lo hi n : Nat} (low : lo ≤ n) (high : n ≤ hi) : inRange lo hi n = true := by
  simp only [inRange, low, high, decide_true, Bool.and_self]

theorem inRange_of_above {lo hi n : Nat} (high : hi < n) : inRange lo hi n = false := by
  simp only [inRange, Nat.not_le.mpr high, decide_false, Bool.and_false]

theorem inRange_of_below {lo hi n : Nat} (low : n < lo) : inRange lo hi n = false := by
  simp only [inRange, Nat.not_le.mpr low, decide_false, Bool.false_and]

theorem Dev.writeTollCfg_of_inRange (share : inRange 0 50 (fld v 0 8) = true) (prog : inRange 1 100 (fld v 8 8) = true)
    (eng : inRange 1 140 (fld v 16 8) = true) :
    d.writeTollCfg p off v = { d with therm := { d.therm with
      bgShare := BitVec.ofNat _ (fld v 0 8), progFloor := BitVec.ofNat _ (fld v 8 8),
      engFloor := BitVec.ofNat _ (fld v 16 8) } } := by
  simp only [Dev.writeTollCfg, share, prog, eng, Bool.and_self, Dev.noteReserved, keepFld, if_true]

theorem Dev.writeTollCfg_of_outside (share : inRange 0 50 (fld v 0 8) = false) (prog : inRange 1 100 (fld v 8 8) = false)
    (eng : inRange 1 140 (fld v 16 8) = false) : d.writeTollCfg p off v = d.regReserved p off := by
  simp only [Dev.writeTollCfg, share, prog, eng, Bool.and_self, Dev.noteReserved, keepFld, Bool.false_eq_true, if_false]

end

/-- Settles O56: the offset's register and the port decide where a write goes. -/
theorem registerWritesReachTheirRegister : Obligations.RegisterWritesReachTheirRegister := by
  unfold Obligations.RegisterWritesReachTheirRegister
  refine ⟨fun s t p off v => ⟨?_, ?_, ?_, ?_⟩, ?_, fun d p off v => ⟨fun locked => if_pos locked, ?_, ?_⟩⟩
  · intro r k above mapped reg
    have narrow := Dev.registerWrite_narrow (d := s.before t) above mapped v.toNat
    exact ⟨fun may => State.after_eq (narrow.trans (Dev.write4_of_reg4 reg may _)),
      fun may => State.after_eq (narrow.trans (Dev.write4_of_noWrite reg may _))⟩
  · intro r n k above mapped reg size
    have wide := Dev.registerWrite_wide (d := s.before t) above mapped v.toNat
    exact ⟨fun may => State.after_eq (wide.trans (Dev.write8_of_wideReg reg size may _)),
      fun may => State.after_eq (wide.trans (Dev.write8_of_noWrite reg size may _))⟩
  · intro wide unmapped on above
    refine State.after_eq ((Dev.registerWrite_unassigned above unmapped on v.toNat).trans ?_)
    cases p <;> rfl
  · intro below wide
    refine ⟨State.after_eq (Dev.registerWrite_cxl below wide v.toNat), fun h on aligned => ?_⟩
    exact State.after_eq ((Dev.registerWrite_cxl below false v.toNat).trans (Dev.cxlWrite_of_head on aligned v.toNat))
  · intro x prev next v off commits taken
    simp only [Hdm.write_control off commits] at taken ⊢
    obtain ⟨ok, fields⟩ := Hdm.commit_on (x := x.controlled v) off taken
    obtain ⟨ways, gran, size, whole⟩ := commitOk_bounds ok
    rw [fields]
    exact ⟨Hdm.ways_allowed ways, Hdm.gran_allowed gran, size, whole⟩
  · intro share progLow progHigh engLow engHigh
    exact Dev.writeTollCfg_of_inRange (inRange_of_between (Nat.zero_le _) share) (inRange_of_between progLow progHigh)
      (inRange_of_between engLow engHigh)
  · intro share prog eng
    exact Dev.writeTollCfg_of_outside (inRange_of_above share) (inRange_of_below (prog ▸ Nat.one_pos)) (inRange_of_above eng)

end Sys2Proof.Machine
end

section
/-!
PROOF. What leaves the life cycle as it is: the stores of a result, the lines they read and write, and the end of a
command. One frame rule per function of the model, in the order in which they call each other.
-/

namespace Sys2Proof.Machine

/-! ### Loops -/

theorem foldl_life {α : Type} {f : Dev → α → Dev} (keeps : ∀ d a, (f d a).life = d.life) (l : List α) (d : Dev) :
    (l.foldl f d).life = d.life := by
  induction l generalizing d with
  | nil => rfl
  | cons a l rest => exact (rest (f d a)).trans (keeps d a)

theorem foldl_fst_life {α β : Type} {f : Dev × β → α → Dev × β} (keeps : ∀ acc a, (f acc a).1.life = acc.1.life)
    (l : List α) (acc : Dev × β) : (l.foldl f acc).1.life = acc.1.life := by
  induction l generalizing acc with
  | nil => rfl
  | cons a l rest => exact (rest (f acc a)).trans (keeps acc a)

theorem Dev.each_life {α : Type} {f : Dev → α → Dev} (keeps : ∀ d a, (f d a).life = d.life) (l : List α) (d : Dev) :
    (d.each l f).life = d.life := foldl_life keeps l d

theorem Dev.when_life {f : Dev → Dev} (keeps : ∀ d, (f d).life = d.life) (c : Bool) (d : Dev) :
    (d.when c f).life = d.life := by
  rw [Dev.when]; split
  · exact keeps d
  · rfl

section
variable (d : Dev)

/-! ### Fields of one block -/

@[simp] theorem Dev.onStream_life (s : Nat) (f : Stream → Stream) : (d.onStream s f).life = d.life := rfl

@[simp] theorem Dev.onPair_life (q : Nat) (f : QPair → QPair) : (d.onPair q f).life = d.life := rfl

@[simp] theorem Dev.dropExec_life (x : Exec) : (d.dropExec x).life = d.life := rfl

@[simp] theorem Dev.stageIf_life (p : Trace → Bool) (k : Nat) : (d.stageIf p k).life = d.life := rfl

@[simp] theorem Dev.setEntry_life (e : Entry) : (d.setEntry e).life = d.life := rfl

@[simp] theorem Dev.setWay_life (key : Nat) (w : Option Way) : (d.setWay key w).life = d.life := rfl

@[simp] theorem Dev.touch_life (key : Nat) : (d.touch key).life = d.life := rfl

@[simp] theorem Dev.laneBytes_life (lane rd wr : Nat) : (d.laneBytes lane rd wr).life = d.life := rfl

@[simp] theorem Dev.cplDiscarded_life (qid cid : Nat) : (d.cplDiscarded qid cid).life = d.life := rfl

/-! ### Records and counts -/

@[simp] theorem Dev.lostStore_life (h : Head) (n : Nat) : (d.lostStore h n).life = d.life := by
  rw [Dev.lostStore, Dev.count_life, Dev.onHead_life]

@[simp] theorem Dev.refusedStore_life (h : Head) (n : Nat) : (d.refusedStore h n).life = d.life := d.onHead_life h _

@[simp] theorem Dev.moduleEvent_life (h : Head) (log : CxlLog) : (d.moduleEvent h log).life = d.life := d.onHead_life h _

@[simp] theorem Dev.moduleEventBoth_life (log : CxlLog) : (d.moduleEventBoth log).life = d.life := by
  rw [Dev.moduleEventBoth, Dev.moduleEvent_life, Dev.moduleEvent_life]

@[simp] theorem Dev.mediaRecord_life (h : Head) (log : CxlLog) (dpa hostErr poison region line : Nat) :
    (d.mediaRecord h log dpa hostErr poison region line).life = d.life := d.onHead_life h _

@[simp] theorem Dev.noteMac_life (c : LineCtx) : (d.noteMac c).life = d.life := by
  rw [Dev.noteMac]; split <;> rfl

@[simp] theorem Dev.macRecords_life (c : LineCtx) : (d.macRecords c).life = d.life := by
  simp only [Dev.macRecords, Dev.mediaRecord_life, Dev.noteMac_life]

@[simp] theorem Dev.poisonEvent_life (c : LineCtx) (cause last : Nat) : (d.poisonEvent c cause last).life = d.life := by
  simp only [Dev.poisonEvent]
  split
  · rfl
  · split
    · rw [Dev.macRecords_life, Dev.event_life]
    · exact d.event_life _ _

@[simp] theorem Dev.sysPut_life (r : SysRec) : (d.sysPut r).life = d.life := by
  simp only [Dev.sysPut]; split <;> rfl

@[simp] theorem Dev.lockRegion_life (region : Nat) : (d.lockRegion region).life = d.life := by
  rw [Dev.lockRegion]
  split
  · rfl
  · split
    · rw [Dev.moduleEventBoth_life, Dev.event_life, Dev.sysPut_life]
    · rfl

/-! ### Ways of the cache and entries of staging -/

@[simp] theorem Dev.flipTagOf_life (key region line : Nat) : (d.flipTagOf key region line).life = d.life := by
  rw [Dev.flipTagOf]
  split
  · split <;> rfl
  · rfl

@[simp] theorem Dev.flipWay_life (key region line : Nat) : (d.flipWay key region line).life = d.life := by
  simp only [Dev.flipWay, Dev.flipTagOf_life]
  split
  · split <;> rfl
  · rfl

@[simp] theorem Dev.flipEntry_life (region line : Nat) (e : Entry) : (d.flipEntry region line e).1.life = d.life := by
  rw [Dev.flipEntry]; split <;> rfl

@[simp] theorem Dev.addEntry_life (e : Entry) : (d.addEntry e).life = d.life := by
  simp only [Dev.addEntry]
  split
  · exact d.flipEntry_life _ _ e
  · rfl

@[simp] theorem Dev.noteWayError_life (key : Nat) : (d.noteWayError key).life = d.life := by
  simp only [Dev.noteWayError]; split <;> rfl

@[simp] theorem Dev.checkTag_life (key : Nat) (w : Way) : (d.checkTag key w).life = d.life := by
  simp only [Dev.checkTag]
  split
  · rfl
  · split
    · rw [Dev.event_life, Dev.setWay_life, Dev.noteWayError_life]
    · rw [Dev.setWay_life, Dev.noteWayError_life]

@[simp] theorem Dev.checkData_life (key : Nat) (w : Way) : (d.checkData key w).life = d.life := by
  simp only [Dev.checkData]
  repeat' split
  all_goals simp only [Dev.noteWayError_life, Dev.event_life, Dev.count_life, Dev.setWay_life]

@[simp] theorem Dev.checkLine_life (r : Region) (region line : Nat) : (d.checkLine r region line).life = d.life := by
  simp only [Dev.checkLine]
  split
  · rfl
  · split
    · rw [Dev.checkTag_life]
    · rw [Dev.checkData_life, Dev.checkTag_life]

@[simp] theorem Dev.selectKey_life (key : Nat) : (d.selectKey key).life = d.life := by
  rw [Dev.selectKey]
  split
  · split <;> rfl
  · rfl

@[simp] theorem Dev.selectLine_life (r : Region) (region line : Nat) : (d.selectLine r region line).life = d.life := by
  rw [Dev.selectLine]
  split
  · exact foldl_life Dev.selectKey_life _ d
  · rfl

@[simp] theorem Dev.selectWay_life (key : Nat) : (d.selectWay key).life = d.life := by
  rw [Dev.selectWay]
  repeat' split
  all_goals simp only [Dev.selectLine_life, Dev.selectKey_life]

@[simp] theorem Dev.stageWay_life (key : Nat) : (d.stageWay key).life = d.life := by
  simp only [Dev.stageWay]
  repeat' split
  all_goals simp only [Dev.addEntry_life, Dev.flipTagOf_life, Dev.setWay_life, Dev.checkLine_life]

@[simp] theorem Dev.writeAlloc_life (r : Region) (region line : Nat) :
    (d.writeAlloc r region line).1.life = d.life := by
  simp only [Dev.writeAlloc]
  repeat' split
  all_goals simp only [Dev.setWay_life, Dev.stageWay_life, Dev.selectWay_life]

theorem Dev.life_of_writeAlloc {d d' : Dev} {r : Region} {region line : Nat} {k : Option Nat}
    (alloc : d.writeAlloc r region line = (d', k)) : d'.life = d.life :=
  (congrArg (fun x : Dev × Option Nat => x.1.life) alloc).symm.trans (d.writeAlloc_life r region line)

@[simp] theorem Dev.sideForWrite_life (r : Region) (region line : Nat) :
    (d.sideForWrite r region line).life = d.life := by
  simp only [Dev.sideForWrite]
  split
  · rfl
  · split
    · split
      next alloc => rw [Dev.setWay_life, Dev.life_of_writeAlloc alloc]
      next alloc => rw [Dev.life_of_writeAlloc alloc]
    · rfl

@[simp] theorem Dev.followClean_life (r : Region) (region line s : Nat) (x : Copy) :
    (d.followClean r region line s x).life = d.life := by
  rw [Dev.followClean]
  split
  · rw [Dev.flipTagOf_life, Dev.touch_life, Dev.setWay_life]
  · rfl

@[simp] theorem Dev.fill_life (r : Region) (region line : Nat) (data : LineData) (poison : BitVec 4) (cause : List Nat) :
    (d.fill r region line data poison cause).life = d.life := by
  simp only [Dev.fill]
  repeat' split
  all_goals simp only [Dev.flipTagOf_life, Dev.touch_life, Dev.setWay_life, Dev.count_life]

@[simp] theorem Dev.touchLine_life (r : Region) (region line : Nat) : (d.touchLine r region line).life = d.life := by
  rw [Dev.touchLine]; split <;> rfl

/-! ### The write of a sector -/

@[simp] theorem Dev.writeCache_life (r : Region) (region line s : Nat) (x : Copy) :
    (d.writeCache r region line s x).life = d.life := by
  have looked (c : Bool) (d : Dev) : (if c then d.sideForWrite r region line else d).life = d.life := by
    split
    · exact d.sideForWrite_life r region line
    · rfl
  simp only [Dev.writeCache]
  split
  next alloc =>
    have kept := Dev.life_of_writeAlloc alloc
    rw [looked, Dev.checkLine_life] at kept
    split
    · rw [Dev.flipWay_life, Dev.touch_life, Dev.setWay_life, kept]
    · exact kept
  next alloc =>
    rw [Dev.addEntry_life, Dev.life_of_writeAlloc alloc, looked, Dev.checkLine_life]

@[simp] theorem Dev.acceptNow_life (r : Region) (region line s : Nat) (x : Copy) :
    (d.acceptNow r region line s x).life = d.life := by
  simp only [Dev.acceptNow]
  split
  · split
    · rw [Dev.addEntry_life, Dev.followClean_life]
    · rw [Dev.setEntry_life, Dev.followClean_life]
  · exact d.writeCache_life r region line s x

@[simp] theorem Dev.zeroWrite_life (r : Region) (region line : Nat) : (d.zeroWrite r region line).life = d.life :=
  foldl_life (fun d s => d.acceptNow_life r region line s _) _ d

@[simp] theorem Dev.zeroFirst_life (r : Region) (region line : Nat) : (d.zeroFirst r region line).life = d.life := by
  rw [Dev.zeroFirst]
  split
  · exact d.zeroWrite_life r region line
  · rfl

@[simp] theorem Dev.accept_life (r : Region) (region line s : Nat) (x : Copy) :
    (d.accept r region line s x).life = d.life := by
  rw [Dev.accept, Dev.acceptNow_life, Dev.zeroFirst_life]

/-! ### The read of a line -/

@[simp] theorem Dev.checkZte_life (lz : Nat) : (d.checkZte lz).life = d.life := by
  rw [Dev.checkZte]
  repeat' split
  all_goals rfl

@[simp] theorem Dev.queueEarly_life (lz : Nat) : (d.queueEarly lz).life = d.life := by
  rw [Dev.queueEarly]
  repeat' split
  all_goals rfl

@[simp] theorem Dev.earlyIf_life (c : LineCtx) (pass corrected : Nat) : (d.earlyIf c pass corrected).life = d.life := by
  simp only [Dev.earlyIf]
  repeat' split
  all_goals simp only [Dev.queueEarly_life]

@[simp] theorem Dev.siblingMac_life (r : Region) (y : LineCtx) (pass : Nat) : (d.siblingMac r y pass).life = d.life := by
  simp only [Dev.siblingMac]
  split
  · rw [Dev.fill_life, Dev.lockRegion_life, Dev.poisonEvent_life]
  · rw [Dev.lockRegion_life, Dev.poisonEvent_life]

@[simp] theorem Dev.noteSiblings_life (ans : Answers) (t : StripeCtx) (c : LineCtx) (macOn : Bool) (passes : List Nat) :
    (d.noteSiblings ans t c macOn passes).life = d.life := by
  rw [Dev.noteSiblings]
  split
  · rfl
  · refine Dev.each_life (fun d y => ?_) _ d
    split
    · exact d.earlyIf_life y _ _
    · exact d.siblingMac_life t.r y _
    · rfl

@[simp] theorem Dev.missSenses_life (ans : Answers) (p : Pla) (n : Nat) : (d.missSenses ans p n).life = d.life := by
  rw [Dev.missSenses]; split <;> rfl

@[simp] theorem Dev.missRead_life (ans : Answers) (t : StripeCtx) (c : LineCtx) (r : ReadEnd) :
    (d.missRead ans t c r).life = d.life := by
  have sibling (d : Dev) (y : LineCtx) : (d.missSenses ans y.pla 1).life = d.life := d.missSenses_life ans y.pla 1
  simp only [Dev.missRead]
  split
  · rfl
  · rw [foldl_life sibling, Dev.missSenses_life]

@[simp] theorem Dev.countRead_life (t : StripeCtx) (c : LineCtx) (r : ReadEnd) : (d.countRead t c r).life = d.life := by
  have siblings (d : Dev) : ((t.siblings c).foldl (fun d x =>
      (d.count (cntLane (plaLane x.pla) 1) 1).laneBytes (plaLane x.pla) 324 0) d).life = d.life :=
    foldl_life (fun d x => (Dev.laneBytes_life _ _ _ _).trans (d.count_life _ _)) _ d
  simp only [Dev.countRead, Dev.when]
  repeat' split
  all_goals simp only [Dev.count_life, Dev.laneBytes_life, siblings]

@[simp] theorem Dev.noteRead_life (ans : Answers) (macOn : Bool) (t : StripeCtx) (c : LineCtx) (r : ReadEnd) :
    (d.noteRead ans macOn t c r).life = d.life := by
  simp only [Dev.noteRead]
  split
  all_goals simp only [Dev.earlyIf_life, Dev.poisonEvent_life, Dev.missRead_life, Dev.countRead_life, Dev.noteSiblings_life]

theorem Dev.life_of_enterBack {d d' : Dev} {r : Region} {region line : Nat} {data : LineData}
    (entered : d.enterBack r region line data = some d') : d'.life = d.life := by
  have own {e : Entry} (added : (if d.stagingFree then some (d.addEntry e) else none) = some d') : d'.life = d.life := by
    split at added
    · exact Option.some.inj added ▸ d.addEntry_life e
    · exact absurd added (by simp only [reduceCtorEq, not_false_eq_true])
  simp only [Dev.enterBack] at entered
  split at entered
  · split at entered
    · split at entered
      · exact own entered
      · exact Option.some.inj entered ▸ rfl
    · exact own entered
  · exact Option.some.inj entered ▸ rfl

@[simp] theorem Dev.recoverBack_life (c : LineCtx) (r : Region) (region line pass : Nat) (data : LineData) :
    (d.recoverBack c r region line pass data).life = d.life := by
  rw [Dev.recoverBack]
  split
  · split
    next entered => exact Dev.life_of_enterBack entered
    · rfl
  · rfl

@[simp] theorem Dev.mediaLine_life (ans : Answers) (r : Region) (region line : Nat) :
    (d.mediaLine ans r region line).1.life = d.life := by
  simp only [Dev.mediaLine]
  repeat' split
  all_goals simp only [Dev.recoverBack_life, Dev.lockRegion_life, Dev.noteRead_life, Dev.checkZte_life]

@[simp] theorem Dev.loadLine_life (ans : Answers) (r : Region) (region line : Nat) (need : BitVec 4) :
    (d.loadLine ans r region line need).1.life = d.life := by
  simp only [Dev.loadLine]
  repeat' split
  all_goals simp only [Dev.count_life, Dev.touchLine_life, Dev.fill_life, Dev.mediaLine_life, Dev.checkLine_life]

/-! ### The store of a result -/

@[simp] theorem Dev.storeSector_life (ans : Answers) (r : Region) (region line s off : Nat) (bytes : List Byte)
    (poison : Bool) : (d.storeSector ans r region line s off bytes poison).life = d.life := by
  simp only [Dev.storeSector]
  split
  · exact d.accept_life r region line s _
  · rw [Dev.accept_life]
    split
    · rfl
    · exact d.loadLine_life ans r region line _

@[simp] theorem Dev.storeRegion_life (ans : Answers) (r : Region) (region off : Nat) (bs : List Byte) :
    (d.storeRegion ans r region off bs).life = d.life := by
  refine foldl_life (fun d p => ?_) _ d
  split
  · rfl
  · exact d.storeSector_life ans r region _ _ _ _ false

@[simp] theorem Dev.deadStore_life (who : StoreFor) (h : Head) : (d.deadStore who h).life = d.life := by
  cases who with
  | cmd o => exact d.lostStore_life h 1
  | ring => exact d.lostStore_life h 1

@[simp] theorem Dev.refusedPiece_life (who : StoreFor) (h : Head) : (d.refusedPiece who h).life = d.life := by
  cases who with
  | cmd o => exact d.refusedStore_life h 1
  | ring => exact d.refusedStore_life h 1

@[simp] theorem Dev.storePiece_life (ans : Answers) (who : StoreFor) (h : Head) (region off : Nat) (bs : List Byte) :
    (d.storePiece ans who h region off bs).life = d.life := by
  rw [Dev.storePiece]
  repeat' split
  all_goals simp only [Dev.deadStore_life, Dev.refusedPiece_life, Dev.storeRegion_life]

@[simp] theorem Dev.storeAll_life (ans : Answers) (who : StoreFor) (h : Head) (region off : Nat) (bs : List Byte) :
    (d.storeAll ans who h region off bs).1.life = d.life := by
  refine foldl_fst_life (fun ⟨d, dead⟩ p => ?_) _ (d, false)
  dsimp only
  split
  · exact d.storePiece_life ans who h region p.1 p.2
  · rfl

/-! ### The end of a command -/

@[simp] theorem Dev.ringWrite_life (h : Head) (base : Word) (off : Nat) (bs : List Byte) :
    (d.ringWrite h base off bs).1.life = d.life := by
  simp only [Dev.ringWrite]
  repeat' split
  all_goals simp only [Dev.send_life, Dev.storeAll_life, Dev.lostStore_life]

@[simp] theorem Dev.interrupt_life (qid : Nat) (urgent : Bool) : (d.interrupt qid urgent).life = d.life := by
  simp only [Dev.interrupt]
  repeat' split
  all_goals rfl

@[simp] theorem Dev.pairError_life (qid cause : Nat) : (d.pairError qid cause).life = d.life := by
  rw [Dev.pairError]; split <;> rfl

@[simp] theorem Dev.noteCfg_life (h : Head) : (d.noteCfg h).life = d.life := by
  simp only [Dev.noteCfg]; split <;> rfl

@[simp] theorem Dev.postNow_life (qid cid status result : Nat) (sqIdx : Option Nat) (urgent : Bool) :
    (d.postNow qid cid status result sqIdx urgent).life = d.life := by
  simp only [Dev.postNow]
  repeat' split
  all_goals simp only [Dev.onPair_life, Dev.cplDiscarded_life, Dev.interrupt_life, Dev.pairError_life, Dev.ringWrite_life]

@[simp] theorem Dev.post_life (qid cid status result : Nat) (sqIdx : Option Nat) (urgent : Bool) :
    (d.post qid cid status result sqIdx urgent).life = d.life := by
  rw [Dev.post]
  split
  · rfl
  · exact d.postNow_life qid cid status result sqIdx urgent

@[simp] theorem Dev.traceEnd_life (t : Trace) (timeout ok : Bool) : (d.traceEnd t timeout ok).life = d.life := by
  simp only [Dev.traceEnd]
  split
  · rw [Dev.ringWrite_life]
  · rfl

@[simp] theorem Dev.traceEndIf_life (p : Trace → Bool) : (d.traceEndIf p).life = d.life :=
  Dev.each_life (fun d t => d.traceEnd_life t false true) _ d

@[simp] theorem Dev.complete1_life (x : Exec) (status result : Nat) : (d.complete1 x status result).life = d.life := by
  simp only [Dev.complete1, Dev.traceEndIf_life, Dev.stageIf_life]
  split
  all_goals simp only [Dev.cplDiscarded_life, Dev.post_life, Dev.stageIf_life, Dev.dropExec_life,
    Dev.when_life (fun d => d.count_life _ _)]

@[simp] theorem Dev.finishPair_life (qid : Nat) : (d.finishPair qid).life = d.life := by
  simp only [Dev.finishPair]
  repeat' split
  all_goals simp only [Dev.complete1_life, Dev.noteCfg_life, Dev.setPair_life]

@[simp] theorem Dev.finishDelete_life (qid : Nat) : (d.finishDelete qid).life = d.life := by
  rw [Dev.finishDelete, Dev.finishPair_life, Dev.finishPair_life]

theorem Dev.complete_life (x : Exec) (status result : Nat) : (d.complete x status result).life = d.life := by
  rw [Dev.complete]
  split
  · rfl
  · rw [Dev.finishDelete_life, Dev.complete1_life]

theorem Dev.dropJob_life (order : Nat) : (d.dropJob order).life = d.life := by
  rw [Dev.dropJob]
  split
  · rfl
  · exact Dev.each_life (fun d s => d.onStream_life s Stream.idle) _ _

end

end Sys2Proof.Machine
end

section
/-!
PROOF. SET_TIME, SELF_TEST and FW_DOWNLOAD (11 SET_TIME; 19 Tests asked for during service, Firmware slots and live
update), and the time limit of a live update's cluster, whose interruptions leave the life cycle alone.
-/

namespace Sys2Proof.Machine

section
variable {d : Dev} {x : Exec}

/-! ### SET_TIME -/

theorem Dev.takeTime_of_memoryReady (ready : d.memoryReady = true) (ns : Nat) : d.takeTime ns = d.applyTime ns := by
  simp only [Dev.memoryReady, Bool.and_eq_true, decide_eq_true_eq] at ready
  exact if_pos ready

theorem Dev.takeTime_of_early (early : d.memoryReady = false) (w : Word) :
    d.takeTime w.toNat = { d with q := { d.q with heldTime := some w } } := by
  have notYet : ¬ (9 ≤ stageNum d.life.stage ∧ stageNum d.life.stage ≤ 10) := by
    simpa only [Dev.memoryReady, ← Bool.decide_and, decide_eq_false_iff_not] using early
  rw [Dev.takeTime, if_neg notYet, BitVec.ofNat_toNat, BitVec.setWidth_eq]

theorem Dev.setTimeCmd_of_ne (ne : x.p 0 ≠ 0) : d.setTimeCmd x =
    (d.takeTime (x.p 0).toNat).complete x stSuccess (d.takeTime (x.p 0).toNat).therm.offCase.toNat :=
  if_neg (fun zero => ne (BitVec.eq_of_toNat_eq zero))

/-! ### SELF_TEST -/

theorem Dev.selfTest_of_lane (idle : d.testers = []) (lane : x.pn 0 0 4 = 1) (l : List BistFail) :
    d.selfTest x l = d.testScope x (x.pn 0 4 4) none := by
  simp only [Dev.selfTest, idle, List.contains_nil, List.isEmpty_nil, Bool.true_eq_false, Bool.false_eq_true, if_false, lane]

theorem Dev.selfTest_of_die (idle : d.testers = []) (die : x.pn 0 0 4 = 2) (l : List BistFail) :
    d.selfTest x l = d.testScope x (x.pn 0 4 4) (some (x.pn 0 8 3)) := by
  simp only [Dev.selfTest, idle, List.contains_nil, List.isEmpty_nil, Bool.true_eq_false, Bool.false_eq_true, if_false, die]

theorem Dev.selfTest_of_logic (idle : d.testers = []) (logic : x.pn 0 0 4 = 3) (l : List BistFail) :
    d.selfTest x l = ({ d with life := { d.life with bistNext := true } } : Dev).complete x stSuccess 0 := by
  simp only [Dev.selfTest, idle, List.contains_nil, List.isEmpty_nil, Bool.true_eq_false, Bool.false_eq_true, if_false, logic]

theorem Dev.testScope_of_detour {lane : Nat} {die : Option Nat} (ok : d.scopeOk die = true)
    (detour : d.scopeState lane die = .detour) :
    d.testScope x lane die = d.startTest lane die (some (x.qid, x.cid)) := by
  simp only [Dev.testScope, Dev.opTest_of_out ok (some (x.qid, x.cid)) (.inl detour), if_true]

/-! ### FW_DOWNLOAD -/

/-- FW_DOWNLOAD of whole pieces from host memory, before it looks for poison among them. -/
theorem Dev.fwDownload_of_host {host : List HostBytes} (some_ : 0 < x.pn 2 0 32) (whole : x.pn 2 0 32 % 4096 = 0)
    (inside : x.pn 0 0 32 + x.pn 2 0 32 ≤ 2 ^ 25) (hostMemory : mtype (x.p 1) = 0) :
    d.fwDownload x host =
      if (hostBad host (addrOf (x.p 1)) (x.pn 2 0 32)).isEmpty = false then d.complete x stPoisonConsumed 0
      else (d.downloadFw (x.pn 0 0 32) (d.hostLoad host (addrOf (x.p 1)) (x.pn 2 0 32))).complete x stSuccess 0 := by
  have fits : ¬ (x.pn 2 0 32 = 0 ∨ x.pn 2 0 32 % 4096 ≠ 0 ∨ 2 ^ 25 < x.pn 0 0 32 + x.pn 2 0 32) := by omega
  simp only [Dev.fwDownload, fits, Dev.bufferOk, Dev.load, Dev.hostBuf, hostMemory, Bool.true_eq_false,
    Bool.false_eq_true, if_false]

/-! ### The time limit of a live update -/

theorem Dev.dropTest_clusterTest (none_ : d.life.clusterTest = none) : (d.dropTest x).life.clusterTest = none :=
  congrArg (Option.filter _) none_

/-- An interruption begins no CLUSTER test. -/
theorem Dev.interruptCmd_clusterTest (none_ : d.life.clusterTest = none) :
    (d.interruptCmd x).life.clusterTest = none := by
  have dropped : ((d.dropJob x.order).dropLater x).life = d.life := d.dropJob_life x.order
  rw [Dev.interruptCmd, Dev.complete_life]
  exact Dev.dropTest_clusterTest ((congrArg LifeBlock.clusterTest dropped).trans none_)

theorem Dev.foldl_interruptCmd_clusterTest (l : List Exec) (none_ : d.life.clusterTest = none) :
    (l.foldl Dev.interruptCmd d).life.clusterTest = none := by
  induction l generalizing d with
  | nil => exact none_
  | cons x l rest => exact rest (Dev.interruptCmd_clusterTest none_)

theorem Dev.updating_of_durable {f : FwCommit} {c : Nat} {l : List Nat} (commit : d.sec.commit = some f)
    (durable : f.durable = true) (todo : f.todo = c :: l) : d.updating = some (f, c) := by
  simp only [Dev.updating, commit, todo, durable, if_true]

theorem Dev.updateTimeout_of_late {f : FwCommit} {c : Nat} (updating : d.updating = some (f, c)) (second : 2 ≤ c)
    (late : f.startAt + 100 * msNs ≤ d.now) (none_ : d.life.clusterTest = none) :
    d.updateTimeout c = d.interruptRunning c f.since := by
  have still : (d.interruptRunning c f.since).life.clusterTest = none := Dev.foldl_interruptCmd_clusterTest _ none_
  simp only [Dev.updateTimeout, updating, late, second, and_self, if_true, still]

end

/-- Settles O23: a case per time, test and source; the interruptions of the time limit begin no CLUSTER test. -/
theorem timeTestsAndDownloads : Obligations.TimeTestsAndDownloads := by
  unfold Obligations.TimeTestsAndDownloads
  refine ⟨fun s t qid cid x => ?_, fun s t qid cid x => ⟨?_, ?_, ?_⟩⟩
  · intro d runs ne
    refine ⟨fun ready => ?_, fun early => ?_⟩
    · refine State.after_command_eq runs ((Dev.setTimeCmd_of_ne ne).trans ?_)
      rw [Dev.takeTime_of_memoryReady ready]
    · refine State.after_command_eq runs ((Dev.setTimeCmd_of_ne ne).trans ?_)
      rw [Dev.takeTime_of_early early]
  · intro bist runs idle
    refine ⟨fun lane detour => ?_, fun die used detour => ?_, fun logic => ?_⟩
    · exact State.after_command_eq runs ((Dev.selfTest_of_lane idle lane bist).trans (Dev.testScope_of_detour rfl detour))
    · exact State.after_command_eq runs
        ((Dev.selfTest_of_die idle die bist).trans (Dev.testScope_of_detour (die := some (x.pn 0 8 3)) used detour))
    · exact State.after_command_eq runs (Dev.selfTest_of_logic idle logic bist)
  · intro host runs some_ whole inside hostMemory
    have downloads := Dev.fwDownload_of_host (d := s.before t) (host := host) some_ whole inside hostMemory
    refine ⟨fun good => ?_, fun bad => ?_⟩
    · refine State.after_command_eq runs (downloads.trans (if_neg ?_))
      rw [good, List.isEmpty_nil]
      exact Bool.noConfusion
    · exact State.after_command_eq runs (downloads.trans (if_pos (List.isEmpty_eq_false_iff.mpr bad)))
  · intro c f l running commit durable todo second late none_
    exact State.after_running running
      (Dev.updateTimeout_of_late (Dev.updating_of_durable commit durable todo) second late none_)

end Sys2Proof.Machine
end
